-- ==== Sys2Proof/Word.lean ====
section
/-! DEFINITION. The word of the device and the names of its small index types. -/
namespace Sys2Proof

/-- A word has 24 bits, bit 23 most significant (R4). -/
abbrev Word := BitVec 24

/-- A physical word address has 28 bits and counts words (R4). -/
abbrev Addr := BitVec 28

/-- A fabric requester, 0 to 25 (R15): 0 to 15 the cores, 16 the Steward, 25 the debug requester. -/
abbrev Req := Fin 26

/-- A processor: 0 to 15 the cores, 16 the Steward (R389, R458). -/
abbrev Proc := Fin 17

/-- A general register number W0 to W15 (R244). -/
abbrev RegNo := BitVec 4

/-- A tine, 0 to 63 (R396). -/
abbrev Tine := BitVec 6

/-- A beam: 0 is Beam A, 1 is Beam B. -/
abbrev BeamIx := Fin 2

end Sys2Proof
end

