-- ==== Sys2Proof/Syntax.lean ====
section
/-! DEFINITION. The commands of the block: one constructor of `Instr` for each row of spec/opcode_table.json, with the
operands that the row's rule names. The table gives no row any bits, so a command is spelled by its constructor alone.
An operand that the device would measure or receive (a count of a window, a temperature, a pad level, the answer of the
fabric, a frame of a lane) is an operand of the command that stands for that event. -/
namespace Sys2Proof

/-- The request classes of R15. -/
inductive ReqClass where
  | steward | beam | normal
  deriving DecidableEq, Repr

/-- What a fabric transaction asks for: `n` words to read, or the words to write (R45, R49). -/
inductive TxnOp where
  | read (n : Nat)
  | write (ws : List Word)
  deriving DecidableEq, Repr

/-- What the fabric adds to the outcome of an access: nothing, an error response (R33), or a poisoned response (R56). An
error that the address itself causes (R11, R12, R14, R37, R56) is found by the model, whatever this operand says. -/
inductive BusResp where
  | ok | error | poisoned
  deriving DecidableEq, Repr

/-- The transports of R319 on which a Tyskaolo request reaches the Steward. -/
inductive Transport where
  | link | host | spi
  deriving DecidableEq, Repr

/-- The wake sources of R448. -/
inductive WakeSrc where
  | override (n : Fin 8)
  | watcher
  | lane (n : Fin 8)
  | timer
  | pin (n : Fin 8)
  deriving DecidableEq, Repr

/-- A frame on a lane (R368): the fields of its header but TYPE and LEN, its payload as it stands on the lane, enciphered where KEYID is
not 0, and the words of its check or tag; whether an error block ends it (R369). Of a frame received, also what the lane saw since
the frame before it: the blocks that FEC corrected, those it could not (R361), and those that found the crossing full (R30). -/
structure LinkFrame where
  dir : Bool := false
  hops : BitVec 8 := 0
  src : BitVec 11 := 0
  dest : BitVec 11 := 0
  bc : Bool := false
  sid : BitVec 12 := 0
  seq : Word := 0
  keyid : BitVec 8 := 0
  ctr : BitVec 48 := 0
  payload : List Word := []
  check : List Word := []
  cut : Bool := false
  fixed : Nat := 0
  spoilt : Nat := 0
  lost : Nat := 0
  deriving DecidableEq, Repr

/-- The commands, in the order of the opcode table. -/
inductive Instr where

  /-- REGISTER_WRITE (R7): A write to a register that has no row of its own updates its writable fields by access code and class, or is dropped and counted. -/
  | registerWrite (req : Req) (a : Addr) (v : Word)
  /-- PACE_WINDOW (R27): At the end of each 1 µs timebase window, FAB_PACE.CYCLES takes the count of completed reference handshake cycles. -/
  | paceWindow (cycles : BitVec 16)
  /-- MIRROR_TRANSFER (R32): A mirrored register write reaches the 32.768 kHz domain and its pending bit clears. -/
  | mirrorTransfer (ofs : BitVec 16)
  /-- HANDSHAKE_TIMEOUT (R33): A port that has had no acknowledge for 2,500 ticks drops the transfer, returns an error response, counts it and sets FAB_EVT.HSTO. -/
  | handshakeTimeout (port : BitVec 6) (req : Req)
  /-- LATE_ACKNOWLEDGE (R33): An acknowledge that arrives after the timeout is absorbed and counted again. -/
  | lateAcknowledge (port : BitVec 6)
  /-- FMEN_SET (R37): Setting FAB_CTRL.FMEN locks ILV and starts clearing every field-memory row with INIT at 1. -/
  | fmenSet (req : Req)
  /-- FIELD_MEMORY_INIT_DONE (R37): Field-memory initialisation finishes and FAB_STAT.READY becomes 1. -/
  | fieldMemoryInitDone
  /-- REFRESH_CYCLE (R39): A quadrant's refresh interval expires and it refreshes its rows, delaying requests by at most one refresh cycle. -/
  | refreshCycle (q : Fin 4)
  /-- REFRESH_RATE_CHANGE (R39): A quadrant sensor crosses 95 °C or 92 °C, changing its refresh rate; HOTREF changes and FAB_EVT.HOTREF is set. -/
  | refreshRateChange (q : Fin 4) (temp : Int)
  /-- TRANSACTION_ISSUE (R41): A requester that holds a tag, credit and reserved response space issues a transaction, which is arbitrated at the bank. -/
  | transactionIssue (req : Req) (plot : Fin 8) (a : Addr) (op : TxnOp)
  /-- TRANSACTION_RESPONSE (R45): The response of a transaction reaches its requester, and the tag and credits are returned. -/
  | transactionResponse (tag : BitVec 14)
  /-- CREDIT_WRITE (R42): A write to FAB_CRD_n is applied, or dropped and counted with CRDERR if GUAR would exceed 4,032 in total or LIMIT would fall below GUAR. -/
  | creditWrite (req : Req) (n : Fin 26) (v : Word)
  /-- BANK_SLEEP (R47): A bank that has been idle for its idle time while tolerance is above the threshold goes to sleep. -/
  | bankSleep (bank : BitVec 5)
  /-- BANK_WAKE_START (R48): A request to a sleeping bank, or tolerance falling to the threshold, starts waking the bank or banks. -/
  | bankWakeStart (bank : Option (BitVec 5)) (beamWaits : Bool)
  /-- BANK_WAKE_DONE (R48): A waking bank becomes awake, within 150 ns. -/
  | bankWakeDone (bank : BitVec 5)
  /-- SNOOP (R49): A core receives a directory snoop and supplies or invalidates the line. -/
  | snoop (c : Fin 16) (line : BitVec 21)
  /-- WRITEBACK (R51): A directory receives a core writeback, writes the line and takes it as the answer to an outstanding snoop. -/
  | writeback (c : Fin 16) (line : BitVec 21)
  /-- SEMAPHORE_ACQUIRE (R52): A read of FAB_SEMV_p_n is an acquire attempt and returns GRANTED, BUSY or BROKEN. -/
  | semaphoreAcquire (req : Req) (p : Fin 8) (n : BitVec 8)
  /-- SEMAPHORE_CLRBRK (R53): A holder's CLRBRK write clears the semaphore's broken flag. -/
  | semaphoreClrbrk (req : Req) (p : Fin 8) (n : BitVec 8)
  /-- SEMAPHORE_REL (R53): A holder's REL write frees the semaphore, notifies waiters and may publish on its tine. -/
  | semaphoreRel (req : Req) (p : Fin 8) (n : BitVec 8)
  /-- SEMAPHORE_WAIT (R53): A WAIT write registers the plot as a waiter, or sets its FAB_SEMNOTE bit at once if the semaphore is free. -/
  | semaphoreWait (req : Req) (p : Fin 8) (n : BitVec 8)
  /-- SEMACL_WRITE (R53): A Steward write to FAB_SEMACL_n changes the plots, tine and enable, and clears the WAITERS bits of removed plots. -/
  | semaclWrite (req : Req) (n : BitVec 8) (v : Word)
  /-- FENCE_REQ (R56): Setting FAB_FENCE.REQ bit p starts refusing new requests of plot p. -/
  | fenceReq (req : Req) (p : Fin 8)
  /-- FENCE_TIMEOUT (R56): When the fence time runs out, the fabric retires each remaining transaction of the plot with a poisoned response. -/
  | fenceTimeout (p : Fin 8)
  /-- FENCE_DONE (R56): FAB_PLOTOUT_p reaches 0, so DONE bit p and FENCEDONE are set and the plot's semaphores are broken. -/
  | fenceDone (p : Fin 8)
  /-- FENCE_REL (R57): A REL write lifts the refusal and clears DONE and REQ if DONE is 1, or is dropped and counted otherwise. -/
  | fenceRel (req : Req) (p : Fin 8)
  /-- TAGPEAK_CLR (R60): Writing CLR sets FAB_TAGPEAK.PEAK to the present INUSE. -/
  | tagpeakClr (req : Req)
  /-- TIMING_ENABLE (R71): Setting TEN checks the timing set and starts the acquire sequence, or leaves TEN 0 with TSETERR. -/
  | timingEnable (req : Req) (b : BeamIx)
  /-- TIMING_DISABLE (R71): Clearing TEN stops output at once and returns the generator to OFF. -/
  | timingDisable (req : Req) (b : BeamIx)
  /-- TGO (R72): A TGO write checks the staged timing set and copies it for the next frame Headland. -/
  | tgo (req : Req) (b : BeamIx)
  /-- PIXEL_PLL_LOCK (R71): The pixel PLL locks, and the generator chooses the first frame start (SRC 0) or waits for GLK_IN. -/
  | pixelPllLock (b : BeamIx)
  /-- GLK_IN_EDGE (R67): A filtered GLK_IN edge is accepted, paired or rejected with GLKBAD, and may end HOLD, start a slew or complete acquire. -/
  | glkInEdge (rising : Bool)
  /-- GLK_LOSS (R67): No edge has been accepted for 2 frame periods, so the generator enters HOLD and sets LOSS. -/
  | glkLoss (b : BeamIx)
  /-- FRAME_HEADLAND_START (R63): At the frame Headland, staged and frame-latched fields latch, events publish, working values reset and the Furrow sections for lines 0 to 2 start. -/
  | frameHeadlandStart (b : BeamIx)
  /-- LINE_HEADLAND_START (R63): At a line Headland, shadowed fields latch, LINE and WM events publish, unfinished line work is abandoned and the Furrow section for line n + 3 starts. -/
  | lineHeadlandStart (b : BeamIx)
  /-- FRAME_START (R62): The first pixel of line 0 leaves; the frame index advances, START publishes, GLK_OUT pulses and an acquire becomes LOCKED. -/
  | frameStart (b : BeamIx)
  /-- LINE_SEND_START (R142): An active line begins to be sent, which lets the compositor start line m + 2. -/
  | lineSendStart (b : BeamIx) (full : Bool)
  /-- VLOOP_WINDOW (R78): Every 10 µs the voltage loop evaluates the smallest tolerance and moves the VCORE request by at most one code. -/
  | vloopWindow
  /-- VREQ_RESPONSE (R443): The ACK period of a VREQ frame ends; ACK records the code, and NAK or silence retries up to 3 times and then sets VREQERR. -/
  | vreqResponse (ack : Bool)
  /-- THERMAL_LIMIT_STEP (R79): Every 1 ms the thermal limit falls or rises by one code according to the junction sensor. -/
  | thermalLimitStep
  /-- PALETTE_WRITE (R88): A palette entry write takes effect from the next composed pixel and invalidates a static group that holds an indexed plane. -/
  | paletteWrite (req : Req) (b : BeamIx) (i : BitVec 12) (v : Word)
  /-- COMPOSITOR_LINE_START (R142): The compositor starts line m once line m − 2 is being sent and its Furrow section has ended, then applies the queued writes. -/
  | compositorLineStart (b : BeamIx)
  /-- SEGMENT_START (R112): The compositor starts a 64-pixel segment, checks shedding, computes covering, fetches and composes. -/
  | segmentStart (b : BeamIx)
  /-- CAPTURE_FRAME_DONE (R132): The last word of a captured frame is written; CAPSTAT.FRAME is set, CAPDONE raised and EN cleared in MODE 2. -/
  | captureFrameDone (b : BeamIx)
  /-- REGION_COMPARE (R135): After a region's last pixel, its CRC is recorded or compared, and a mismatch sets MIS and is reported. -/
  | regionCompare (b : BeamIx) (n : Fin 16)
  /-- REGION_NOFRAME (R136): A compare-mode region has waited its frame periods without a comparison and raises a NOFRAME mismatch. -/
  | regionNoframe (b : BeamIx) (n : Fin 16)
  /-- REGION_CAP (R138): A CAP write copies the last signature and its frame index into CRC and CFRM. -/
  | regionCap (req : Req) (b : BeamIx) (n : Fin 16)
  /-- FURROW_END (R149): END ends the section and skips the next SKIP lines. -/
  | furrowEnd (b : BeamIx) (skip : BitVec 20)
  /-- FURROW_WR (R149): WR checks and queues a write of one value to OFS for the line. -/
  | furrowWr (b : BeamIx) (ofs : BitVec 16) (v : Word)
  /-- FURROW_WRN (R149): WRN queues N writes to consecutive offsets, each checked on its own. -/
  | furrowWrn (b : BeamIx) (ofs : BitVec 16) (vs : List Word)
  /-- FURROW_WRF (R149): WRF queues a masked write to OFS. -/
  | furrowWrf (b : BeamIx) (ofs : BitVec 16) (mask v : Word)
  /-- FURROW_ADD (R149): ADD queues a write of the old value plus DELTA. -/
  | furrowAdd (b : BeamIx) (ofs : BitVec 16) (delta : Word)
  /-- FURROW_JMP (R149): JMP continues at word TARGET of the program. -/
  | furrowJmp (b : BeamIx) (target : BitVec 20)
  /-- FURROW_LOOP (R150): LOOP loads, decrements or idles the loop counter and branches, or reports a nested loop. -/
  | furrowLoop (b : BeamIx) (count : BitVec 12) (target : BitVec 20)
  /-- FURROW_PUB (R151): PUB publishes an event on TINE. -/
  | furrowPub (b : BeamIx) (tine : Tine)
  /-- FURROW_WAITL (R149): WAITL ends the section, and no section runs until line LINE. -/
  | furrowWaitl (b : BeamIx) (line : BitVec 13)
  /-- FURROW_SKIPEV (R151): SKIPEV clears a set event latch and skips the next instruction. -/
  | furrowSkipev (b : BeamIx) (k : Fin 4)
  /-- FURROW_HALT (R149): HALT ends the section and runs no further section in this frame. -/
  | furrowHalt (b : BeamIx)
  /-- FURROW_RESERVED_OPCODE (R149): Opcodes 0xA to 0xE act as HALT and are counted with cause 1. -/
  | furrowReservedOpcode (b : BeamIx) (op : BitVec 4)
  /-- FURROW_FETCH_RESPONSE (R153): A program read outside the window returns, so the waiting instruction proceeds; an error decodes as END 0 and counts cause 8. -/
  | furrowFetchResponse (b : BeamIx) (r : BusResp)
  /-- HRW_SUBMIT (R167): A write to HRW_Qq_SUBMIT adds a list to queue q, or drops it with QFULL. -/
  | hrwSubmit (req : Req) (q : Fin 4) (base : Word)
  /-- HRW_FLUSH (R173): FLUSH discards the queue's running and waiting lists at the next burst boundary. -/
  | hrwFlush (req : Req) (q : Fin 4)
  /-- HARROW_PAUSE (R173): Writing HRW_CTRL.EN 0 stops new bursts and sets PAUSED once those in flight complete. -/
  | harrowPause (req : Req)
  /-- HARROW_RESUME (R173): Writing HRW_CTRL.EN 1 resumes work at the same pixel. -/
  | harrowResume (req : Req)
  /-- HARROW_FETCH_RESPONSE (R163): A fetched command is checked; a failing one is skipped with cause 2, and an error response decodes as END. -/
  | harrowFetchResponse (r : BusResp)
  /-- HARROW_END (R161): END ends the list; it completes once its writes are acknowledged. -/
  | harrowEnd
  /-- SURF (R161): SURF sets the destination or source surface. -/
  | surf (fmt : BitVec 2) (sel : Bool) (base : Word) (stride : BitVec 14)
  /-- CLIP (R161): CLIP sets or clears the clip rectangle. -/
  | clip (en : Bool) (x0 y0 x1 y1 : BitVec 13)
  /-- LUT (R161): LUT sets the palette table base. -/
  | lut (base : Word)
  /-- HARROW_KEY (R161): KEY sets or clears the colour key. -/
  | harrowKey (en : Bool) (key : Word)
  /-- FILL (R164): FILL paints a rectangle with COLOUR, clipped and blended. -/
  | fill (alpha : BitVec 6) (xdir ydir : Bool) (colour : Word) (dx dy : BitVec 13) (w h : BitVec 14)
  /-- COPY (R164): COPY copies a rectangle with key, palette expansion and blend. -/
  | copy (alpha : BitVec 6) (xdir ydir : Bool) (pal : BitVec 9) (sx sy dx dy : BitVec 13) (w h : BitVec 14)
  /-- WAITWM (R171): WAITWM makes the list wait for the next WM event of its beam. -/
  | waitwm (b : BeamIx)
  /-- HARROW_PUB (R161): PUB publishes an event on TINE. -/
  | harrowPub (tine : Tine)
  /-- HARROW_RESERVED_OPCODE (R161): A reserved opcode abandons the list with cause 1. -/
  | harrowReservedOpcode (op : BitVec 4)
  /-- HARROW_BURST (R169): The Harrow issues a data burst once the dead time has passed and tags allow it. -/
  | harrowBurst (r : BusResp)
  /-- ROW_END (R168): A FILL or COPY row ends when its writes are acknowledged, and queues are re-arbitrated. -/
  | rowEnd
  /-- LIST_COMPLETE (R170): A list whose END has executed and whose writes are acknowledged completes and is signalled, or waits for WM under CMODE 1. -/
  | listComplete (q : Fin 4)
  /-- WATERMARK_TIMEOUT (R171): No WM event within WMTO ms ends the wait with cause 6. -/
  | watermarkTimeout (q : Fin 4)
  /-- AUDIO_ENABLE (R178): Writing AUD_CTRL.EN 1 checks PHASE and enters ACQUIRE. -/
  | audioEnable (req : Req)
  /-- AUDIO_PLL_LOCK (R178): The audio PLL locks and the first index k0 is chosen. -/
  | audioPllLock
  /-- AUDIO_RUN_START (R178): Ports start clocks with frame k0 and STATE becomes RUN. -/
  | audioRunStart
  /-- AUDIO_DISABLE (R178): Writing EN 0 stops the engine at the next sample boundary and discards voices, gains and Sheaves. -/
  | audioDisable (req : Req)
  /-- AUDIO_INDEX_COMPUTE (R179): The engine computes one output index: Sheaf phases, gains, latch, inputs, crosspoint, trim, delay and output. -/
  | audioIndexCompute (pdm sns : List Word)
  /-- TDM_FRAME (R177): A TDM frame is exchanged on an enabled port at its sample instant, with underrun and overrun handling. -/
  | tdmFrame (t : Fin 4) (slots : List (BitVec 32))
  /-- NODE_WRITE (R183): A node write becomes the pending gain, and the zero-crossing timeout starts. -/
  | nodeWrite (req : Req) (i : BitVec 7) (o : BitVec 6) (v : Word)
  /-- VOICE_GO (R188): GO checks the latched voice fields and starts or restarts the voice, or rejects it. -/
  | voiceGo (req : Req) (v : BitVec 6)
  /-- VOICE_STOP (R190): STOP ends the voice at the next index. -/
  | voiceStop (req : Req) (v : BitVec 6)
  /-- VOICE_REL (R190): REL ends a loop after its pass, or starts a tone's or chime's end. -/
  | voiceRel (req : Req) (v : BitVec 6)
  /-- VOICE_FETCH_RESPONSE (R191): A voice read returns; an error response yields 0 with cause 5. -/
  | voiceFetchResponse (v : BitVec 6) (a : BitVec 29) (r : BusResp)
  /-- SHF_GO (R195): GO loads a Sheaf list into staging for checking, or is dropped if the slot is busy. -/
  | shfGo (req : Req) (p : Fin 8)
  /-- SHEAF_LOADED (R195): Loading ends, and the Sheaf enters WAITING or is rejected whole. -/
  | sheafLoaded (p : Fin 8)
  /-- SHF_CANCEL (R197): CANCEL discards a Sheaf that has not begun to apply. -/
  | shfCancel (req : Req) (p : Fin 8)
  /-- AMBIENT_UPDATE (R206): Each update period the ambient loop measures, gates and moves its trim toward the target. -/
  | ambientUpdate (l : Fin 4)
  /-- STAGED_START (R216): A staged-message start reads the descriptor and starts its audio Sheaf, Harrow list and display writes. -/
  | stagedStart (src : Fin 9)
  /-- STAGED_SHEAF_READY (R216): The awaited audio state or Sheaf slot becomes ready, and the start continues. -/
  | stagedSheafReady
  /-- STAGED_HARROW_DONE (R216): The staged Harrow list completes, and the display writes follow. -/
  | stagedHarrowDone
  /-- STAGED_WAIT_TIMEOUT (R216): A Sheaf or Harrow wait of the start runs out, with cause 6 or 7, and later steps continue. -/
  | stagedWaitTimeout
  /-- STGGO_GO (R217): A SUP_STGGO GO requests a start of SLOT at the lowest priority. -/
  | stggoGo (req : Req) (slot : BitVec 6)
  /-- STGGO_STOP (R217): A STOP ends the software source, running its stop Sheaf and starting the highest pending source. -/
  | stggoStop (req : Req)
  /-- OVERRIDE_SAMPLE (R218): Every 100 µs the override pads are sampled and debounced. -/
  | overrideSample (pa pb : BitVec 8)
  /-- DISCREPANCY_EVAL (R220): Every millisecond each override input's state is evaluated from its filtered channels. -/
  | discrepancyEval
  /-- OVERRIDE_CLR (R221): CLR clears FAULT if the channels agree, or is dropped with cause 2. -/
  | overrideClr (req : Req) (n : Fin 8)
  /-- OVERRIDE_CAP (R222): CAP copies the input's last date into TS2 to TS0. -/
  | overrideCap (req : Req) (n : Fin 8)
  /-- NIGHT_ROUND_START (R223): START or a tine event starts a round, or ends it at once as ABORTED. -/
  | nightRoundStart (tine : Option Tine) (req : Req)
  /-- NIGHT_ROUND_ABORT (R229): An ABORT write, an override, a staged start or an audio stop aborts the round. -/
  | nightRoundAbort (req : Req)
  /-- IMPEDANCE_PHASE_END (R226): A timed phase of an impedance step ends, and the integration yields ZMAG, ZPH and ZST. -/
  | impedancePhaseEnd
  /-- ACOUSTIC_PHASE_END (R228): A timed phase of an acoustic step ends, and the measurement yields ACST. -/
  | acousticPhaseEnd
  /-- LOG_WRITE_DONE (R231): The round's log page write completes, or fails with LOGERR. -/
  | logWriteDone (ok : Bool)
  /-- WATCHER_FRAME (R234): A 20 ms watcher frame completes, and its features are computed and signatures evaluated. -/
  | watcherFrame (mics : List (List (BitVec 16)))
  /-- ENROL (R237): ENROL arms a phrase signature to store the next voiced run. -/
  | enrol (req : Req) (s : Fin 4)
  /-- WATCHER_CLOCK_HANDOVER (R233): After 2 ms of overlap the watcher hands over its PDM clock source at a sample boundary. -/
  | watcherClockHandover
  /-- NOP (R251): NOP does nothing. -/
  | nop (p : Proc)
  /-- ADD (R251): ADD adds two registers. -/
  | add (p : Proc) (d a b : RegNo)
  /-- ADC (R251): ADC adds with carry. -/
  | adc (p : Proc) (d a b : RegNo)
  /-- SUB (R251): SUB subtracts. -/
  | sub (p : Proc) (d a b : RegNo)
  /-- SBC (R251): SBC subtracts with borrow. -/
  | sbc (p : Proc) (d a b : RegNo)
  /-- AND (R251): AND forms a bitwise AND. -/
  | and (p : Proc) (d a b : RegNo)
  /-- OR (R251): OR forms a bitwise OR. -/
  | or (p : Proc) (d a b : RegNo)
  /-- XOR (R251): XOR forms a bitwise exclusive OR. -/
  | xor (p : Proc) (d a b : RegNo)
  /-- SHL (R252): SHL shifts left by a register count. -/
  | shl (p : Proc) (d a b : RegNo)
  /-- SHR (R252): SHR shifts right logically. -/
  | shr (p : Proc) (d a b : RegNo)
  /-- SAR (R252): SAR shifts right arithmetically. -/
  | sar (p : Proc) (d a b : RegNo)
  /-- ROR (R251): ROR rotates right. -/
  | ror (p : Proc) (d a b : RegNo)
  /-- MIN (R251): MIN takes the signed minimum. -/
  | min (p : Proc) (d a b : RegNo)
  /-- MAX (R251): MAX takes the signed maximum. -/
  | max (p : Proc) (d a b : RegNo)
  /-- ADDS (R252): ADDS adds with saturation. -/
  | adds (p : Proc) (d a b : RegNo)
  /-- SUBS (R252): SUBS subtracts with saturation. -/
  | subs (p : Proc) (d a b : RegNo)
  /-- ADDI (R251): ADDI adds a sign-extended immediate. -/
  | addi (p : Proc) (d a : RegNo) (imm : BitVec 8)
  /-- ANDI (R251): ANDI ANDs with an immediate. -/
  | andi (p : Proc) (d a : RegNo) (imm : BitVec 8)
  /-- ORI (R251): ORI ORs with an immediate. -/
  | ori (p : Proc) (d a : RegNo) (imm : BitVec 8)
  /-- XORI (R251): XORI XORs with an immediate. -/
  | xori (p : Proc) (d a : RegNo) (imm : BitVec 8)
  /-- SHLI (R251): SHLI shifts left by an immediate. -/
  | shli (p : Proc) (d a : RegNo) (n : BitVec 5)
  /-- SHRI (R251): SHRI shifts right logically by an immediate. -/
  | shri (p : Proc) (d a : RegNo) (n : BitVec 5)
  /-- SARI (R251): SARI shifts right arithmetically by an immediate. -/
  | sari (p : Proc) (d a : RegNo) (n : BitVec 5)
  /-- CMPI (R251): CMPI sets flags from a compare with an immediate. -/
  | cmpi (p : Proc) (a : RegNo) (imm : BitVec 8)
  /-- CMP (R251): CMP sets flags from a register compare. -/
  | cmp (p : Proc) (a b : RegNo)
  /-- TST (R251): TST sets flags from an AND. -/
  | tst (p : Proc) (a b : RegNo)
  /-- LDK (R251): LDK loads a sign-extended 12-bit constant. -/
  | ldk (p : Proc) (d : RegNo) (imm : BitVec 12)
  /-- LDH (R251): LDH loads the upper 12 bits. -/
  | ldh (p : Proc) (d : RegNo) (imm : BitVec 12)
  /-- LDI (R251): LDI loads the second instruction word. -/
  | ldi (p : Proc) (d : RegNo) (w : Word)
  /-- NEG (R252): NEG negates. -/
  | neg (p : Proc) (d a : RegNo)
  /-- ABS (R251): ABS takes the absolute value, saturating. -/
  | abs (p : Proc) (d a : RegNo)
  /-- CLZ (R251): CLZ counts leading zeros. -/
  | clz (p : Proc) (d a : RegNo)
  /-- LD (R273): LD loads a word at base plus offset, checking the store buffer and translation. -/
  | ld (p : Proc) (d a : RegNo) (imm : BitVec 8)
  /-- ST (R272): ST stores a word through the store buffer or to a Device page. -/
  | st (p : Proc) (d a : RegNo) (imm : BitVec 8)
  /-- LDX (R251): LDX loads at a register-indexed address. -/
  | ldx (p : Proc) (d a b : RegNo)
  /-- STX (R251): STX stores at a register-indexed address. -/
  | stx (p : Proc) (d a b : RegNo)
  /-- LDP (R253): LDP loads and post-increments the base. -/
  | ldp (p : Proc) (d a : RegNo) (imm : BitVec 8)
  /-- STP (R253): STP stores and post-increments the base. -/
  | stp (p : Proc) (d a : RegNo) (imm : BitVec 8)
  /-- PUSH (R253): PUSH decrements W15 and stores. -/
  | push (p : Proc) (d : RegNo)
  /-- POP (R253): POP loads and increments W15. -/
  | pop (p : Proc) (d : RegNo)
  /-- SWP (R253): SWP atomically exchanges a register and a memory word at the directory. -/
  | swp (p : Proc) (d a b : RegNo)
  /-- CACHE_WRITEBACK (R267): CACHE operation 0 writes a modified line back. -/
  | cacheWriteback (p : Proc) (a : RegNo)
  /-- CACHE_INVALIDATE (R267): CACHE operation 1 invalidates a data line without writeback; supervisor only. -/
  | cacheInvalidate (p : Proc) (a : RegNo)
  /-- CACHE_FLUSH (R267): CACHE operation 2 writes a line back and invalidates it. -/
  | cacheFlush (p : Proc) (a : RegNo)
  /-- CACHE_IINVALIDATE (R267): CACHE operation 3 invalidates the line in the instruction cache. -/
  | cacheIinvalidate (p : Proc) (a : RegNo)
  /-- MUL (R254): MUL sets the accumulator to a signed product. -/
  | mul (p : Proc) (a b : RegNo)
  /-- MULU (R254): MULU sets the accumulator to an unsigned product. -/
  | mulu (p : Proc) (a b : RegNo)
  /-- MULF (R254): MULF sets the accumulator to a doubled fractional product. -/
  | mulf (p : Proc) (a b : RegNo)
  /-- MAC (R254): MAC accumulates a product. -/
  | mac (p : Proc) (a b : RegNo)
  /-- MACF (R254): MACF accumulates a doubled product. -/
  | macf (p : Proc) (a b : RegNo)
  /-- MSU (R254): MSU subtracts a product from the accumulator. -/
  | msu (p : Proc) (a b : RegNo)
  /-- MFH (R255): MFH reads MH with exposed latency. -/
  | mfh (p : Proc) (d : RegNo)
  /-- MFL (R255): MFL reads ML with exposed latency. -/
  | mfl (p : Proc) (d : RegNo)
  /-- MFR (R254): MFR reads the rounded, saturated MH. -/
  | mfr (p : Proc) (d : RegNo)
  /-- MTA (R251): MTA writes MH and ML. -/
  | mta (p : Proc) (a b : RegNo)
  /-- DIV (R256): DIV divides signed, out of order. -/
  | div (p : Proc) (d a b : RegNo)
  /-- DIVU (R256): DIVU divides unsigned, out of order. -/
  | divu (p : Proc) (d a b : RegNo)
  /-- LONG_OP_RETIRE (R276): A DIV or accumulate instruction retires, and a divide-by-zero or overflow becomes pending as an imprecise exception. -/
  | longOpRetire (p : Proc) (div : Bool)
  /-- JMP (R258): JMP jumps after its delay slot. -/
  | jmp (p : Proc) (off : BitVec 16)
  /-- JR (R258): JR jumps to a register after its delay slot. -/
  | jr (p : Proc) (a : RegNo)
  /-- BCC (R257): Bcc branches on a condition after its delay slot. -/
  | bcc (p : Proc) (cond : Fin 14) (off : BitVec 16)
  /-- CALL (R259): CALL pushes the masked registers, mask and return address, and jumps. -/
  | call (p : Proc) (mask : BitVec 15) (target : Word)
  /-- CALLR (R259): CALLR calls the address in a register. -/
  | callr (p : Proc) (mask : BitVec 15) (a : RegNo)
  /-- RET (R260): RET restores the frame and returns. -/
  | ret (p : Proc)
  /-- LOOP (R262): LOOP sets up a zero-overhead loop with an immediate count. -/
  | loop (p : Proc) (n : BitVec 12) (ofs : BitVec 16)
  /-- LOOPR (R262): LOOPR sets up a loop with a register count. -/
  | loopr (p : Proc) (a : RegNo) (ofs : BitVec 16)
  /-- TRAP (R268): TRAP raises a trap exception with its detail. -/
  | trap (p : Proc) (imm : BitVec 8)
  /-- RTE (R291): RTE starts the exception exit, which restores STATUS and PC after its shadow unless a request takes its place. -/
  | rte (p : Proc)
  /-- BARRIER (R266): BARRIER waits until the named kinds are complete. -/
  | barrier (p : Proc) (kind : BitVec 4)
  /-- WAIT (R284): WAIT stops issue until an interrupt request arrives. -/
  | wait (p : Proc)
  /-- BRK (R458): BRK halts for the debugger, or takes a breakpoint exception when no session is open. -/
  | brk (p : Proc)
  /-- MFS (R246): MFS reads a special register. -/
  | mfs (p : Proc) (d : RegNo) (n : BitVec 8)
  /-- MTS (R248): MTS writes a special register, and mode changes take effect after the shadow. -/
  | mts (p : Proc) (a : RegNo) (n : BitVec 8)
  /-- SETM (R248): SETM sets STATUS bits. -/
  | setm (p : Proc) (imm : BitVec 8)
  /-- CLRM (R248): CLRM clears STATUS bits. -/
  | clrm (p : Proc) (imm : BitVec 8)
  /-- PTW (R264): PTW writes the owned pins of a group at once through the private port. -/
  | ptw (p : Proc) (a b : RegNo) (group : BitVec 4)
  /-- PTR (R264): PTR reads the owned pin levels of a group. -/
  | ptr (p : Proc) (d : RegNo) (group : BitVec 4)
  /-- LOAD_RESPONSE (R270): The response of a missing or Device load arrives and clears the scoreboard bit, or raises a bus error. -/
  | loadResponse (p : Proc) (r : BusResp)
  /-- STORE_BUFFER_DRAIN (R272): The oldest store-buffer entry leaves the buffer for the fabric. -/
  | storeBufferDrain (p : Proc)
  /-- STORE_RESPONSE (R275): A retired store's error or poisoned response makes a bus-error exception pending. -/
  | storeResponse (p : Proc) (r : BusResp)
  /-- INTERRUPT_ENTRY (R285): A presented request stops issue, commits pending mode changes, saves state, acknowledges the level and vectors. -/
  | interruptEntry (p : Proc)
  /-- LDL (R295): LDL loads from a long physical address. -/
  | ldl (d a b : RegNo)
  /-- STL (R295): STL stores to a long physical address. -/
  | stl (d a b : RegNo)
  /-- JL (R295): JL jumps and sets CSEG. -/
  | jl (a b : RegNo)
  /-- UCSW (R313): UCSW swaps the microcode banks and jumps if the inactive bank is ready, or clears Z. -/
  | ucsw (a : RegNo)
  /-- WDK (R304): WDK restarts the watchdog. -/
  | wdk
  /-- CUSTOM_INSTRUCTION (R297): Opcode 0x3F runs custom function F from the customer region. -/
  | customInstruction (f : BitVec 8) (d a : BitVec 4)
  /-- MICRO_ALU (R299): An ALU microword operates on micro-registers. -/
  | microAlu (op : BitVec 4) (d a b : BitVec 5) (f : Bool)
  /-- MICRO_ALUI (R299): An ALUI microword operates with an immediate. -/
  | microAlui (op : BitVec 4) (d a : BitVec 5) (imm : BitVec 6)
  /-- MICRO_MEM (R299): A MEM microword reads or writes memory and waits for the response. -/
  | microMem (w lock long : Bool) (d a b : BitVec 5) (r : BusResp)
  /-- MICRO_BR (R299): A BR microword branches on its condition. -/
  | microBr (cond : BitVec 4) (target : BitVec 14)
  /-- MICRO_CALL (R299): A CALL microword pushes the micro-stack and jumps. -/
  | microCall (target : BitVec 14)
  /-- MICRO_RET (R299): A RET microword returns from the micro-stack. -/
  | microRet
  /-- MICRO_END (R299): An END microword marks an instruction boundary: checks interrupts, fetches and dispatches. -/
  | microEnd
  /-- MICRO_FETCH2 (R299): A FETCH2 microword reads the second instruction word into IR2. -/
  | microFetch2
  /-- MICRO_RAISE (R299): A RAISE microword takes an exception. -/
  | microRaise (cause : BitVec 8)
  /-- MICRO_WAITI (R299): A WAITI microword waits for an interrupt request. -/
  | microWaiti
  /-- MICRO_SPEC (R299): A SPEC microword moves a special register. -/
  | microSpec (w : Bool) (n : BitVec 8) (r : BitVec 5)
  /-- MICRO_UCSWAP (R299): A UCSWAP microword swaps microcode banks. -/
  | microUcswap (r : BitVec 5)
  /-- MICRO_WDKICK (R299): A WDKICK microword restarts the watchdog. -/
  | microWdkick
  /-- MICRO_LDSEG (R299): An LDSEG microword loads a segment register. -/
  | microLdseg (r : BitVec 5)
  /-- WATCHDOG_EXPIRY (R304): The watchdog or machine-check timeout expires and resets the Steward. -/
  | watchdogExpiry
  /-- BASE_MICROCODE_LOADED (R306): The loader has copied the base microcode into bank 0, and the Steward starts the boot ROM. -/
  | baseMicrocodeLoaded
  /-- SCRUBBER_READ (R302): The scrubber checks a control-store word, causing a machine check or INACTERR on a parity error. -/
  | scrubberRead (a : BitVec 14) (upset : Bool)
  /-- UC_COPY (R312): COPY starts copying the active base microcode into the inactive bank and clears READY. -/
  | ucCopy (req : Req)
  /-- UC_COPY_DONE (R312): The COPY finishes, and COPYING clears. -/
  | ucCopyDone
  /-- UC_SEAL (R312): SEAL starts a parity scan of the inactive bank, or is dropped during COPYING. -/
  | ucSeal (req : Req)
  /-- UC_SCAN_DONE (R312): The seal scan finishes, setting READY or INACTERR. -/
  | ucScanDone
  /-- UCDATA_WRITE (R312): A UCDATA write stores a microword at ADDR, advances ADDR and clears READY. -/
  | ucdataWrite (req : Req) (v : Word)
  /-- UCDATA_READ (R315): A UCDATA read returns the inactive-bank word and advances ADDR. -/
  | ucdataRead (req : Req)
  /-- WDOG_WRITE (R304): A write to STW_WDOG sets TIME and restarts the watchdog. -/
  | wdogWrite (req : Req) (v : Word)
  /-- MAILBOX_TAIL_WRITE (R316): A producer's TAIL write publishes a frame, or is dropped and counted if the ring would overfill. -/
  | mailboxTailWrite (req : Req) (m : Fin 16) (v : Word)
  /-- MAILBOX_HEAD_WRITE (R316): A consumer's HEAD write frees a slot, or is dropped and counted if it would pass TAIL. -/
  | mailboxHeadWrite (req : Req) (m : Fin 16) (v : Word)
  /-- AGENT_REPLY (R318): The Steward takes an agent's outbound reply and forwards it, or drops and counts an unexpected frame. -/
  | agentReply (p : Fin 8)
  /-- AGENT_TIMEOUT (R324): An agent that has not replied by T − 5 ms gets a TIMEOUT reply sent in its place. -/
  | agentTimeout (p : Fin 8)
  /-- RELAY_TIMEOUT (R324): A relaying manager with no reply by T + 40 ms replies TIMEOUT. -/
  | relayTimeout (seq : Word)
  /-- REPORT_RESEND (R326): An unacknowledged report is resent every 250 ms to the present holder. -/
  | reportResend (p : Fin 8)
  /-- HELLO (R328): HELLO returns versions, identity, role, power state and address. -/
  | hello (t : Transport) (f : List Word)
  /-- ACK (R326): ACK acknowledges a report. -/
  | ack (t : Transport) (f : List Word)
  /-- DIR_READ (R328): DIR_READ returns system directory entries, at the manager only. -/
  | dirRead (t : Transport) (f : List Word)
  /-- SCENE_SET (R329): SCENE_SET makes beam-window writes, optionally armed to a target frame. -/
  | sceneSet (t : Transport) (f : List Word)
  /-- MEM_WRITE (R330): MEM_WRITE writes words to field memory within the plot's writable pages. -/
  | memWrite (t : Transport) (f : List Word)
  /-- MEM_READ (R330): MEM_READ returns words from readable pages. -/
  | memRead (t : Transport) (f : List Word)
  /-- AGENT (R327): AGENT passes an agent-defined request with its own timeout. -/
  | agent (t : Transport) (f : List Word)
  /-- SHEAF (R331): SHEAF writes a list and starts Sheaf slot PLOT, replying when loading ends. -/
  | sheaf (t : Transport) (f : List Word)
  /-- SHEAF_CANCEL (R331): SHEAF_CANCEL cancels the plot's Sheaf. -/
  | sheafCancel (t : Transport) (f : List Word)
  /-- STAGE_DATA (R332): STAGE_DATA writes staging pages to the Granary. -/
  | stageData (t : Transport) (f : List Word)
  /-- STAGE_COMMIT (R332): STAGE_COMMIT writes a staged-message descriptor page. -/
  | stageCommit (t : Transport) (f : List Word)
  /-- STAGE_START (R331): STAGE_START writes SUP_STGGO to start or stop a staged message. -/
  | stageStart (t : Transport) (f : List Word)
  /-- STAGE_LIST (R331): STAGE_LIST returns word 0 of each descriptor. -/
  | stageList (t : Transport) (f : List Word)
  /-- NR_CTRL (R332): NR_CTRL starts or aborts a night round. -/
  | nrCtrl (t : Transport) (f : List Word)
  /-- NR_LOG (R332): NR_LOG returns a round's log page. -/
  | nrLog (t : Transport) (f : List Word)
  /-- OVR_CLEAR (R332): OVR_CLEAR clears the FAULT of the masked override inputs. -/
  | ovrClear (t : Transport) (f : List Word)
  /-- PLOT_ASSIGN (R333): PLOT_ASSIGN gives resources to a plot, taking them only from a FENCED plot or plot 0. -/
  | plotAssign (t : Transport) (f : List Word)
  /-- PLOT_CTRL (R333): PLOT_CTRL fences, releases, resets or restarts a plot and replies on completion. -/
  | plotCtrl (t : Transport) (f : List Word)
  /-- PLOT_DELEGATE (R18): PLOT_DELEGATE hands control of a plot to a new holder at its reply. -/
  | plotDelegate (t : Transport) (f : List Word)
  /-- PLOT_QOS (R333): PLOT_QOS sets a plot's fabric weight and beam reservations. -/
  | plotQos (t : Transport) (f : List Word)
  /-- CERT_READ (R328): CERT_READ returns the device or operator certificate. -/
  | certRead (t : Transport) (f : List Word)
  /-- CERT_ENROL (R351): CERT_ENROL loads operator certificates, and with FINAL checks and installs them. -/
  | certEnrol (t : Transport) (f : List Word)
  /-- FW_WRITE (R348): FW_WRITE writes pages of the inactive image slot. -/
  | fwWrite (t : Transport) (f : List Word)
  /-- FW_ACTIVATE (R334): FW_ACTIVATE verifies the inactive image and selects it, optionally swapping the customer region. -/
  | fwActivate (t : Transport) (f : List Word)
  /-- LINK_STATUS (R328): LINK_STATUS returns lane and reference state. -/
  | linkStatus (t : Transport) (f : List Word)
  /-- LINK_ROUTE (R376): LINK_ROUTE writes routing entries and commits them together. -/
  | linkRoute (t : Transport) (f : List Word)
  /-- PLOT_FENCE (R342): A fence command stops the plot's cores, disables its layers, flushes its units and fences the fabric. -/
  | plotFence (req : Req) (p : Fin 8)
  /-- PLOT_FENCED (R342): The fabric fence and Granary writes are complete, and STATE becomes FENCED. -/
  | plotFenced (p : Fin 8)
  /-- PLOT_RELEASE (R344): A release lifts the fence, and the plot's cores resume. -/
  | plotRelease (req : Req) (p : Fin 8)
  /-- PLOT_RESET (R343): A reset returns the plot's cores, registers and mailboxes to reset values. -/
  | plotReset (req : Req) (p : Fin 8)
  /-- PLOT_RESET_DONE (R343): The plot reset finishes, and STATE returns to FENCED. -/
  | plotResetDone (p : Fin 8)
  /-- PLOT_RESTART (R344): A restart lifts the fence and starts the cores at PLT_BOOT_p. -/
  | plotRestart (req : Req) (p : Fin 8)
  /-- PAGE_TABLE_WRITE (R337): A Steward page-table write is checked against page ownership and invalidates cached translations. -/
  | pageTableWrite (req : Req) (p : Fin 8) (page : BitVec 8) (v : Word)
  /-- BRES_WRITE (R340): A PLT_BRES write is dropped if the reservations would sum above 16. -/
  | bresWrite (req : Req) (p : Fin 8) (v : Word)
  /-- GRN_BUF_WRITE (R347): A write to GRN_BUF fills the page buffer, or is dropped with cause 2 while the port's write is pending. -/
  | grnBufWrite (req : Req) (i : BitVec 8) (v : Word)
  /-- GRN_GO (R347): GO queues a page write, or drops or refuses it with cause 1 or 3. -/
  | grnGo (req : Req) (v : Word)
  /-- GRN_PROGRAM_DONE (R347): Programming a page ends, setting DONE or ERR with cause 4. -/
  | grnProgramDone (ok : Bool)
  /-- SEC_SEAL (R353): SEAL encrypts a buffer under the plot key with AES-256-GCM. -/
  | secSeal (req : Req) (p : Fin 8)
  /-- SEC_OPEN (R353): OPEN decrypts and checks a sealed buffer. -/
  | secOpen (req : Req) (p : Fin 8)
  /-- SEC_SIGN (R353): SIGN signs a digest with the device key, in slot 0 only. -/
  | secSign (req : Req) (p : Fin 8)
  /-- SEC_OP_DONE (R353): A security operation completes with its result, clearing BUSY and setting OPDONE. -/
  | secOpDone (p : Fin 8)
  /-- PKGEN_INC (R352): INC raises the plot key generation, retiring old blobs. -/
  | pkgenInc (req : Req) (p : Fin 8)
  /-- OPFW_SET (R357): Setting OPFW allows operator-signed images for good. -/
  | opfwSet (req : Req)
  /-- LANE_ENABLE (R365): Writing EN 1 starts training with CAP frames at 1.25 GBd. -/
  | laneEnable (req : Req) (n : Fin 8)
  /-- LANE_DISABLE (R365): Writing EN 0 takes the lane DOWN. -/
  | laneDisable (req : Req) (n : Fin 8)
  /-- CAP_SEND (R363): Every 100 µs a training lane sends a CAP frame. -/
  | capSend (n : Fin 8)
  /-- CAP_FRAME (R364): A received CAP block is used to compute the setting, or its agreement switches the lane's rate. -/
  | capFrame (n : Fin 8) (f : LinkFrame)
  /-- RATE_SWITCH_DONE (R365): The move to the agreed rate ends, and the lane seeks block lock. -/
  | rateSwitchDone (n : Fin 8)
  /-- BLOCK_LOCK (R365): Block lock at the agreed rate brings a pixel lane UP or starts hop authentication. -/
  | blockLock (n : Fin 8)
  /-- BLOCK_LOCK_TIMEOUT (R365): No lock within 1 ms removes that rate and returns to training, or sets NEGFAIL. -/
  | blockLockTimeout (n : Fin 8)
  /-- BLOCK_LOCK_LOSS (R362): Sync-header errors lose block lock and take the lane DOWN. -/
  | blockLockLoss (n : Fin 8)
  /-- LOSS_OF_SIGNAL (R362): The signal detector reports loss, and the lane goes DOWN, cutting the ring if it is a ring lane. -/
  | lossOfSignal (n : Fin 8)
  /-- CAP_WAIT_TIMEOUT (R366): With no CAP within 10 ms, an ETHOK lane starts an Ethernet search. -/
  | capWaitTimeout (n : Fin 8)
  /-- ETHERNET_SEARCH_END (R366): The 10 ms Ethernet search ends in Ethernet mode UP or a return to training. -/
  | ethernetSearchEnd (n : Fin 8) (ok : Bool)
  /-- HOP_AUTH_DONE (R372): Hop authentication ends with keys derived and the hop authenticated, or fails with AUTHFAIL. -/
  | hopAuthDone (n : Fin 8)
  /-- HOP_REKEY (R372): After 24 h, or near the counter limit, a new key exchange raises KEYID. -/
  | hopRekey (n : Fin 8)
  /-- BEAT_SEND (R373): Every BEAT µs a ring member sends BEAT on each ring lane. -/
  | beatSend
  /-- BEAT_FRAME (R370): A received BEAT refreshes lane liveness and the manager epoch followed. -/
  | beatFrame (n : Fin 8) (f : LinkFrame)
  /-- BEAT_MISS (R373): MISS missed beat periods declare a ring lane lost. -/
  | beatMiss (n : Fin 8)
  /-- TIME_SEND (R382): Every 1 ms a Uadrinath lane sends a TIME frame. -/
  | timeSend (n : Fin 8)
  /-- TIME_FRAME (R382): A received TIME frame updates the one-way delay and the upstream time. -/
  | timeFrame (n : Fin 8) (f : LinkFrame)
  /-- STREAM_FRAME (R212): A received STREAM copy delivers new indices, drops duplicates, and is forwarded or bridged. -/
  | streamFrame (n : Fin 8) (f : LinkFrame)
  /-- CTRL_FRAME (R370): A received CTRL frame carries a Tyskaolo frame to its addressee, or is forwarded. -/
  | ctrlFrame (n : Fin 8) (f : LinkFrame)
  /-- JOIN_FRAME (R379): A received JOIN frame carries authentication or a join request to the manager. -/
  | joinFrame (n : Fin 8) (f : LinkFrame)
  /-- JOIN_ACCEPT (R379): JOIN-ACCEPT makes the joining device write its address and role and set JOINDONE. -/
  | joinAccept (n : Fin 8) (f : LinkFrame)
  /-- JOIN_REFUSE (R379): JOIN-REFUSE sets JOINFAIL. -/
  | joinRefuse (n : Fin 8) (f : LinkFrame)
  /-- JOIN_RETRY (R379): A failed join is retried every 1 s. -/
  | joinRetry
  /-- RING_FRAME (R377): A RING cut or heal frame updates CUT and time direction; the head reports it. -/
  | ringFrame (n : Fin 8) (f : LinkFrame)
  /-- RELOCK_FRAME (R371): During acquire or re-lock, a RELOCK frame is sent every 10 µs. -/
  | relockFrame (n : Fin 8)
  /-- CAPQ (R367): Every 10 ms an enabled control-channel port sends CAPQ until CAP is received. -/
  | capq (t : Fin 4)
  /-- AMP_CAP (R367): The amplifier's CAP message updates LNK_TDMCAP and SET is sent. -/
  | ampCap (t : Fin 4) (bytes : List (BitVec 8))
  /-- AMP_ACK (R367): The amplifier's ACK confirms SET. -/
  | ampAck (t : Fin 4)
  /-- AMP_ABSENT (R367): No valid control frame for 100 ms shows PRESENT 0. -/
  | ampAbsent (t : Fin 4)
  /-- MANAGER_SILENT (R378): The manager that hears no standby BEAT for M/2 ms stops answering on address 0. -/
  | managerSilent
  /-- MANAGER_LOST (R378): The standby that hears no manager BEAT for M ms takes over address 0 with a new epoch. -/
  | managerLost
  /-- REFERENCE_QUALIFIED (R380): A source valid for QUAL s qualifies and may become the slew target. -/
  | referenceQualified (src : Fin 4)
  /-- REFERENCE_INVALID (R380): A source becomes invalid, is disqualified at once and the target changes. -/
  | referenceInvalid (src : Fin 4)
  /-- PTP_MESSAGE (R380): A PTP message on the PTP lane updates the slave servo. -/
  | ptpMessage (offset : Int)
  /-- SLEW_DONE (R381): The timebase error falls below 4 ns, so SLEW clears and SLEWDONE is set. -/
  | slewDone
  /-- RTCMT_GO (R376): GO latches every staged routing entry at the next sample boundary. -/
  | rtcmtGo (req : Req)
  /-- IRQ_LINE_CHANGE (R387): A source line that has held its new level for FILT ticks changes its filtered line and PEND. -/
  | irqLineChange (n : BitVec 8) (p : Fin 8)
  /-- IRQ_SRC_WRITE (R389): A write to IRQ_SRC_n is checked for target ownership and dropped whole if it fails. -/
  | irqSrcWrite (req : Req) (n : BitVec 8) (v : Word)
  /-- IRQ_CMP (R393): CMP completes a source, re-sampling a level line, and starts its group's hold-off. -/
  | irqCmp (req : Req) (t : Proc) (src : BitVec 8)
  /-- IRQ_END (R393): END clears the highest ACTIVE bit and lowers the running level. -/
  | irqEnd (req : Req) (t : Proc)
  /-- HOLDOFF_END (R394): A group's hold-off time expires, and its sources are presented again. -/
  | holdoffEnd (g : Fin 16)
  /-- BELL_RING (R401): Writing RING sets a core's doorbell line. -/
  | bellRing (req : Req) (c : Fin 16)
  /-- BELL_CLR (R401): Writing CLR clears a core's doorbell line. -/
  | bellClr (req : Req) (c : Fin 16)
  /-- TIN_PUB (R400): A TIN_PUB write publishes on a tine if the plot may, or is dropped with cause 2. -/
  | tinPub (req : Req) (p : Fin 8) (tine : Tine)
  /-- TINE_ENTRY (R398): A tine's entry stage accepts an event, merging any that reach it together. -/
  | tineEntry (tine : Tine)
  /-- TINE_DELIVERY (R396): An event reaches the subscribed consumers and sets TIN_SEEN bits. -/
  | tineDelivery (tine : Tine)
  /-- TB_CAPTURE (R404): GO copies the 64-bit timebase into the plot's capture set. -/
  | tbCapture (req : Req) (p : Fin 8)
  /-- TIMEBASE_WRAP (R403): The timebase wraps to 0 and sets TBWRAP. -/
  | timebaseWrap
  /-- TIMER_START (R406): START, an STINE event or a group start loads PHASE at the next count event and runs the timer. -/
  | timerStart (req : Req) (t : Fin 16)
  /-- GSTART (R407): A group start starts the masked timers together, or is dropped whole with cause 2. -/
  | gstart (req : Req) (p : Fin 8) (mask : BitVec 16)
  /-- TIMER_STOP (R406): STOP clears RUN. -/
  | timerStop (req : Req) (t : Fin 16)
  /-- TIMER_CAP (R409): CAP copies the counter at the next count event. -/
  | timerCap (req : Req) (t : Fin 16)
  /-- TIMER_LOAD (R409): LOAD sets the counter at the next count event. -/
  | timerLoad (req : Req) (t : Fin 16)
  /-- TIMER_ADVANCE (R405): Every DIV + 1 count events the counter advances, wrapping or stopping by MODE. -/
  | timerAdvance (t : Fin 16)
  /-- DRILL_GO (R416): GO latches the staged block, sets PEND, or is dropped. -/
  | drillGo (req : Req) (c : Fin 32)
  /-- DRILL_BURST (R412): A channel whose pacers grant runs one atomic burst. -/
  | drillBurst (fifo : List (Fin 17)) (rd wr : BusResp)
  /-- DRILL_BLOCK_DONE (R416): A block's last write is acknowledged; BLKCNT counts, DONE is set and the staged block latches. -/
  | drillBlockDone (c : Fin 32)
  /-- DRILL_DISABLE (R419): Writing EN 0 stops the channel at once and discards its state. -/
  | drillDisable (req : Req) (c : Fin 32)
  /-- SPI_STATUS (R428): STATUS returns OUTRDY, INRDY and ERR, and clears ERR. -/
  | spiStatus
  /-- SPI_WRITE (R428): WRITE delivers one Tyskaolo frame from the local host. -/
  | spiWrite (bytes : List (BitVec 8))
  /-- SPI_READ (R428): READ returns the next outbound frame. -/
  | spiRead
  /-- SPI_CS_TIMEOUT (R428): XHCS held low for over 100 ms drops the transaction with ERR. -/
  | spiCsTimeout
  /-- GPO_OUTSET (R430): OUTSET atomically sets owned output bits. -/
  | gpoOutset (req : Req) (k : Fin 2) (v : Word)
  /-- GPO_OUTCLR (R430): OUTCLR atomically clears owned output bits. -/
  | gpoOutclr (req : Req) (k : Fin 2) (v : Word)
  /-- PIN_FILTER (R431): A pin change that has held for its filter time passes, setting GPO_EVT and possibly tamper or wake. -/
  | pinFilter (n : Fin 48) (level : Bool)
  /-- STATE_FULL (R446): TARGET Full switches the beams and Harrow back on. -/
  | stateFull (req : Req)
  /-- STATE_FALLOW (R446): TARGET Fallow is refused or starts the Fallow sequence. -/
  | stateFallow (req : Req) (keep : BitVec 4)
  /-- STATE_DORMANT (R446): TARGET Dormant is refused, aborted by a wake, or switches off all but PD0. -/
  | stateDormant (req : Req)
  /-- POWER_SEQUENCE_DONE (R446): A power-state sequence finishes and BUSY clears. -/
  | powerSequenceDone
  /-- DOMCTRL_WRITE (R445): A PWR_DOMCTRL write switches domains under their rules, or is dropped with cause 2. -/
  | domctrlWrite (req : Req) (v : Word)
  /-- DOMAIN_ON_DONE (R445): A domain coming on leaves reset and reads 1 in DOMSTAT. -/
  | domainOnDone (d : Fin 20)
  /-- RAIL_BROWNOUT (R440): A rail below its threshold for 2 µs causes a brownout reset. -/
  | railBrownout
  /-- POWER_ON_RESET (R447): The VAON monitor resets everything, and start-up runs from step 1. -/
  | powerOnReset
  /-- EXTERNAL_RESET (R452): XRST_DW low for over 100 µs causes an external reset. -/
  | externalReset
  /-- SYSTEM_RESET (R447): PWR_RSTCMD.SYS causes a system command reset. -/
  | systemReset (req : Req)
  /-- CRYSTAL_STABLE (R449): PD0 moves to the stable crystal and sets XOK. -/
  | crystalStable
  /-- START_UP (R449): With every rail in range and XRST_DW high, the start-up domains switch on and code 20 is sent. -/
  | startUp
  /-- TEMP_READ (R444): Every 100 µs the junction sensor is read, which may trip or end a thermal reset. -/
  | tempRead (temp : BitVec 10)
  /-- WAKE_SOURCE (R448): An enabled wake source fires, setting WAKE, aborting Dormant entry or starting a Dormant wake. -/
  | wakeSource (src : WakeSrc)
  /-- WAKE_TIMER_TICK (R448): Each second the wake timer counts down, and it fires at 0. -/
  | wakeTimerTick
  /-- WAKE_PULSE (R452): A wake pulse powers PD1, opens a session and sends the presence answer. -/
  | wakePulse
  /-- CONNECT_UNDER_RESET (R457): A high pulse during reset sets CUR, so the Steward is halted before its first instruction. -/
  | connectUnderReset
  /-- DBG_READ (R454): READ reads ADDR. -/
  | dbgRead (a : Addr) (wait : Bool)
  /-- DBG_WRITE (R454): WRITE writes DATA to ADDR. -/
  | dbgWrite (a : Addr) (v : Word) (wait : Bool)
  /-- DBG_READ_PLUS (R454): READ+ reads the next address. -/
  | dbgReadPlus (wait : Bool)
  /-- DBG_WRITE_PLUS (R454): WRITE+ writes the next address. -/
  | dbgWritePlus (v : Word) (wait : Bool)
  /-- DBG_RESULT (R455): RESULT returns the outcome of an access that answered WAIT. -/
  | dbgResult
  /-- DBG_STATUS (R454): STATUS returns DBG_CTRL and HALTED bits. -/
  | dbgStatus
  /-- DBG_CLOSE (R451): CLOSE ends the session, releasing halts and freezes. -/
  | dbgClose
  /-- DEBUG_ACCESS_DONE (R455): A debug fabric access that answered WAIT completes, and its result is held for RESULT. -/
  | debugAccessDone
  /-- SESSION_TIMEOUT (R451): 1 s without a valid frame closes the session. -/
  | sessionTimeout
  /-- DBG_HALT (R458): A DBG_HALT write requests a processor halt. -/
  | dbgHalt (req : Req) (mask : BitVec 17)
  /-- HALT_TAKEN (R458): The processor stops at the next allowed boundary and HALTED is set. -/
  | haltTaken (p : Proc)
  /-- DBG_RESUME (R460): RESUME continues a halted processor. -/
  | dbgResume (req : Req) (mask : BitVec 17)
  /-- DBG_STEP (R460): STEP executes one instruction and halts again. -/
  | dbgStep (req : Req) (p : Proc)
  /-- RDATA_ACCESS (R459): An RDATA access reads or writes the selected state of a halted processor. -/
  | rdataAccess (req : Req) (p : Proc) (w : Option Word)
  /-- DEBUG_RESET (R447): DBG_SYSRST.GO causes a debug reset. -/
  | debugReset (req : Req)
  /-- GLEAN_SNAPSHOT (R466): Every INTERVAL µs Glean captures the counters and starts writing a record, or skips. -/
  | gleanSnapshot
  /-- GLEAN_RECORD_DONE (R466): A record's last word is written, setting SNAP and possibly WRAP. -/
  | gleanRecordDone (r : BusResp)
  /-- GLEAN_CAPTURE (R465): CAPCMD copies a unit's four counters at one instant. -/
  | gleanCapture (req : Req) (u : BitVec 5)
  /-- SAMPLE_READ (R467): A read of GLN_SMPc_DATA returns the next word of the oldest sample record. -/
  | sampleRead (req : Req) (c : Fin 16)
  /-- RESERVED_INSTRUCTION (R251): A core or the Steward executes a reserved opcode, a non-zero unnamed field, a reserved management operation or a misplaced jump, and takes a reserved-instruction exception. -/
  | reservedInstruction (p : Proc) (op : BitVec 8)
  /-- RESERVED_MICROWORD (R299): The Steward sequencer executes a microword of class 0x8 to 0xF, or ALU OP 15, and takes a machine check with cause 3. -/
  | reservedMicroword (w : Word)
  /-- POWER_ON_RESET_RELEASE (R449): 1 ms after VAON returns to range the power-on reset releases and PD0 runs on its internal oscillator. -/
  | powerOnResetRelease
  /-- IGNORED_PULSE (R452): A low pulse on XRST_DW of 10 to 20 µs, or of 80 to 100 µs, is ignored and counted with cause 4. -/
  | ignoredPulse (halfMicros : Nat)
  /-- UNKNOWN_FRAME_TYPE (R369): A lane receives a frame with TYPE 9 to 15, which is dropped and counted with cause 4. -/
  | unknownFrameType (n : Fin 8) (ty : BitVec 4)
  deriving DecidableEq, Repr

end Sys2Proof
end

