-- ==== Sys2Proof/Config.lean ====
section
/-! DEFINITION. What one implementation fixes and what the spec leaves open, as constants without a body: nothing proves
a value of them. The log entry of each stands in its docstring. -/
namespace Sys2Proof.Config

/-- Free value number `n`, a fresh one for each use; the counter `State.freeCtr` says which is next (log entry 5). -/
opaque freeValue : Nat → Word

/-- The words of the boot ROM at 0xF00_0000 (R10); the spec does not give them (log entry 6). -/
opaque bootRom : Nat → Word

/-- By how much a channel converted from Y'CbCr differs from the exact value rounded to nearest: R117 allows −1, 0 and 1.
The arguments are the matrix, the range, Y, Cb, Cr and the channel (log entry 7). -/
opaque yccDev : Nat → Nat → Nat → Nat → Nat → Nat → Int

/-- The private scalar of the device key (R349): no requester can read it (log entry 13). -/
opaque deviceScalar : Nat

/-- The public key of the Exohild firmware authority in the boot ROM, X then Y (R355; log entry 13). -/
opaque exohildKey : List (BitVec 8)

/-- The private scalar of the Exohild device certification authority, which signs device certificates (R350; log entry 145). -/
opaque authorityScalar : Nat

/-- The contents of the fields of the device certificate that R350 does not give, byte `i` of field `k`: 0 the certificate's serial number,
1 the issuer, 2 the validity, 3 the per-die serial, 4 the extensions (log entry 145). -/
opaque certField : Nat → Nat → BitVec 8

/-- The length of such a field (log entry 145). -/
opaque certFieldLen : Nat → Fin 513

/-- The secret number of the `n`th signature (R353 leaves it to the device; log entry 13). -/
opaque signNonce : Nat → Nat

/-- Whether the phase accumulator of a tone at FREQ and sample rate steps by the exact increment rounded up rather than down,
where it is not a whole number (R193 gives the frequency alone; log entry 18). -/
opaque toneIncUp : Nat → Nat → Bool

/-- The phase, in 1/2^32 of a period, at which a pilot or test tone of the night round begins to rise (R226 and R228 give its frequency and
level alone; log entry 139). -/
opaque pilotPhase : BitVec 32

/-- HOPS of the frames that the device sends on its worker ring (0) or its trunk ring (1): the number of ring members less 1
(R374); the spec gives no register that holds it (log entry 20). -/
opaque ringHops : Nat → BitVec 8

/-- What a JOIN frame says (R372, R379): the first message of an authentication, of a hop or end to end, with certificate, operator
certificate, ephemeral public key and random value; the signature; a request with DEVID, certificate serial and ring position; its
answer with address, role, standby address and epoch; a refusal. -/
inductive JoinMsg where
  | hello (e2e : Bool) (cert opCert pub rnd : List (BitVec 8))
  | proof (e2e : Bool) (sig : List (BitVec 8))
  | ask (devid cser : Word) (pos : Nat)
  | accept (addr role stby epoch : Nat)
  | refuse
  deriving DecidableEq, Repr

/-- The payload of a JOIN frame that says this (R372 and R379 give no layout; log entry 21). -/
opaque joinText : JoinMsg → List Word

/-- What a payload says (log entry 21). -/
opaque joinRead : List Word → Option JoinMsg

/-- The secret scalar and the random value of the `n`th exchange are drawn from this number (R372 leaves them to the device; log
entry 146). -/
opaque ephemeral : Nat → Nat

/-- Of the two messages that both sides sign, does the first stand first? R372 does not say in which order the digest takes them (log
entry 146). -/
opaque authFirst : List (BitVec 8) → List (BitVec 8) → Bool

/-- What HKDF takes as information for the key of the direction whose sender has this ephemeral public key (log entry 146). -/
opaque hkdfInfo : List (BitVec 8) → List (BitVec 8)

/-- The copy of the manager's directory that a standby holds (01 on the standby manager; nothing says how it is kept): address, role,
segment, position, DEVID and certificate serial of each device (log entry 147). -/
opaque directoryCopy : Nat → List (Nat × Nat × Nat × Nat × Word × Word)

/-- Role and segment that the manager gives a device of this DEVID and serial that the directory does not hold (R379 names no
source of them; log entry 21). -/
opaque joinPlace : Word → Nat → Nat × Nat

/-- What COREID reads at the Steward, which R246 and R293 leave open (log entry 23). -/
opaque stewardCoreId : Word

/-- The base microcode of the boot ROM by offset (R306); the spec does not give its words (log entry 24). -/
opaque baseMicrocode : Nat → Word

/-- The stubs that fill the customer region, by offset (R297, R306; log entry 24). -/
opaque stubMicrocode : Nat → Word

/-- What a word of bank 1 that nothing has written holds, by store address (log entry 24). -/
opaque coldMicrocode : Nat → Word

/-- The further offsets of microwords that the sequencer reads for the base microcode that begins at an offset: the spec does not
list the base microcode (log entry 124). -/
opaque microPath : Nat → List Nat

/-- Micro-steps that the service entry at an offset takes (R309, R310; log entry 33). -/
opaque serviceSteps : Nat → Nat

end Sys2Proof.Config
end

