-- ==== Sys2Proof/Machine/RegMap.lean ====
section
/-! DEFINITION. The register map of the spec: the address of every register (one definition per register, R10 and the
map rule of each chapter: R60, R81, R98, R109, R140, R159, R175, R210, R240, R241, R315, R316, R358, R359, R360, R385,
R401, R402, R421, R422, R439, R450, R470, R471), the place of every field, and per window the table of fields with
access code (R5), class (R6) and reset value. Bits that no field names are reserved (R7). -/
namespace Sys2Proof

/-- The access codes of R5; `sat` is the SAT flag of a counter, a W1C bit that clears its COUNT with it. -/
inductive Acc where
  | rw | ro | wo | w1c | w1s | rws | sat
  deriving DecidableEq, Repr

/-- The place of a field: bits `hi:lo` (R4). -/
structure Fld where
  hi : Nat
  lo : Nat
  deriving DecidableEq, Repr

/-- One field of a register map row: place, access code (R5), reset value, and whether its class is Locked (R6). -/
structure FieldSpec where
  hi : Nat
  lo : Nat
  acc : Acc
  reset : Nat
  locked : Bool
  deriving DecidableEq, Repr

/-- One row of a window's map: the first word offset, the counts and strides of its instances, and its fields. -/
structure RegSpec where
  ofs : Nat
  dims : List (Nat × Nat)
  fields : List FieldSpec
  deriving DecidableEq, Repr

/-! ## Addresses -/
namespace Reg


/-! STW window -/
def STW_UCVER : Nat := 0x8000000
def STW_UCVERI : Nat := 0x8000001
def STW_UCSTAT : Nat := 0x8000002
def STW_UCCTRL : Nat := 0x8000003
def STW_UCADDR : Nat := 0x8000004
def STW_UCDATA : Nat := 0x8000005
def STW_WDOG : Nat := 0x8000006
def STW_ERRCNT : Nat := 0x8000007
def STW_CUSTERR : Nat := 0x8000008
def STW_MCHK : Nat := 0x8000009
def STW_MCHKPC : Nat := 0x800000A
def STW_MCHKCNT : Nat := 0x800000B
def STW_MB_CFG (i : Nat) : Nat := 0x8000100 + i * 0x4
def STW_MB_HEAD (i : Nat) : Nat := 0x8000101 + i * 0x4
def STW_MB_TAIL (i : Nat) : Nat := 0x8000102 + i * 0x4
def STW_MB_STAT (i : Nat) : Nat := 0x8000103 + i * 0x4

/-! PLT window -/
def PLT_PCMD : Nat := 0x8010000
def PLT_ERRCNT : Nat := 0x8010001
def PLT_STATE (i : Nat) : Nat := 0x8010008 + i
def PLT_BOOT (i : Nat) : Nat := 0x8010010 + i
def PLT_VIOL (i : Nat) : Nat := 0x8010018 + i
def PLT_BRES (i : Nat) : Nat := 0x8010020 + i
def PLT_PGOWN (i : Nat) : Nat := 0x8010800 + i
def PLT_OWN (i j : Nat) : Nat := 0x8011000 + i * 0x80 + j
def PLT_PT (i j : Nat) : Nat := 0x8012000 + i * 0x100 + j

/-! IRQ window -/
def IRQ_SRC (i : Nat) : Nat := 0x8020000 + i
def IRQ_MBX (i : Nat) : Nat := 0x8020100 + i
def IRQ_GRP (i : Nat) : Nat := 0x8020110 + i
def IRQ_ERRCNT : Nat := 0x8020120
def IRQ_LASTERR : Nat := 0x8020121
def IRQ_BELL (i : Nat) : Nat := 0x8020130 + i
def IRQ_THR (i : Nat) : Nat := 0x8020200 + i * 0x20
def IRQ_PRES (i : Nat) : Nat := 0x8020201 + i * 0x20
def IRQ_RUN (i : Nat) : Nat := 0x8020202 + i * 0x20
def IRQ_DONE (i : Nat) : Nat := 0x8020203 + i * 0x20
def IRQ_PEND (i j : Nat) : Nat := 0x8020204 + i * 0x20 + j

/-! TIN window -/
def TIN_ERRCNT : Nat := 0x8030000
def TIN_LASTERR : Nat := 0x8030001
def TIN_MRG (i : Nat) : Nat := 0x8030002 + i
def TIN_GU (i : Nat) : Nat := 0x8030010 + i
def TIN_ACL (i : Nat) : Nat := 0x8030040 + i
def TIN_PUB (i : Nat) : Nat := 0x8030080 + i
def TIN_SEEN (i j : Nat) : Nat := 0x8030100 + i * 0x4 + j

/-! TMR window -/
def TMR_EVT : Nat := 0x8040000
def TMR_ERRCNT : Nat := 0x8040001
def TMR_LASTERR : Nat := 0x8040002
def TMR_GSTART (i : Nat) : Nat := 0x8040008 + i
def TMR_TBCMD (i : Nat) : Nat := 0x8040010 + i * 0x4
def TMR_TB2 (i : Nat) : Nat := 0x8040011 + i * 0x4
def TMR_TB1 (i : Nat) : Nat := 0x8040012 + i * 0x4
def TMR_TB0 (i : Nat) : Nat := 0x8040013 + i * 0x4
def TMR_T_CTRL (i : Nat) : Nat := 0x8040100 + i * 0x10
def TMR_T_CFG (i : Nat) : Nat := 0x8040101 + i * 0x10
def TMR_T_MATCHHI (i : Nat) : Nat := 0x8040102 + i * 0x10
def TMR_T_MATCHLO (i : Nat) : Nat := 0x8040103 + i * 0x10
def TMR_T_PHASEHI (i : Nat) : Nat := 0x8040104 + i * 0x10
def TMR_T_PHASELO (i : Nat) : Nat := 0x8040105 + i * 0x10
def TMR_T_LDHI (i : Nat) : Nat := 0x8040106 + i * 0x10
def TMR_T_LDLO (i : Nat) : Nat := 0x8040107 + i * 0x10
def TMR_T_CAPHI (i : Nat) : Nat := 0x8040108 + i * 0x10
def TMR_T_CAPLO (i : Nat) : Nat := 0x8040109 + i * 0x10
def TMR_T_EVT (i : Nat) : Nat := 0x804010A + i * 0x10

/-! DRL window -/
def DRL_ERRCNT : Nat := 0x8050000
def DRL_LASTERR : Nat := 0x8050001
def DRL_OVLCNT : Nat := 0x8050002
def DRL_CH_CTRL (i : Nat) : Nat := 0x8050100 + i * 0x10
def DRL_CH_CFG (i : Nat) : Nat := 0x8050101 + i * 0x10
def DRL_CH_XCFG (i : Nat) : Nat := 0x8050102 + i * 0x10
def DRL_CH_SRC (i : Nat) : Nat := 0x8050103 + i * 0x10
def DRL_CH_DST (i : Nat) : Nat := 0x8050104 + i * 0x10
def DRL_CH_COUNT (i : Nat) : Nat := 0x8050105 + i * 0x10
def DRL_CH_ASRC (i : Nat) : Nat := 0x8050106 + i * 0x10
def DRL_CH_ADST (i : Nat) : Nat := 0x8050107 + i * 0x10
def DRL_CH_ACNT (i : Nat) : Nat := 0x8050108 + i * 0x10
def DRL_CH_EVT (i : Nat) : Nat := 0x8050109 + i * 0x10
def DRL_CH_BLKCNT (i : Nat) : Nat := 0x805010A + i * 0x10

/-! HRW window -/
def HRW_CTRL : Nat := 0x8060000
def HRW_STAT : Nat := 0x8060001
def HRW_EVT : Nat := 0x8060002
def HRW_ERRCNT : Nat := 0x8060003
def HRW_LASTERR : Nat := 0x8060004
def HRW_DEAD : Nat := 0x8060005
def HRW_Q_SUBMIT (i : Nat) : Nat := 0x8060010 + i * 0x4
def HRW_Q_CFG (i : Nat) : Nat := 0x8060011 + i * 0x4
def HRW_Q_STAT (i : Nat) : Nat := 0x8060012 + i * 0x4
def HRW_Q_DONECNT (i : Nat) : Nat := 0x8060013 + i * 0x4
def HRW_FW_CTRL (i : Nat) : Nat := 0x8068000 + i * 0x100
def HRW_FW_BASE (i : Nat) : Nat := 0x8068001 + i * 0x100
def HRW_FW_ACTBASE (i : Nat) : Nat := 0x8068002 + i * 0x100
def HRW_FW_STAT (i : Nat) : Nat := 0x8068003 + i * 0x100
def HRW_FW_EVT (i : Nat) : Nat := 0x8068004 + i * 0x100
def HRW_FW_ERRCNT (i : Nat) : Nat := 0x8068005 + i * 0x100
def HRW_FW_LATECNT (i : Nat) : Nat := 0x8068006 + i * 0x100
def HRW_FW_LASTERR (i : Nat) : Nat := 0x8068007 + i * 0x100
def HRW_FW_SUB (i j : Nat) : Nat := 0x8068008 + i * 0x100 + j

/-! BM window -/
def BM_TCTRL (b : Nat) : Nat := 0x8070000 + b * 0x10000
def BM_TSTAT (b : Nat) : Nat := 0x8070001 + b * 0x10000
def BM_TEVT (b : Nat) : Nat := 0x8070002 + b * 0x10000
def BM_ERRCNT (b : Nat) : Nat := 0x8070003 + b * 0x10000
def BM_UNDCNT (b : Nat) : Nat := 0x8070004 + b * 0x10000
def BM_UNDLINE (b : Nat) : Nat := 0x8070005 + b * 0x10000
def BM_UNDER (b : Nat) : Nat := 0x8070006 + b * 0x10000
def BM_TPOS (b : Nat) : Nat := 0x8070007 + b * 0x10000
def BM_FCNT (b : Nat) : Nat := 0x8070008 + b * 0x10000
def BM_GLKPER (b : Nat) : Nat := 0x8070009 + b * 0x10000
def BM_PHERR (b : Nat) : Nat := 0x807000A + b * 0x10000
def BM_HACT (b : Nat) : Nat := 0x8070010 + b * 0x10000
def BM_HTOTAL (b : Nat) : Nat := 0x8070011 + b * 0x10000
def BM_HSYNC (b : Nat) : Nat := 0x8070012 + b * 0x10000
def BM_VACT (b : Nat) : Nat := 0x8070013 + b * 0x10000
def BM_VTOTAL (b : Nat) : Nat := 0x8070014 + b * 0x10000
def BM_VSYNC (b : Nat) : Nat := 0x8070015 + b * 0x10000
def BM_FRNUM (b : Nat) : Nat := 0x8070016 + b * 0x10000
def BM_FRDEN (b : Nat) : Nat := 0x8070017 + b * 0x10000
def BM_PHASE (b : Nat) : Nat := 0x8070018 + b * 0x10000
def BM_GLKCFG (b : Nat) : Nat := 0x8070019 + b * 0x10000
def BM_LOCKCFG (b : Nat) : Nat := 0x807001A + b * 0x10000
def BM_TOLCFG (b : Nat) : Nat := 0x807001B + b * 0x10000
def BM_TINE0 (b : Nat) : Nat := 0x807001C + b * 0x10000
def BM_TINE1 (b : Nat) : Nat := 0x807001D + b * 0x10000
def BM_WMLINE (b : Nat) : Nat := 0x807001E + b * 0x10000
def BM_BGCOL (b : Nat) : Nat := 0x8070020 + b * 0x10000
def BM_STACK (b : Nat) : Nat := 0x8070021 + b * 0x10000
def BM_CEVT (b : Nat) : Nat := 0x8070022 + b * 0x10000
def BM_LYSHED (b : Nat) : Nat := 0x8070023 + b * 0x10000
def BM_LYSHEDCNT (b : Nat) : Nat := 0x8070024 + b * 0x10000
def BM_FLATBASE (b : Nat) : Nat := 0x8070025 + b * 0x10000
def BM_FLATSTRIDE (b : Nat) : Nat := 0x8070026 + b * 0x10000
def BM_FLATSTAT (b : Nat) : Nat := 0x8070027 + b * 0x10000
def BM_CAPCTRL (b : Nat) : Nat := 0x8070028 + b * 0x10000
def BM_CAPBASE (b : Nat) : Nat := 0x8070029 + b * 0x10000
def BM_CAPSTRIDE (b : Nat) : Nat := 0x807002A + b * 0x10000
def BM_CAPSTAT (b : Nat) : Nat := 0x807002B + b * 0x10000
def BM_WRSTAT (b : Nat) : Nat := 0x807002D + b * 0x10000
def BM_WRTINE (b : Nat) : Nat := 0x807002E + b * 0x10000
def BM_LY_CTRL (b i : Nat) : Nat := 0x8070030 + b * 0x10000 + i
def BM_LY_SOLID (b i : Nat) : Nat := 0x8070038 + b * 0x10000 + i
def BM_CANVW (b : Nat) : Nat := 0x8070080 + b * 0x10000
def BM_SWX (b : Nat) : Nat := 0x8070081 + b * 0x10000
def BM_SWY (b : Nat) : Nat := 0x8070082 + b * 0x10000
def BM_TGT (b : Nat) : Nat := 0x8070083 + b * 0x10000
def BM_SFRAME (b : Nat) : Nat := 0x8070084 + b * 0x10000
def BM_TGTSTAT (b : Nat) : Nat := 0x8070085 + b * 0x10000
def BM_SPCFG (b : Nat) : Nat := 0x8070090 + b * 0x10000
def BM_SPTDATA (b : Nat) : Nat := 0x8070091 + b * 0x10000
def BM_SPBUDGET (b : Nat) : Nat := 0x8070092 + b * 0x10000
def BM_SPSHED (b : Nat) : Nat := 0x8070093 + b * 0x10000
def BM_SPKEY24 (b : Nat) : Nat := 0x8070094 + b * 0x10000
def BM_SPBANK (b : Nat) : Nat := 0x8070095 + b * 0x10000
def BM_SPCNTDROP (b : Nat) : Nat := 0x8070096 + b * 0x10000
def BM_SPPXDROP (b : Nat) : Nat := 0x8070097 + b * 0x10000
def BM_SPSHEDCNT (b : Nat) : Nat := 0x8070098 + b * 0x10000
def BM_TL_CFG (b i : Nat) : Nat := 0x8070100 + b * 0x10000 + i * 0x10
def BM_TL_MAP (b i : Nat) : Nat := 0x8070101 + b * 0x10000 + i * 0x10
def BM_TL_TDATA (b i : Nat) : Nat := 0x8070102 + b * 0x10000 + i * 0x10
def BM_TL_ORGX (b i : Nat) : Nat := 0x8070103 + b * 0x10000 + i * 0x10
def BM_TL_ORGY (b i : Nat) : Nat := 0x8070104 + b * 0x10000 + i * 0x10
def BM_TL_SCX (b i : Nat) : Nat := 0x8070105 + b * 0x10000 + i * 0x10
def BM_TL_SCY (b i : Nat) : Nat := 0x8070106 + b * 0x10000 + i * 0x10
def BM_TL_EXTW (b i : Nat) : Nat := 0x8070107 + b * 0x10000 + i * 0x10
def BM_TL_EXTH (b i : Nat) : Nat := 0x8070108 + b * 0x10000 + i * 0x10
def BM_TL_KEY (b i : Nat) : Nat := 0x8070109 + b * 0x10000 + i * 0x10
def BM_SC_FMT (b i : Nat) : Nat := 0x8070180 + b * 0x10000 + i * 0x20
def BM_SC_YBASE (b i : Nat) : Nat := 0x8070181 + b * 0x10000 + i * 0x20
def BM_SC_CBASE (b i : Nat) : Nat := 0x8070182 + b * 0x10000 + i * 0x20
def BM_SC_YSTRIDE (b i : Nat) : Nat := 0x8070183 + b * 0x10000 + i * 0x20
def BM_SC_CSTRIDE (b i : Nat) : Nat := 0x8070184 + b * 0x10000 + i * 0x20
def BM_SC_SRCX (b i : Nat) : Nat := 0x8070185 + b * 0x10000 + i * 0x20
def BM_SC_SRCY (b i : Nat) : Nat := 0x8070186 + b * 0x10000 + i * 0x20
def BM_SC_SRCW (b i : Nat) : Nat := 0x8070187 + b * 0x10000 + i * 0x20
def BM_SC_SRCH (b i : Nat) : Nat := 0x8070188 + b * 0x10000 + i * 0x20
def BM_SC_ORGX (b i : Nat) : Nat := 0x8070189 + b * 0x10000 + i * 0x20
def BM_SC_ORGY (b i : Nat) : Nat := 0x807018A + b * 0x10000 + i * 0x20
def BM_SC_OUTW (b i : Nat) : Nat := 0x807018B + b * 0x10000 + i * 0x20
def BM_SC_OUTH (b i : Nat) : Nat := 0x807018C + b * 0x10000 + i * 0x20
def BM_SC_HSTEP (b i : Nat) : Nat := 0x807018D + b * 0x10000 + i * 0x20
def BM_SC_VSTEP (b i : Nat) : Nat := 0x807018E + b * 0x10000 + i * 0x20
def BM_SC_HINIT (b i : Nat) : Nat := 0x807018F + b * 0x10000 + i * 0x20
def BM_SC_VINIT (b i : Nat) : Nat := 0x8070190 + b * 0x10000 + i * 0x20
def BM_SC_KEY (b i : Nat) : Nat := 0x8070191 + b * 0x10000 + i * 0x20
def BM_SC_STAT (b i : Nat) : Nat := 0x8070192 + b * 0x10000 + i * 0x20
def BM_WR_CTRL (b i : Nat) : Nat := 0x8070200 + b * 0x10000 + i * 0x10
def BM_WR_X (b i : Nat) : Nat := 0x8070201 + b * 0x10000 + i * 0x10
def BM_WR_Y (b i : Nat) : Nat := 0x8070202 + b * 0x10000 + i * 0x10
def BM_WR_W (b i : Nat) : Nat := 0x8070203 + b * 0x10000 + i * 0x10
def BM_WR_H (b i : Nat) : Nat := 0x8070204 + b * 0x10000 + i * 0x10
def BM_WR_EXPA_HI (b i : Nat) : Nat := 0x8070205 + b * 0x10000 + i * 0x10
def BM_WR_EXPA_LO (b i : Nat) : Nat := 0x8070206 + b * 0x10000 + i * 0x10
def BM_WR_EXPB_HI (b i : Nat) : Nat := 0x8070207 + b * 0x10000 + i * 0x10
def BM_WR_EXPB_LO (b i : Nat) : Nat := 0x8070208 + b * 0x10000 + i * 0x10
def BM_WR_CRC_HI (b i : Nat) : Nat := 0x8070209 + b * 0x10000 + i * 0x10
def BM_WR_CRC_LO (b i : Nat) : Nat := 0x807020A + b * 0x10000 + i * 0x10
def BM_WR_STAT (b i : Nat) : Nat := 0x807020B + b * 0x10000 + i * 0x10
def BM_WR_CFRM (b i : Nat) : Nat := 0x807020C + b * 0x10000 + i * 0x10
def BM_PAL (b i : Nat) : Nat := 0x8071000 + b * 0x10000 + i
def BM_SPT0 (b i : Nat) : Nat := 0x8072000 + b * 0x10000 + i * 0x4
def BM_SPT1 (b i : Nat) : Nat := 0x8072001 + b * 0x10000 + i * 0x4
def BM_SPT2 (b i : Nat) : Nat := 0x8072002 + b * 0x10000 + i * 0x4
def BM_SPT3 (b i : Nat) : Nat := 0x8072003 + b * 0x10000 + i * 0x4
def BM_COEFH (b i j k : Nat) : Nat := 0x8073000 + b * 0x10000 + i * 0x400 + j * 0x200 + k
def BM_COEFV (b i j k : Nat) : Nat := 0x8073100 + b * 0x10000 + i * 0x400 + j * 0x200 + k

/-! AUD window -/
def AUD_CTRL : Nat := 0x8090000
def AUD_STAT : Nat := 0x8090001
def AUD_EVT : Nat := 0x8090002
def AUD_ERRCNT : Nat := 0x8090003
def AUD_LASTERR : Nat := 0x8090004
def AUD_PHASE : Nat := 0x8090005
def AUD_SIDX : Nat := 0x8090006
def AUD_TOLCFG : Nat := 0x8090007
def AUD_UNDCNT : Nat := 0x8090008
def AUD_OVRCNT : Nat := 0x8090009
def AUD_CLIPCNT : Nat := 0x809000A
def AUD_LATECNT : Nat := 0x809000B
def AUD_PDMCFG : Nat := 0x809000C
def AUD_DLBASE : Nat := 0x809000D
def AUD_TDM_CFG (i : Nat) : Nat := 0x8090010 + i * 0x2
def AUD_TDM_STAT (i : Nat) : Nat := 0x8090011 + i * 0x2
def AUD_LNKIN (i : Nat) : Nat := 0x8090020 + i
def AUD_LNKOUT (i : Nat) : Nat := 0x8090030 + i
def AUD_AMB_CFG (i : Nat) : Nat := 0x8090040 + i * 0x8
def AUD_AMB_CAL (i : Nat) : Nat := 0x8090041 + i * 0x8
def AUD_AMB_WIN (i : Nat) : Nat := 0x8090042 + i * 0x8
def AUD_AMB_MASK0 (i : Nat) : Nat := 0x8090043 + i * 0x8
def AUD_AMB_MASK1 (i : Nat) : Nat := 0x8090044 + i * 0x8
def AUD_AMB_STAT (i : Nat) : Nat := 0x8090045 + i * 0x8
def AUD_AMB_EDGE (i : Nat) : Nat := 0x8090046 + i * 0x8
def AUD_REC_BASE (i : Nat) : Nat := 0x8090080 + i * 0x4
def AUD_REC_LEN (i : Nat) : Nat := 0x8090081 + i * 0x4
def AUD_REC_CTRL (i : Nat) : Nat := 0x8090082 + i * 0x4
def AUD_REC_PTR (i : Nat) : Nat := 0x8090083 + i * 0x4
def AUD_SHF_CTRL (i : Nat) : Nat := 0x8090090 + i * 0x4
def AUD_SHF_BASE (i : Nat) : Nat := 0x8090091 + i * 0x4
def AUD_SHF_TGT (i : Nat) : Nat := 0x8090092 + i * 0x4
def AUD_SHF_STAT (i : Nat) : Nat := 0x8090093 + i * 0x4
def AUD_OUT_CFG (i : Nat) : Nat := 0x8090100 + i
def AUD_V_CTRL (i : Nat) : Nat := 0x8090200 + i * 0x10
def AUD_V_TRIG (i : Nat) : Nat := 0x8090201 + i * 0x10
def AUD_V_CFG (i : Nat) : Nat := 0x8090202 + i * 0x10
def AUD_V_START (i : Nat) : Nat := 0x8090203 + i * 0x10
def AUD_V_LEN (i : Nat) : Nat := 0x8090204 + i * 0x10
def AUD_V_LOOPS (i : Nat) : Nat := 0x8090205 + i * 0x10
def AUD_V_LOOPE (i : Nat) : Nat := 0x8090206 + i * 0x10
def AUD_V_LOOPN (i : Nat) : Nat := 0x8090207 + i * 0x10
def AUD_V_STEP (i : Nat) : Nat := 0x8090208 + i * 0x10
def AUD_V_ENV (i : Nat) : Nat := 0x8090209 + i * 0x10
def AUD_V_STAT (i : Nat) : Nat := 0x809020A + i * 0x10
def AUD_V_POS (i : Nat) : Nat := 0x809020B + i * 0x10
def AUD_NODE (i j : Nat) : Nat := 0x8092000 + i * 0x40 + j

/-! SUP window -/
def SUP_EVT : Nat := 0x80A0000
def SUP_ERRCNT : Nat := 0x80A0001
def SUP_LASTERR : Nat := 0x80A0002
def SUP_STGBASE : Nat := 0x80A0003
def SUP_STGCFG : Nat := 0x80A0004
def SUP_STGGO : Nat := 0x80A0005
def SUP_STGSTAT : Nat := 0x80A0006
def SUP_NRCTRL : Nat := 0x80A0008
def SUP_NRSTAT : Nat := 0x80A0009
def SUP_NRMASK0 : Nat := 0x80A000A
def SUP_NRMASK1 : Nat := 0x80A000B
def SUP_NRTIME : Nat := 0x80A000C
def SUP_NRAC : Nat := 0x80A000D
def SUP_NRNUM : Nat := 0x80A000E
def SUP_NRFAIL0 : Nat := 0x80A000F
def SUP_NRFAIL1 : Nat := 0x80A0010
def SUP_LOGBASE : Nat := 0x80A0011
def SUP_LOGCFG : Nat := 0x80A0012
def SUP_OV_CFG (i : Nat) : Nat := 0x80A0040 + i * 0x8
def SUP_OV_DEB (i : Nat) : Nat := 0x80A0041 + i * 0x8
def SUP_OV_CTRL (i : Nat) : Nat := 0x80A0042 + i * 0x8
def SUP_OV_STAT (i : Nat) : Nat := 0x80A0043 + i * 0x8
def SUP_OV_FLTCNT (i : Nat) : Nat := 0x80A0044 + i * 0x8
def SUP_OV_TS2 (i : Nat) : Nat := 0x80A0045 + i * 0x8
def SUP_OV_TS1 (i : Nat) : Nat := 0x80A0046 + i * 0x8
def SUP_OV_TS0 (i : Nat) : Nat := 0x80A0047 + i * 0x8
def SUP_CH_CFG (i : Nat) : Nat := 0x80A0100 + i * 0x10
def SUP_CH_KZ (i : Nat) : Nat := 0x80A0101 + i * 0x10
def SUP_CH_ZMIN (i : Nat) : Nat := 0x80A0102 + i * 0x10
def SUP_CH_ZMAX (i : Nat) : Nat := 0x80A0103 + i * 0x10
def SUP_CH_PHWIN (i : Nat) : Nat := 0x80A0104 + i * 0x10
def SUP_CH_ACCFG (i : Nat) : Nat := 0x80A0105 + i * 0x10
def SUP_CH_ZMAG (i : Nat) : Nat := 0x80A0106 + i * 0x10
def SUP_CH_RES (i : Nat) : Nat := 0x80A0107 + i * 0x10
def SUP_CH_ACRES (i : Nat) : Nat := 0x80A0108 + i * 0x10

/-! LNK window -/
def LNK_CTRL : Nat := 0x80B0000
def LNK_STAT : Nat := 0x80B0001
def LNK_EVT : Nat := 0x80B0002
def LNK_ERRCNT : Nat := 0x80B0003
def LNK_LASTERR : Nat := 0x80B0004
def LNK_ADDR : Nat := 0x80B0005
def LNK_RINGCFG : Nat := 0x80B0006
def LNK_RINGSTAT : Nat := 0x80B0007
def LNK_MGRCFG : Nat := 0x80B0008
def LNK_REFCFG : Nat := 0x80B0009
def LNK_REFSTAT : Nat := 0x80B000A
def LNK_REFOFS : Nat := 0x80B000B
def LNK_PTPCFG : Nat := 0x80B000C
def LNK_GLKREF : Nat := 0x80B000D
def LNK_DUPCNT : Nat := 0x80B000E
def LNK_BADCNT : Nat := 0x80B000F
def LNK_TDMCAP (i : Nat) : Nat := 0x80B0010 + i
def LNK_RTCMT : Nat := 0x80B0014
def LNK_L_CFG (i : Nat) : Nat := 0x80B0020 + i * 0x8
def LNK_L_STAT (i : Nat) : Nat := 0x80B0021 + i * 0x8
def LNK_L_EVT (i : Nat) : Nat := 0x80B0022 + i * 0x8
def LNK_L_ERRCNT (i : Nat) : Nat := 0x80B0023 + i * 0x8
def LNK_L_FECCNT (i : Nat) : Nat := 0x80B0024 + i * 0x8
def LNK_L_CAP (i : Nat) : Nat := 0x80B0025 + i * 0x8
def LNK_L_DELAY (i : Nat) : Nat := 0x80B0026 + i * 0x8
def LNK_L_ASYM (i : Nat) : Nat := 0x80B0027 + i * 0x8
def LNK_RT (i : Nat) : Nat := 0x80B0100 + i

/-! SEC window -/
def SEC_DEVID : Nat := 0x80C0000
def SEC_CTRL : Nat := 0x80C0001
def SEC_STAT : Nat := 0x80C0002
def SEC_EVT : Nat := 0x80C0003
def SEC_ERRCNT : Nat := 0x80C0004
def SEC_ARB : Nat := 0x80C0005
def SEC_PKGEN (i : Nat) : Nat := 0x80C0008 + i
def SEC_OP_CTRL (i : Nat) : Nat := 0x80C0020 + i * 0x4
def SEC_OP_SRC (i : Nat) : Nat := 0x80C0021 + i * 0x4
def SEC_OP_DST (i : Nat) : Nat := 0x80C0022 + i * 0x4
def SEC_OP_LEN (i : Nat) : Nat := 0x80C0023 + i * 0x4
def SEC_PUBKEY (i : Nat) : Nat := 0x80C0100 + i
def SEC_OPROOT (i : Nat) : Nat := 0x80C0120 + i

/-! GRN window -/
def GRN_CMD : Nat := 0x80D0000
def GRN_STAT : Nat := 0x80D0001
def GRN_EVT : Nat := 0x80D0002
def GRN_ERRCNT : Nat := 0x80D0003
def GRN_IMGSEL : Nat := 0x80D0004
def GRN_BUF (i : Nat) : Nat := 0x80D0100 + i

/-! GPO window -/
def GPO_ERRCNT : Nat := 0x80E0000
def GPO_LASTERR : Nat := 0x80E0001
def GPO_IN (i : Nat) : Nat := 0x80E0002 + i
def GPO_OUT (i : Nat) : Nat := 0x80E0004 + i
def GPO_OUTSET (i : Nat) : Nat := 0x80E0006 + i
def GPO_OUTCLR (i : Nat) : Nat := 0x80E0008 + i
def GPO_EVT (i : Nat) : Nat := 0x80E000A + i
def GPO_SECMASK (i : Nat) : Nat := 0x80E000C + i
def GPO_PIN_CFG (i : Nat) : Nat := 0x80E0100 + i

/-! PWR window -/
def PWR_STATECMD : Nat := 0x80F0000
def PWR_STAT : Nat := 0x80F0001
def PWR_RSTCAUSE : Nat := 0x80F0002
def PWR_WAKECFG : Nat := 0x80F0003
def PWR_WAKETMR : Nat := 0x80F0004
def PWR_EVT : Nat := 0x80F0010
def PWR_ERRCNT : Nat := 0x80F0011
def PWR_LASTERR : Nat := 0x80F0012
def PWR_DOMCTRL : Nat := 0x80F0013
def PWR_DOMSTAT : Nat := 0x80F0014
def PWR_RSTCMD : Nat := 0x80F0015
def PWR_VLOOP : Nat := 0x80F0016
def PWR_VCEIL : Nat := 0x80F0017
def PWR_VFLOOR : Nat := 0x80F0018
def PWR_VSTAT : Nat := 0x80F0019
def PWR_VCAPCNT : Nat := 0x80F001A
def PWR_TEMP : Nat := 0x80F001B

/-! DBG window -/
def DBG_CTRL : Nat := 0x8100000
def DBG_EVT : Nat := 0x8100001
def DBG_ERRCNT : Nat := 0x8100002
def DBG_LASTERR : Nat := 0x8100003
def DBG_HALT : Nat := 0x8100004
def DBG_RESUME : Nat := 0x8100005
def DBG_HALTED : Nat := 0x8100006
def DBG_FRZSRC : Nat := 0x8100007
def DBG_FRZ : Nat := 0x8100008
def DBG_SYSRST : Nat := 0x8100009
def DBG_PR_CTRL (i : Nat) : Nat := 0x8100010 + i * 0x8
def DBG_PR_STAT (i : Nat) : Nat := 0x8100011 + i * 0x8
def DBG_PR_PC (i : Nat) : Nat := 0x8100012 + i * 0x8
def DBG_PR_RSEL (i : Nat) : Nat := 0x8100013 + i * 0x8
def DBG_PR_RDATA (i : Nat) : Nat := 0x8100014 + i * 0x8
def DBG_CMP_CFG (i j : Nat) : Nat := 0x8100200 + i * 0x20 + j * 0x3
def DBG_CMP_ADDR (i j : Nat) : Nat := 0x8100201 + i * 0x20 + j * 0x3
def DBG_CMP_MASK (i j : Nat) : Nat := 0x8100202 + i * 0x20 + j * 0x3

/-! GLN window -/
def GLN_CTRL : Nat := 0x8110000
def GLN_IVL : Nat := 0x8110001
def GLN_UMASK : Nat := 0x8110002
def GLN_BASE : Nat := 0x8110003
def GLN_LEN : Nat := 0x8110004
def GLN_STAT : Nat := 0x8110005
def GLN_EVT : Nat := 0x8110006
def GLN_ERRCNT : Nat := 0x8110007
def GLN_LASTERR : Nat := 0x8110008
def GLN_SKIPCNT : Nat := 0x8110009
def GLN_UREAD : Nat := 0x811000A
def GLN_CAPCMD : Nat := 0x811000B
def GLN_CNT (i j : Nat) : Nat := 0x8110100 + i * 0x4 + j
def GLN_CCFG (i j : Nat) : Nat := 0x8110180 + i * 0x4 + j
def GLN_CCAP (i j : Nat) : Nat := 0x8110200 + i * 0x4 + j
def GLN_SMP_CFG (i : Nat) : Nat := 0x8110300 + i * 0x4
def GLN_SMP_STAT (i : Nat) : Nat := 0x8110301 + i * 0x4
def GLN_SMP_DATA (i : Nat) : Nat := 0x8110302 + i * 0x4

/-! FAB window -/
def FAB_CTRL : Nat := 0x8120000
def FAB_STAT : Nat := 0x8120001
def FAB_EVT : Nat := 0x8120002
def FAB_MAPCFG : Nat := 0x8120003
def FAB_ERRCNT : Nat := 0x8120004
def FAB_HSTO : Nat := 0x8120005
def FAB_DECERR : Nat := 0x8120006
def FAB_DECADDR_HI : Nat := 0x8120007
def FAB_DECADDR_LO : Nat := 0x8120008
def FAB_PACE : Nat := 0x8120009
def FAB_REFCFG : Nat := 0x812000A
def FAB_SLPCFG : Nat := 0x812000B
def FAB_TOL : Nat := 0x812000C
def FAB_TOLDECL (i : Nat) : Nat := 0x812000D + i
def FAB_BANKSLP (i : Nat) : Nat := 0x8120010 + i
def FAB_TAGUSE : Nat := 0x8120012
def FAB_TAGPEAK : Nat := 0x8120013
def FAB_BEAMSHARE : Nat := 0x8120014
def FAB_FENCE : Nat := 0x8120015
def FAB_FENCETO : Nat := 0x8120016
def FAB_CRD (i : Nat) : Nat := 0x8120020 + i
def FAB_CUSE (i : Nat) : Nat := 0x8120040 + i
def FAB_QOS (i : Nat) : Nat := 0x8120060 + i
def FAB_PLOTOUT (i : Nat) : Nat := 0x8120068 + i
def FAB_SEMACL (i : Nat) : Nat := 0x8120100 + i
def FAB_SEMNOTE (i j : Nat) : Nat := 0x8120200 + i * 0x10 + j
def FAB_SEMV (i j : Nat) : Nat := 0x8121000 + i * 0x100 + j

/-! ACW window -/
def ACW_CTRL : Nat := 0x8130000
def ACW_STAT : Nat := 0x8130001
def ACW_EVT : Nat := 0x8130002
def ACW_ERRCNT : Nat := 0x8130003
def ACW_MATCH : Nat := 0x8130004
def ACW_MEND : Nat := 0x8130005
def ACW_FCNT : Nat := 0x8130006
def ACW_SIG_CFG (i : Nat) : Nat := 0x8130010 + i * 0x2
def ACW_SIG_CTRL (i : Nat) : Nat := 0x8130011 + i * 0x2
def ACW_TPL (i j : Nat) : Nat := 0x8131000 + i * 0x200 + j
end Reg

/-! ## Fields -/
namespace Fd


/-! STW window -/
def STW_UCVER_BASE : Fld := ⟨23, 16⟩
def STW_UCVER_CUST : Fld := ⟨15, 0⟩
def STW_UCVERI_BASE : Fld := ⟨23, 16⟩
def STW_UCVERI_CUST : Fld := ⟨15, 0⟩
def STW_UCSTAT_ACTIVE : Fld := ⟨23, 23⟩
def STW_UCSTAT_LEGACY : Fld := ⟨22, 22⟩
def STW_UCSTAT_READY : Fld := ⟨21, 21⟩
def STW_UCSTAT_SCANNING : Fld := ⟨20, 20⟩
def STW_UCSTAT_COPYING : Fld := ⟨19, 19⟩
def STW_UCSTAT_INACTERR : Fld := ⟨18, 18⟩
def STW_UCSTAT_CUSTOFF : Fld := ⟨17, 17⟩
def STW_UCCTRL_COPY : Fld := ⟨23, 23⟩
def STW_UCCTRL_SEAL : Fld := ⟨22, 22⟩
def STW_UCCTRL_PINJ : Fld := ⟨21, 21⟩
def STW_UCADDR_ADDR : Fld := ⟨12, 0⟩
def STW_UCDATA_DATA : Fld := ⟨23, 0⟩
def STW_WDOG_TIME : Fld := ⟨9, 0⟩
def STW_ERRCNT_SAT : Fld := ⟨23, 23⟩
def STW_ERRCNT_COUNT : Fld := ⟨15, 0⟩
def STW_CUSTERR_CAUSE : Fld := ⟨23, 21⟩
def STW_CUSTERR_FUNC : Fld := ⟨20, 13⟩
def STW_CUSTERR_UADDR : Fld := ⟨12, 0⟩
def STW_MCHK_VALID : Fld := ⟨23, 23⟩
def STW_MCHK_CAUSE : Fld := ⟨22, 19⟩
def STW_MCHK_BANK : Fld := ⟨18, 18⟩
def STW_MCHK_CSEG : Fld := ⟨17, 14⟩
def STW_MCHK_UADDR : Fld := ⟨13, 0⟩
def STW_MCHKPC_PC : Fld := ⟨23, 0⟩
def STW_MCHKCNT_SAT : Fld := ⟨23, 23⟩
def STW_MCHKCNT_COUNT : Fld := ⟨15, 0⟩
def STW_MB_CFG_EN : Fld := ⟨23, 23⟩
def STW_MB_CFG_SIZE : Fld := ⟨18, 16⟩
def STW_MB_CFG_BASE : Fld := ⟨14, 0⟩
def STW_MB_HEAD_INDEX : Fld := ⟨4, 0⟩
def STW_MB_TAIL_INDEX : Fld := ⟨4, 0⟩
def STW_MB_STAT_FULL : Fld := ⟨23, 23⟩
def STW_MB_STAT_COUNT : Fld := ⟨4, 0⟩

/-! PLT window -/
def PLT_PCMD_ACTION : Fld := ⟨23, 21⟩
def PLT_PCMD_PLOT : Fld := ⟨2, 0⟩
def PLT_ERRCNT_SAT : Fld := ⟨23, 23⟩
def PLT_ERRCNT_COUNT : Fld := ⟨15, 0⟩
def PLT_STATE_STATE : Fld := ⟨23, 22⟩
def PLT_BOOT_ADDR : Fld := ⟨23, 0⟩
def PLT_VIOL_SAT : Fld := ⟨23, 23⟩
def PLT_VIOL_COUNT : Fld := ⟨15, 0⟩
def PLT_BRES_RESA : Fld := ⟨9, 5⟩
def PLT_BRES_RESB : Fld := ⟨4, 0⟩
def PLT_PGOWN_SHR : Fld := ⟨4, 4⟩
def PLT_PGOWN_OWNER : Fld := ⟨2, 0⟩
def PLT_OWN_OWNER : Fld := ⟨2, 0⟩
def PLT_PT_V : Fld := ⟨23, 23⟩
def PLT_PT_R : Fld := ⟨22, 22⟩
def PLT_PT_W : Fld := ⟨21, 21⟩
def PLT_PT_X : Fld := ⟨20, 20⟩
def PLT_PT_U : Fld := ⟨19, 19⟩
def PLT_PT_DEV : Fld := ⟨18, 18⟩
def PLT_PT_PPN : Fld := ⟨11, 0⟩

/-! IRQ window -/
def IRQ_SRC_EN : Fld := ⟨23, 23⟩
def IRQ_SRC_EDGE : Fld := ⟨22, 22⟩
def IRQ_SRC_PEND : Fld := ⟨21, 21⟩
def IRQ_SRC_LINE : Fld := ⟨20, 20⟩
def IRQ_SRC_LEVEL : Fld := ⟨11, 8⟩
def IRQ_SRC_TARGET : Fld := ⟨4, 0⟩
def IRQ_MBX_EN : Fld := ⟨23, 23⟩
def IRQ_MBX_PEND : Fld := ⟨21, 21⟩
def IRQ_MBX_LINE : Fld := ⟨20, 20⟩
def IRQ_MBX_LEVEL : Fld := ⟨11, 8⟩
def IRQ_MBX_TARGET : Fld := ⟨4, 0⟩
def IRQ_GRP_HOLD : Fld := ⟨23, 12⟩
def IRQ_GRP_FILT : Fld := ⟨7, 0⟩
def IRQ_ERRCNT_SAT : Fld := ⟨23, 23⟩
def IRQ_ERRCNT_COUNT : Fld := ⟨15, 0⟩
def IRQ_LASTERR_CAUSE : Fld := ⟨23, 20⟩
def IRQ_LASTERR_SRC : Fld := ⟨7, 0⟩
def IRQ_BELL_CLR : Fld := ⟨1, 1⟩
def IRQ_BELL_RING : Fld := ⟨0, 0⟩
def IRQ_THR_THR : Fld := ⟨3, 0⟩
def IRQ_PRES_REQ : Fld := ⟨23, 23⟩
def IRQ_PRES_LEVEL : Fld := ⟨3, 0⟩
def IRQ_RUN_RUN : Fld := ⟨23, 20⟩
def IRQ_RUN_ACTIVE : Fld := ⟨15, 1⟩
def IRQ_DONE_CMP : Fld := ⟨23, 23⟩
def IRQ_DONE_END : Fld := ⟨22, 22⟩
def IRQ_DONE_SRC : Fld := ⟨7, 0⟩
def IRQ_PEND_PEND : Fld := ⟨23, 0⟩

/-! TIN window -/
def TIN_ERRCNT_SAT : Fld := ⟨23, 23⟩
def TIN_ERRCNT_COUNT : Fld := ⟨15, 0⟩
def TIN_LASTERR_CAUSE : Fld := ⟨23, 20⟩
def TIN_LASTERR_PLOT : Fld := ⟨2, 0⟩
def TIN_MRG_BITS : Fld := ⟨23, 0⟩
def TIN_GU_EN : Fld := ⟨23, 23⟩
def TIN_GU_INV : Fld := ⟨22, 22⟩
def TIN_GU_SIG : Fld := ⟨21, 16⟩
def TIN_GU_IN : Fld := ⟨13, 8⟩
def TIN_GU_SW : Fld := ⟨7, 7⟩
def TIN_GU_OUT : Fld := ⟨5, 0⟩
def TIN_ACL_PLOTS : Fld := ⟨7, 0⟩
def TIN_PUB_GO : Fld := ⟨23, 23⟩
def TIN_PUB_TINE : Fld := ⟨5, 0⟩
def TIN_SEEN_BITS : Fld := ⟨23, 0⟩

/-! TMR window -/
def TMR_EVT_ERRSAT : Fld := ⟨1, 1⟩
def TMR_EVT_TBWRAP : Fld := ⟨0, 0⟩
def TMR_ERRCNT_SAT : Fld := ⟨23, 23⟩
def TMR_ERRCNT_COUNT : Fld := ⟨15, 0⟩
def TMR_LASTERR_CAUSE : Fld := ⟨23, 20⟩
def TMR_LASTERR_TIMER : Fld := ⟨3, 0⟩
def TMR_GSTART_GO : Fld := ⟨23, 23⟩
def TMR_GSTART_MASK : Fld := ⟨15, 0⟩
def TMR_TBCMD_GO : Fld := ⟨23, 23⟩
def TMR_TBCMD_VALID : Fld := ⟨22, 22⟩
def TMR_TB2_TB : Fld := ⟨15, 0⟩
def TMR_TB1_TB : Fld := ⟨23, 0⟩
def TMR_TB0_TB : Fld := ⟨23, 0⟩
def TMR_T_CTRL_START : Fld := ⟨23, 23⟩
def TMR_T_CTRL_STOP : Fld := ⟨22, 22⟩
def TMR_T_CTRL_CAP : Fld := ⟨21, 21⟩
def TMR_T_CTRL_LOAD : Fld := ⟨20, 20⟩
def TMR_T_CTRL_RUN : Fld := ⟨19, 19⟩
def TMR_T_CTRL_MODE : Fld := ⟨17, 16⟩
def TMR_T_CTRL_CLK : Fld := ⟨15, 15⟩
def TMR_T_CTRL_CTINE : Fld := ⟨13, 8⟩
def TMR_T_CTRL_DIV : Fld := ⟨7, 0⟩
def TMR_T_CFG_STEN : Fld := ⟨23, 23⟩
def TMR_T_CFG_STINE : Fld := ⟨21, 16⟩
def TMR_T_CFG_MEN : Fld := ⟨15, 15⟩
def TMR_T_CFG_OEN : Fld := ⟨14, 14⟩
def TMR_T_CFG_MTINE : Fld := ⟨13, 8⟩
def TMR_T_MATCHHI_MATCH : Fld := ⟨23, 0⟩
def TMR_T_MATCHLO_MATCH : Fld := ⟨23, 0⟩
def TMR_T_PHASEHI_PHASE : Fld := ⟨23, 0⟩
def TMR_T_PHASELO_PHASE : Fld := ⟨23, 0⟩
def TMR_T_LDHI_LD : Fld := ⟨23, 0⟩
def TMR_T_LDLO_LD : Fld := ⟨23, 0⟩
def TMR_T_CAPHI_CAP : Fld := ⟨23, 0⟩
def TMR_T_CAPLO_CAP : Fld := ⟨23, 0⟩
def TMR_T_EVT_OVR : Fld := ⟨2, 2⟩
def TMR_T_EVT_OVF : Fld := ⟨1, 1⟩
def TMR_T_EVT_MATCH : Fld := ⟨0, 0⟩

/-! DRL window -/
def DRL_ERRCNT_SAT : Fld := ⟨23, 23⟩
def DRL_ERRCNT_COUNT : Fld := ⟨15, 0⟩
def DRL_LASTERR_CAUSE : Fld := ⟨23, 20⟩
def DRL_LASTERR_CHAN : Fld := ⟨4, 0⟩
def DRL_OVLCNT_SAT : Fld := ⟨23, 23⟩
def DRL_OVLCNT_COUNT : Fld := ⟨15, 0⟩
def DRL_CH_CTRL_EN : Fld := ⟨23, 23⟩
def DRL_CH_CTRL_GO : Fld := ⟨22, 22⟩
def DRL_CH_CTRL_ACT : Fld := ⟨21, 21⟩
def DRL_CH_CTRL_PEND : Fld := ⟨20, 20⟩
def DRL_CH_CTRL_PRI : Fld := ⟨1, 0⟩
def DRL_CH_CFG_TEN : Fld := ⟨23, 23⟩
def DRL_CH_CFG_TTINE : Fld := ⟨21, 16⟩
def DRL_CH_CFG_EEN : Fld := ⟨15, 15⟩
def DRL_CH_CFG_ETINE : Fld := ⟨13, 8⟩
def DRL_CH_CFG_MODE : Fld := ⟨7, 7⟩
def DRL_CH_CFG_SINC : Fld := ⟨6, 6⟩
def DRL_CH_CFG_DINC : Fld := ⟨5, 5⟩
def DRL_CH_CFG_BURST : Fld := ⟨4, 0⟩
def DRL_CH_XCFG_REQEN : Fld := ⟨23, 23⟩
def DRL_CH_XCFG_REQ : Fld := ⟨20, 16⟩
def DRL_CH_XCFG_SSEG : Fld := ⟨7, 4⟩
def DRL_CH_XCFG_DSEG : Fld := ⟨3, 0⟩
def DRL_CH_SRC_ADDR : Fld := ⟨23, 0⟩
def DRL_CH_DST_ADDR : Fld := ⟨23, 0⟩
def DRL_CH_COUNT_COUNT : Fld := ⟨23, 0⟩
def DRL_CH_ASRC_ADDR : Fld := ⟨23, 0⟩
def DRL_CH_ADST_ADDR : Fld := ⟨23, 0⟩
def DRL_CH_ACNT_COUNT : Fld := ⟨23, 0⟩
def DRL_CH_EVT_ERR : Fld := ⟨4, 4⟩
def DRL_CH_EVT_BCWRAP : Fld := ⟨3, 3⟩
def DRL_CH_EVT_OVL : Fld := ⟨2, 2⟩
def DRL_CH_EVT_OVR : Fld := ⟨1, 1⟩
def DRL_CH_EVT_DONE : Fld := ⟨0, 0⟩
def DRL_CH_BLKCNT_COUNT : Fld := ⟨23, 0⟩

/-! HRW window -/
def HRW_CTRL_WMTO : Fld := ⟨15, 8⟩
def HRW_CTRL_EN : Fld := ⟨0, 0⟩
def HRW_STAT_BUSY : Fld := ⟨23, 23⟩
def HRW_STAT_PAUSED : Fld := ⟨22, 22⟩
def HRW_STAT_ACTQ : Fld := ⟨21, 20⟩
def HRW_EVT_ERRSAT : Fld := ⟨4, 4⟩
def HRW_EVT_DCWRAP : Fld := ⟨3, 3⟩
def HRW_EVT_QFULL : Fld := ⟨2, 2⟩
def HRW_EVT_ABORT : Fld := ⟨1, 1⟩
def HRW_EVT_ERR : Fld := ⟨0, 0⟩
def HRW_ERRCNT_SAT : Fld := ⟨23, 23⟩
def HRW_ERRCNT_COUNT : Fld := ⟨15, 0⟩
def HRW_LASTERR_CAUSE : Fld := ⟨23, 20⟩
def HRW_LASTERR_QUEUE : Fld := ⟨19, 18⟩
def HRW_LASTERR_ADDR : Fld := ⟨17, 0⟩
def HRW_DEAD_DEAD : Fld := ⟨11, 0⟩
def HRW_Q_SUBMIT_BASE : Fld := ⟨23, 0⟩
def HRW_Q_CFG_FLUSH : Fld := ⟨23, 23⟩
def HRW_Q_CFG_TEN : Fld := ⟨15, 15⟩
def HRW_Q_CFG_TINE : Fld := ⟨13, 8⟩
def HRW_Q_CFG_WMBEAM : Fld := ⟨5, 5⟩
def HRW_Q_CFG_CMODE : Fld := ⟨4, 4⟩
def HRW_Q_STAT_DONE : Fld := ⟨23, 23⟩
def HRW_Q_STAT_RUN : Fld := ⟨22, 22⟩
def HRW_Q_STAT_PENDWM : Fld := ⟨21, 21⟩
def HRW_Q_STAT_WAITING : Fld := ⟨20, 20⟩
def HRW_Q_STAT_DEPTH : Fld := ⟨3, 0⟩
def HRW_Q_DONECNT_COUNT : Fld := ⟨23, 0⟩
def HRW_FW_CTRL_EN : Fld := ⟨0, 0⟩
def HRW_FW_BASE_BASE : Fld := ⟨23, 0⟩
def HRW_FW_ACTBASE_BASE : Fld := ⟨23, 0⟩
def HRW_FW_STAT_RUN : Fld := ⟨23, 23⟩
def HRW_FW_STAT_HALTED : Fld := ⟨22, 22⟩
def HRW_FW_STAT_PEND : Fld := ⟨21, 21⟩
def HRW_FW_STAT_LOOPACT : Fld := ⟨20, 20⟩
def HRW_FW_STAT_LINE : Fld := ⟨12, 0⟩
def HRW_FW_EVT_ERRSAT : Fld := ⟨4, 4⟩
def HRW_FW_EVT_SWAP : Fld := ⟨3, 3⟩
def HRW_FW_EVT_LATE : Fld := ⟨2, 2⟩
def HRW_FW_EVT_CAP : Fld := ⟨1, 1⟩
def HRW_FW_EVT_ERR : Fld := ⟨0, 0⟩
def HRW_FW_ERRCNT_SAT : Fld := ⟨23, 23⟩
def HRW_FW_ERRCNT_COUNT : Fld := ⟨15, 0⟩
def HRW_FW_LATECNT_SAT : Fld := ⟨23, 23⟩
def HRW_FW_LATECNT_COUNT : Fld := ⟨15, 0⟩
def HRW_FW_LASTERR_CAUSE : Fld := ⟨23, 20⟩
def HRW_FW_LASTERR_ADDR : Fld := ⟨19, 0⟩
def HRW_FW_SUB_SEEN : Fld := ⟨23, 23⟩
def HRW_FW_SUB_OVR : Fld := ⟨22, 22⟩
def HRW_FW_SUB_EN : Fld := ⟨7, 7⟩
def HRW_FW_SUB_TINE : Fld := ⟨5, 0⟩

/-! BM window -/
def BM_TCTRL_STATE : Fld := ⟨10, 8⟩
def BM_TCTRL_GLKSEL : Fld := ⟨7, 6⟩
def BM_TCTRL_SRC : Fld := ⟨5, 4⟩
def BM_TCTRL_TGO : Fld := ⟨2, 2⟩
def BM_TCTRL_TEN : Fld := ⟨0, 0⟩
def BM_TSTAT_BLANKCNT : Fld := ⟨7, 6⟩
def BM_TSTAT_PLLLK : Fld := ⟨5, 5⟩
def BM_TSTAT_TPEND : Fld := ⟨4, 4⟩
def BM_TEVT_ERRSAT : Fld := ⟨7, 7⟩
def BM_TEVT_FCWRAP : Fld := ⟨6, 6⟩
def BM_TEVT_GLKBAD : Fld := ⟨5, 5⟩
def BM_TEVT_TSETERR : Fld := ⟨4, 4⟩
def BM_TEVT_UNDER : Fld := ⟨3, 3⟩
def BM_TEVT_RELOCK : Fld := ⟨2, 2⟩
def BM_TEVT_LOSS : Fld := ⟨1, 1⟩
def BM_TEVT_LOCK : Fld := ⟨0, 0⟩
def BM_ERRCNT_SAT : Fld := ⟨23, 23⟩
def BM_ERRCNT_COUNT : Fld := ⟨15, 0⟩
def BM_UNDCNT_SAT : Fld := ⟨23, 23⟩
def BM_UNDCNT_COUNT : Fld := ⟨15, 0⟩
def BM_UNDLINE_LINE : Fld := ⟨12, 0⟩
def BM_UNDER_COLOUR : Fld := ⟨23, 0⟩
def BM_TPOS_HL : Fld := ⟨23, 23⟩
def BM_TPOS_FH : Fld := ⟨22, 22⟩
def BM_TPOS_LINE : Fld := ⟨12, 0⟩
def BM_FCNT_COUNT : Fld := ⟨23, 0⟩
def BM_GLKPER_PERIOD : Fld := ⟨23, 0⟩
def BM_PHERR_ERR : Fld := ⟨15, 0⟩
def BM_HACT_V : Fld := ⟨13, 0⟩
def BM_HTOTAL_V : Fld := ⟨13, 0⟩
def BM_HSYNC_POL : Fld := ⟨23, 23⟩
def BM_HSYNC_SW : Fld := ⟨21, 12⟩
def BM_HSYNC_FP : Fld := ⟨11, 0⟩
def BM_VACT_V : Fld := ⟨13, 0⟩
def BM_VTOTAL_V : Fld := ⟨13, 0⟩
def BM_VSYNC_POL : Fld := ⟨23, 23⟩
def BM_VSYNC_SW : Fld := ⟨21, 12⟩
def BM_VSYNC_FP : Fld := ⟨11, 0⟩
def BM_FRNUM_V : Fld := ⟨15, 0⟩
def BM_FRDEN_V : Fld := ⟨15, 0⟩
def BM_PHASE_V : Fld := ⟨23, 0⟩
def BM_GLKCFG_GPOL : Fld := ⟨23, 23⟩
def BM_GLKCFG_GLKDLY : Fld := ⟨15, 0⟩
def BM_LOCKCFG_SLEWMAX : Fld := ⟨7, 0⟩
def BM_TOLCFG_MARGIN : Fld := ⟨7, 0⟩
def BM_TINE0_EN_A : Fld := ⟨15, 15⟩
def BM_TINE0_TINE_A : Fld := ⟨13, 8⟩
def BM_TINE0_EN_B : Fld := ⟨7, 7⟩
def BM_TINE0_TINE_B : Fld := ⟨5, 0⟩
def BM_TINE1_EN_A : Fld := ⟨15, 15⟩
def BM_TINE1_TINE_A : Fld := ⟨13, 8⟩
def BM_TINE1_EN_B : Fld := ⟨7, 7⟩
def BM_TINE1_TINE_B : Fld := ⟨5, 0⟩
def BM_WMLINE_LINE : Fld := ⟨12, 0⟩
def BM_BGCOL_COLOUR : Fld := ⟨23, 0⟩
def BM_STACK_POS : Fld := ⟨23, 0⟩
def BM_CEVT_FLAGS : Fld := ⟨12, 1⟩
def BM_LYSHED_SHED3 : Fld := ⟨7, 0⟩
def BM_LYSHEDCNT_SAT : Fld := ⟨23, 23⟩
def BM_LYSHEDCNT_COUNT : Fld := ⟨15, 0⟩
def BM_FLATBASE_BASE : Fld := ⟨23, 0⟩
def BM_FLATSTRIDE_STRIDE : Fld := ⟨13, 0⟩
def BM_FLATSTAT_STATE : Fld := ⟨23, 22⟩
def BM_FLATSTAT_GROUP : Fld := ⟨15, 8⟩
def BM_FLATSTAT_RANGES : Fld := ⟨4, 0⟩
def BM_CAPCTRL_N : Fld := ⟨11, 8⟩
def BM_CAPCTRL_MODE : Fld := ⟨2, 1⟩
def BM_CAPCTRL_EN : Fld := ⟨0, 0⟩
def BM_CAPBASE_BASE : Fld := ⟨23, 0⟩
def BM_CAPSTRIDE_STRIDE : Fld := ⟨13, 0⟩
def BM_CAPSTAT_BUSY : Fld := ⟨23, 23⟩
def BM_CAPSTAT_OVR : Fld := ⟨22, 22⟩
def BM_CAPSTAT_FRAME : Fld := ⟨15, 0⟩
def BM_WRSTAT_MIS : Fld := ⟨15, 0⟩
def BM_WRTINE_EN : Fld := ⟨7, 7⟩
def BM_WRTINE_TINE : Fld := ⟨5, 0⟩
def BM_LY_CTRL_SCL : Fld := ⟨12, 12⟩
def BM_LY_CTRL_STATIC : Fld := ⟨11, 11⟩
def BM_LY_CTRL_SHED : Fld := ⟨10, 10⟩
def BM_LY_CTRL_ALPHA : Fld := ⟨9, 4⟩
def BM_LY_CTRL_KIND : Fld := ⟨3, 1⟩
def BM_LY_CTRL_EN : Fld := ⟨0, 0⟩
def BM_LY_SOLID_COLOUR : Fld := ⟨23, 0⟩
def BM_CANVW_WIDTH : Fld := ⟨19, 0⟩
def BM_SWX_X : Fld := ⟨19, 0⟩
def BM_SWY_Y : Fld := ⟨15, 0⟩
def BM_TGT_ARM : Fld := ⟨23, 23⟩
def BM_TGT_FRAME : Fld := ⟨15, 0⟩
def BM_SFRAME_INDEX : Fld := ⟨23, 0⟩
def BM_TGTSTAT_SAT : Fld := ⟨23, 23⟩
def BM_TGTSTAT_DONE : Fld := ⟨22, 22⟩
def BM_TGTSTAT_LATE : Fld := ⟨15, 0⟩
def BM_SPCFG_DEPTH : Fld := ⟨9, 8⟩
def BM_SPCFG_MAXLINE : Fld := ⟨7, 0⟩
def BM_SPTDATA_BASE : Fld := ⟨23, 0⟩
def BM_SPBUDGET_PIXELS : Fld := ⟨15, 0⟩
def BM_SPSHED_SHED2 : Fld := ⟨15, 8⟩
def BM_SPSHED_SHED1 : Fld := ⟨7, 0⟩
def BM_SPKEY24_KEY : Fld := ⟨23, 0⟩
def BM_SPBANK_ACTIVE : Fld := ⟨1, 1⟩
def BM_SPBANK_SEL : Fld := ⟨0, 0⟩
def BM_SPCNTDROP_SAT : Fld := ⟨23, 23⟩
def BM_SPCNTDROP_COUNT : Fld := ⟨15, 0⟩
def BM_SPPXDROP_SAT : Fld := ⟨23, 23⟩
def BM_SPPXDROP_COUNT : Fld := ⟨15, 0⟩
def BM_SPSHEDCNT_SAT : Fld := ⟨23, 23⟩
def BM_SPSHEDCNT_COUNT : Fld := ⟨15, 0⟩
def BM_TL_CFG_PRIEN : Fld := ⟨12, 12⟩
def BM_TL_CFG_PRIPOS : Fld := ⟨11, 9⟩
def BM_TL_CFG_KEYEN : Fld := ⟨8, 8⟩
def BM_TL_CFG_Z0T : Fld := ⟨7, 7⟩
def BM_TL_CFG_MAPH : Fld := ⟨6, 5⟩
def BM_TL_CFG_MAPW : Fld := ⟨4, 3⟩
def BM_TL_CFG_DEPTH : Fld := ⟨2, 1⟩
def BM_TL_CFG_TSZ : Fld := ⟨0, 0⟩
def BM_TL_MAP_BASE : Fld := ⟨23, 0⟩
def BM_TL_TDATA_BASE : Fld := ⟨23, 0⟩
def BM_TL_ORGX_V : Fld := ⟨19, 0⟩
def BM_TL_ORGY_V : Fld := ⟨15, 0⟩
def BM_TL_SCX_V : Fld := ⟨11, 0⟩
def BM_TL_SCY_V : Fld := ⟨11, 0⟩
def BM_TL_EXTW_V : Fld := ⟨19, 0⟩
def BM_TL_EXTH_V : Fld := ⟨15, 0⟩
def BM_TL_KEY_KEY : Fld := ⟨23, 0⟩
def BM_SC_FMT_CBANK : Fld := ⟨12, 12⟩
def BM_SC_FMT_KEYEN : Fld := ⟨11, 11⟩
def BM_SC_FMT_RANGE : Fld := ⟨10, 10⟩
def BM_SC_FMT_MATRIX : Fld := ⟨9, 8⟩
def BM_SC_FMT_BITS : Fld := ⟨5, 5⟩
def BM_SC_FMT_CHROMA : Fld := ⟨4, 3⟩
def BM_SC_YBASE_V : Fld := ⟨23, 0⟩
def BM_SC_CBASE_V : Fld := ⟨23, 0⟩
def BM_SC_YSTRIDE_V : Fld := ⟨13, 0⟩
def BM_SC_CSTRIDE_V : Fld := ⟨13, 0⟩
def BM_SC_SRCX_V : Fld := ⟨12, 0⟩
def BM_SC_SRCY_V : Fld := ⟨12, 0⟩
def BM_SC_SRCW_V : Fld := ⟨13, 0⟩
def BM_SC_SRCH_V : Fld := ⟨13, 0⟩
def BM_SC_ORGX_V : Fld := ⟨19, 0⟩
def BM_SC_ORGY_V : Fld := ⟨15, 0⟩
def BM_SC_OUTW_V : Fld := ⟨19, 0⟩
def BM_SC_OUTH_V : Fld := ⟨15, 0⟩
def BM_SC_HSTEP_V : Fld := ⟨19, 0⟩
def BM_SC_VSTEP_V : Fld := ⟨19, 0⟩
def BM_SC_HINIT_V : Fld := ⟨19, 0⟩
def BM_SC_VINIT_V : Fld := ⟨19, 0⟩
def BM_SC_KEY_KEY : Fld := ⟨23, 0⟩
def BM_SC_STAT_ACTIVE : Fld := ⟨1, 1⟩
def BM_SC_STAT_SETOK : Fld := ⟨0, 0⟩
def BM_WR_CTRL_EXPBEN : Fld := ⟨3, 3⟩
def BM_WR_CTRL_CAP : Fld := ⟨2, 2⟩
def BM_WR_CTRL_MODE : Fld := ⟨1, 0⟩
def BM_WR_X_V : Fld := ⟨12, 0⟩
def BM_WR_Y_V : Fld := ⟨11, 0⟩
def BM_WR_W_V : Fld := ⟨13, 0⟩
def BM_WR_H_V : Fld := ⟨12, 0⟩
def BM_WR_EXPA_HI_V : Fld := ⟨7, 0⟩
def BM_WR_EXPA_LO_V : Fld := ⟨23, 0⟩
def BM_WR_EXPB_HI_V : Fld := ⟨7, 0⟩
def BM_WR_EXPB_LO_V : Fld := ⟨23, 0⟩
def BM_WR_CRC_HI_V : Fld := ⟨7, 0⟩
def BM_WR_CRC_LO_V : Fld := ⟨23, 0⟩
def BM_WR_STAT_SAT : Fld := ⟨23, 23⟩
def BM_WR_STAT_CAUSE : Fld := ⟨22, 20⟩
def BM_WR_STAT_COUNT : Fld := ⟨15, 0⟩
def BM_WR_CFRM_VALID : Fld := ⟨23, 23⟩
def BM_WR_CFRM_FRAME : Fld := ⟨15, 0⟩
def BM_PAL_RGB : Fld := ⟨23, 0⟩
def BM_SPT0_EN : Fld := ⟨23, 23⟩
def BM_SPT0_VFLIP : Fld := ⟨22, 22⟩
def BM_SPT0_HFLIP : Fld := ⟨21, 21⟩
def BM_SPT0_X : Fld := ⟨19, 0⟩
def BM_SPT1_KEEP : Fld := ⟨23, 23⟩
def BM_SPT1_SHED : Fld := ⟨22, 22⟩
def BM_SPT1_ALPHA : Fld := ⟨21, 16⟩
def BM_SPT1_Y : Fld := ⟨15, 0⟩
def BM_SPT2_W : Fld := ⟨23, 19⟩
def BM_SPT2_H : Fld := ⟨18, 14⟩
def BM_SPT2_TILE : Fld := ⟨13, 0⟩
def BM_SPT3_PAL : Fld := ⟨23, 15⟩
def BM_SPT3_KEYEN : Fld := ⟨14, 14⟩
def BM_SPT3_KEY : Fld := ⟨11, 0⟩
def BM_COEFH_TAP_EVEN : Fld := ⟨21, 12⟩
def BM_COEFH_TAP_ODD : Fld := ⟨9, 0⟩
def BM_COEFV_TAP_EVEN : Fld := ⟨21, 12⟩
def BM_COEFV_TAP_ODD : Fld := ⟨9, 0⟩

/-! AUD window -/
def AUD_CTRL_ZCTO : Fld := ⟨22, 16⟩
def AUD_CTRL_LNKLAT : Fld := ⟨15, 11⟩
def AUD_CTRL_AHEAD : Fld := ⟨10, 6⟩
def AUD_CTRL_DLEN : Fld := ⟨2, 2⟩
def AUD_CTRL_RATE : Fld := ⟨1, 1⟩
def AUD_CTRL_EN : Fld := ⟨0, 0⟩
def AUD_STAT_STATE : Fld := ⟨23, 22⟩
def AUD_STAT_PLLLK : Fld := ⟨21, 21⟩
def AUD_EVT_RECWRAP : Fld := ⟨10, 10⟩
def AUD_EVT_ERRSAT : Fld := ⟨9, 9⟩
def AUD_EVT_ERR : Fld := ⟨8, 8⟩
def AUD_EVT_STUCK : Fld := ⟨7, 7⟩
def AUD_EVT_AMBEDGE : Fld := ⟨6, 6⟩
def AUD_EVT_CLIP : Fld := ⟨5, 5⟩
def AUD_EVT_OVER : Fld := ⟨4, 4⟩
def AUD_EVT_UNDER : Fld := ⟨3, 3⟩
def AUD_EVT_SHFERR : Fld := ⟨2, 2⟩
def AUD_EVT_SHFDONE : Fld := ⟨1, 1⟩
def AUD_EVT_VEND : Fld := ⟨0, 0⟩
def AUD_ERRCNT_SAT : Fld := ⟨23, 23⟩
def AUD_ERRCNT_COUNT : Fld := ⟨15, 0⟩
def AUD_LASTERR_CAUSE : Fld := ⟨23, 20⟩
def AUD_LASTERR_OFS : Fld := ⟨15, 0⟩
def AUD_PHASE_PHASE : Fld := ⟨15, 0⟩
def AUD_SIDX_INDEX : Fld := ⟨23, 0⟩
def AUD_TOLCFG_MARGIN : Fld := ⟨7, 0⟩
def AUD_UNDCNT_SAT : Fld := ⟨23, 23⟩
def AUD_UNDCNT_COUNT : Fld := ⟨15, 0⟩
def AUD_OVRCNT_SAT : Fld := ⟨23, 23⟩
def AUD_OVRCNT_COUNT : Fld := ⟨15, 0⟩
def AUD_CLIPCNT_SAT : Fld := ⟨23, 23⟩
def AUD_CLIPCNT_COUNT : Fld := ⟨15, 0⟩
def AUD_LATECNT_SAT : Fld := ⟨23, 23⟩
def AUD_LATECNT_COUNT : Fld := ⟨15, 0⟩
def AUD_PDMCFG_EN : Fld := ⟨3, 0⟩
def AUD_DLBASE_BASE : Fld := ⟨23, 0⟩
def AUD_TDM_CFG_EN : Fld := ⟨23, 23⟩
def AUD_TDM_CFG_CBEN : Fld := ⟨4, 4⟩
def AUD_TDM_CFG_FSMODE : Fld := ⟨3, 3⟩
def AUD_TDM_CFG_DLY1 : Fld := ⟨2, 2⟩
def AUD_TDM_CFG_FSPOL : Fld := ⟨1, 1⟩
def AUD_TDM_CFG_BCLKPOL : Fld := ⟨0, 0⟩
def AUD_TDM_STAT_RUN : Fld := ⟨23, 23⟩
def AUD_TDM_STAT_STUCK : Fld := ⟨7, 0⟩
def AUD_LNKIN_EN : Fld := ⟨23, 23⟩
def AUD_LNKIN_SID : Fld := ⟨11, 0⟩
def AUD_LNKOUT_EN : Fld := ⟨23, 23⟩
def AUD_LNKOUT_SID : Fld := ⟨11, 0⟩
def AUD_AMB_CFG_EN : Fld := ⟨23, 23⟩
def AUD_AMB_CFG_SRC : Fld := ⟨22, 16⟩
def AUD_AMB_CFG_UPD : Fld := ⟨15, 8⟩
def AUD_AMB_CFG_GATE : Fld := ⟨7, 0⟩
def AUD_AMB_CAL_REF : Fld := ⟨23, 16⟩
def AUD_AMB_CAL_SLOPE : Fld := ⟨15, 8⟩
def AUD_AMB_CAL_STEP : Fld := ⟨7, 0⟩
def AUD_AMB_WIN_MIN : Fld := ⟨23, 16⟩
def AUD_AMB_WIN_MAX : Fld := ⟨15, 8⟩
def AUD_AMB_MASK0_MASK : Fld := ⟨23, 0⟩
def AUD_AMB_MASK1_MASK : Fld := ⟨23, 0⟩
def AUD_AMB_STAT_LEVEL : Fld := ⟨23, 16⟩
def AUD_AMB_STAT_OFFSET : Fld := ⟨15, 8⟩
def AUD_AMB_STAT_HELDLO : Fld := ⟨7, 7⟩
def AUD_AMB_STAT_HELDHI : Fld := ⟨6, 6⟩
def AUD_AMB_STAT_GATED : Fld := ⟨5, 5⟩
def AUD_AMB_EDGE_SAT : Fld := ⟨23, 23⟩
def AUD_AMB_EDGE_COUNT : Fld := ⟨15, 0⟩
def AUD_REC_BASE_BASE : Fld := ⟨23, 0⟩
def AUD_REC_LEN_LEN : Fld := ⟨23, 0⟩
def AUD_REC_CTRL_EN : Fld := ⟨23, 23⟩
def AUD_REC_CTRL_TEN : Fld := ⟨15, 15⟩
def AUD_REC_CTRL_TINE : Fld := ⟨13, 8⟩
def AUD_REC_PTR_PTR : Fld := ⟨23, 0⟩
def AUD_SHF_CTRL_CANCEL : Fld := ⟨2, 2⟩
def AUD_SHF_CTRL_ARM : Fld := ⟨1, 1⟩
def AUD_SHF_CTRL_GO : Fld := ⟨0, 0⟩
def AUD_SHF_BASE_BASE : Fld := ⟨23, 0⟩
def AUD_SHF_TGT_TGT : Fld := ⟨23, 0⟩
def AUD_SHF_STAT_STATE : Fld := ⟨23, 22⟩
def AUD_SHF_STAT_DONE : Fld := ⟨21, 21⟩
def AUD_SHF_STAT_REJ : Fld := ⟨20, 20⟩
def AUD_SHF_STAT_LATE : Fld := ⟨19, 19⟩
def AUD_SHF_STAT_ABORT : Fld := ⟨18, 18⟩
def AUD_SHF_STAT_SLIPCNT : Fld := ⟨15, 8⟩
def AUD_SHF_STAT_PHASE : Fld := ⟨7, 0⟩
def AUD_OUT_CFG_DEN : Fld := ⟨23, 23⟩
def AUD_OUT_CFG_DLY : Fld := ⟨15, 0⟩
def AUD_V_CTRL_REL : Fld := ⟨2, 2⟩
def AUD_V_CTRL_STOP : Fld := ⟨1, 1⟩
def AUD_V_CTRL_GO : Fld := ⟨0, 0⟩
def AUD_V_TRIG_TEN : Fld := ⟨15, 15⟩
def AUD_V_TRIG_TINE : Fld := ⟨13, 8⟩
def AUD_V_TRIG_EEN : Fld := ⟨7, 7⟩
def AUD_V_TRIG_ETINE : Fld := ⟨5, 0⟩
def AUD_V_CFG_MODE : Fld := ⟨1, 0⟩
def AUD_V_START_V : Fld := ⟨23, 0⟩
def AUD_V_LEN_V : Fld := ⟨23, 0⟩
def AUD_V_LOOPS_V : Fld := ⟨23, 0⟩
def AUD_V_LOOPE_V : Fld := ⟨23, 0⟩
def AUD_V_LOOPN_V : Fld := ⟨7, 0⟩
def AUD_V_STEP_V : Fld := ⟨19, 0⟩
def AUD_V_ENV_ATTACK : Fld := ⟨23, 16⟩
def AUD_V_ENV_DECAY : Fld := ⟨15, 0⟩
def AUD_V_STAT_STATE : Fld := ⟨23, 22⟩
def AUD_V_STAT_END : Fld := ⟨21, 21⟩
def AUD_V_STAT_OVR : Fld := ⟨20, 20⟩
def AUD_V_STAT_REJ : Fld := ⟨19, 19⟩
def AUD_V_POS_POS : Fld := ⟨23, 0⟩
def AUD_NODE_PEND : Fld := ⟨23, 23⟩
def AUD_NODE_GAIN : Fld := ⟨8, 0⟩

/-! SUP window -/
def SUP_EVT_FLAGS : Fld := ⟨15, 0⟩
def SUP_ERRCNT_SAT : Fld := ⟨23, 23⟩
def SUP_ERRCNT_COUNT : Fld := ⟨15, 0⟩
def SUP_LASTERR_CAUSE : Fld := ⟨23, 20⟩
def SUP_LASTERR_OFS : Fld := ⟨15, 0⟩
def SUP_STGBASE_PAGE : Fld := ⟨13, 0⟩
def SUP_STGCFG_HTO : Fld := ⟨23, 16⟩
def SUP_STGCFG_HQ : Fld := ⟨9, 8⟩
def SUP_STGCFG_SSLOT : Fld := ⟨2, 0⟩
def SUP_STGGO_GO : Fld := ⟨23, 23⟩
def SUP_STGGO_STOP : Fld := ⟨22, 22⟩
def SUP_STGGO_SLOT : Fld := ⟨5, 0⟩
def SUP_STGSTAT_PLAYING : Fld := ⟨23, 20⟩
def SUP_STGSTAT_PENDING : Fld := ⟨19, 11⟩
def SUP_STGSTAT_BUSY : Fld := ⟨10, 10⟩
def SUP_STGSTAT_SLOT : Fld := ⟨5, 0⟩
def SUP_NRCTRL_START : Fld := ⟨23, 23⟩
def SUP_NRCTRL_ABORT : Fld := ⟨22, 22⟩
def SUP_NRCTRL_TEN : Fld := ⟨7, 7⟩
def SUP_NRCTRL_STINE : Fld := ⟨5, 0⟩
def SUP_NRSTAT_STATE : Fld := ⟨23, 22⟩
def SUP_NRSTAT_OUTCOME : Fld := ⟨21, 20⟩
def SUP_NRSTAT_CH : Fld := ⟨4, 0⟩
def SUP_NRMASK0_MASK : Fld := ⟨23, 0⟩
def SUP_NRMASK1_MASK : Fld := ⟨7, 0⟩
def SUP_NRTIME_SETTLE : Fld := ⟨15, 8⟩
def SUP_NRTIME_INT : Fld := ⟨3, 0⟩
def SUP_NRAC_ACLVL : Fld := ⟨23, 16⟩
def SUP_NRAC_ACDUR : Fld := ⟨15, 8⟩
def SUP_NRAC_ACSNR : Fld := ⟨7, 0⟩
def SUP_NRNUM_NUM : Fld := ⟨15, 0⟩
def SUP_NRFAIL0_FAIL : Fld := ⟨23, 0⟩
def SUP_NRFAIL1_FAIL : Fld := ⟨7, 0⟩
def SUP_LOGBASE_PAGE : Fld := ⟨13, 0⟩
def SUP_LOGCFG_EN : Fld := ⟨23, 23⟩
def SUP_LOGCFG_LEN : Fld := ⟨10, 0⟩
def SUP_OV_CFG_EN : Fld := ⟨23, 23⟩
def SUP_OV_CFG_POLA : Fld := ⟨22, 22⟩
def SUP_OV_CFG_POLB : Fld := ⟨21, 21⟩
def SUP_OV_CFG_MSGEN : Fld := ⟨20, 20⟩
def SUP_OV_CFG_MSG : Fld := ⟨17, 12⟩
def SUP_OV_CFG_DISC : Fld := ⟨10, 0⟩
def SUP_OV_DEB_DEB : Fld := ⟨7, 0⟩
def SUP_OV_CTRL_CAP : Fld := ⟨1, 1⟩
def SUP_OV_CTRL_CLR : Fld := ⟨0, 0⟩
def SUP_OV_STAT_STATE : Fld := ⟨23, 22⟩
def SUP_OV_STAT_A : Fld := ⟨21, 21⟩
def SUP_OV_STAT_B : Fld := ⟨20, 20⟩
def SUP_OV_STAT_LATEDATE : Fld := ⟨19, 19⟩
def SUP_OV_FLTCNT_SAT : Fld := ⟨23, 23⟩
def SUP_OV_FLTCNT_COUNT : Fld := ⟨15, 0⟩
def SUP_OV_TS2_TS : Fld := ⟨15, 0⟩
def SUP_OV_TS1_TS : Fld := ⟨23, 0⟩
def SUP_OV_TS0_TS : Fld := ⟨23, 0⟩
def SUP_CH_CFG_VSRC : Fld := ⟨23, 18⟩
def SUP_CH_CFG_ISRC : Fld := ⟨17, 12⟩
def SUP_CH_CFG_PF : Fld := ⟨11, 0⟩
def SUP_CH_KZ_KZ : Fld := ⟨23, 0⟩
def SUP_CH_ZMIN_LIMIT : Fld := ⟨23, 0⟩
def SUP_CH_ZMAX_LIMIT : Fld := ⟨23, 0⟩
def SUP_CH_PHWIN_PHMIN : Fld := ⟨23, 12⟩
def SUP_CH_PHWIN_PHMAX : Fld := ⟨11, 0⟩
def SUP_CH_ACCFG_ACEN : Fld := ⟨23, 23⟩
def SUP_CH_ACCFG_MIC : Fld := ⟨22, 16⟩
def SUP_CH_ACCFG_ACMIN : Fld := ⟨15, 8⟩
def SUP_CH_ZMAG_ZMAG : Fld := ⟨23, 0⟩
def SUP_CH_RES_ZST : Fld := ⟨23, 20⟩
def SUP_CH_RES_ACST : Fld := ⟨19, 16⟩
def SUP_CH_RES_ZPH : Fld := ⟨11, 0⟩
def SUP_CH_ACRES_LEVEL : Fld := ⟨15, 8⟩
def SUP_CH_ACRES_SNR : Fld := ⟨7, 0⟩

/-! LNK window -/
def LNK_CTRL_ROLE : Fld := ⟨23, 21⟩
def LNK_CTRL_SPF : Fld := ⟨20, 18⟩
def LNK_CTRL_FWDEN : Fld := ⟨17, 17⟩
def LNK_CTRL_BEAT : Fld := ⟨15, 8⟩
def LNK_CTRL_MISS : Fld := ⟨7, 4⟩
def LNK_STAT_JOINED : Fld := ⟨23, 23⟩
def LNK_STAT_MGRSEEN : Fld := ⟨22, 22⟩
def LNK_STAT_ISOLATED : Fld := ⟨21, 21⟩
def LNK_STAT_EPOCH : Fld := ⟨7, 0⟩
def LNK_EVT_FLAGS : Fld := ⟨13, 0⟩
def LNK_ERRCNT_SAT : Fld := ⟨23, 23⟩
def LNK_ERRCNT_COUNT : Fld := ⟨15, 0⟩
def LNK_LASTERR_CAUSE : Fld := ⟨23, 20⟩
def LNK_LASTERR_LANE : Fld := ⟨2, 0⟩
def LNK_ADDR_VALID : Fld := ⟨23, 23⟩
def LNK_ADDR_A0 : Fld := ⟨22, 22⟩
def LNK_ADDR_ADDR : Fld := ⟨10, 0⟩
def LNK_RINGCFG_EAST : Fld := ⟨23, 21⟩
def LNK_RINGCFG_WEST : Fld := ⟨20, 18⟩
def LNK_RINGCFG_RINGEN : Fld := ⟨17, 17⟩
def LNK_RINGCFG_TEAST : Fld := ⟨15, 13⟩
def LNK_RINGCFG_TWEST : Fld := ⟨12, 10⟩
def LNK_RINGCFG_TRINGEN : Fld := ⟨9, 9⟩
def LNK_RINGSTAT_EASTUP : Fld := ⟨23, 23⟩
def LNK_RINGSTAT_WESTUP : Fld := ⟨22, 22⟩
def LNK_RINGSTAT_CUT : Fld := ⟨21, 21⟩
def LNK_RINGSTAT_TEASTUP : Fld := ⟨20, 20⟩
def LNK_RINGSTAT_TWESTUP : Fld := ⟨19, 19⟩
def LNK_RINGSTAT_TCUT : Fld := ⟨18, 18⟩
def LNK_RINGSTAT_TDIR : Fld := ⟨17, 17⟩
def LNK_RINGSTAT_THOPS : Fld := ⟨15, 8⟩
def LNK_RINGSTAT_POS : Fld := ⟨7, 0⟩
def LNK_MGRCFG_STBY : Fld := ⟨23, 23⟩
def LNK_MGRCFG_STBYADDR : Fld := ⟨22, 12⟩
def LNK_MGRCFG_MGRTO : Fld := ⟨11, 0⟩
def LNK_REFCFG_PRI0 : Fld := ⟨23, 22⟩
def LNK_REFCFG_PRI1 : Fld := ⟨21, 20⟩
def LNK_REFCFG_PRI2 : Fld := ⟨19, 18⟩
def LNK_REFCFG_PRI3 : Fld := ⟨17, 16⟩
def LNK_REFCFG_QUAL : Fld := ⟨15, 8⟩
def LNK_REFCFG_GLKEN : Fld := ⟨7, 7⟩
def LNK_REFCFG_PTPEN : Fld := ⟨6, 6⟩
def LNK_REFCFG_LNKEN : Fld := ⟨5, 5⟩
def LNK_REFCFG_TLANE : Fld := ⟨4, 2⟩
def LNK_REFSTAT_REF : Fld := ⟨23, 22⟩
def LNK_REFSTAT_TARGET : Fld := ⟨21, 20⟩
def LNK_REFSTAT_SLEW : Fld := ⟨19, 19⟩
def LNK_REFSTAT_QUALIFIED : Fld := ⟨18, 15⟩
def LNK_REFOFS_OFFSET : Fld := ⟨23, 0⟩
def LNK_PTPCFG_DOMAIN : Fld := ⟨23, 16⟩
def LNK_PTPCFG_LANE : Fld := ⟨15, 13⟩
def LNK_PTPCFG_EN : Fld := ⟨12, 12⟩
def LNK_GLKREF_FRNUM : Fld := ⟨23, 12⟩
def LNK_GLKREF_FRDEN : Fld := ⟨11, 0⟩
def LNK_DUPCNT_SAT : Fld := ⟨23, 23⟩
def LNK_DUPCNT_COUNT : Fld := ⟨15, 0⟩
def LNK_BADCNT_SAT : Fld := ⟨23, 23⟩
def LNK_BADCNT_COUNT : Fld := ⟨15, 0⟩
def LNK_TDMCAP_PRESENT : Fld := ⟨23, 23⟩
def LNK_TDMCAP_HI96 : Fld := ⟨22, 22⟩
def LNK_TDMCAP_CH : Fld := ⟨19, 16⟩
def LNK_TDMCAP_VSNS : Fld := ⟨15, 8⟩
def LNK_TDMCAP_ISNS : Fld := ⟨7, 0⟩
def LNK_RTCMT_GO : Fld := ⟨23, 23⟩
def LNK_RTCMT_PEND : Fld := ⟨22, 22⟩
def LNK_L_CFG_EN : Fld := ⟨23, 23⟩
def LNK_L_CFG_MODE : Fld := ⟨22, 21⟩
def LNK_L_CFG_MAXRATE : Fld := ⟨20, 19⟩
def LNK_L_CFG_FEC : Fld := ⟨18, 17⟩
def LNK_L_CFG_BOND : Fld := ⟨16, 16⟩
def LNK_L_CFG_ETHOK : Fld := ⟨15, 15⟩
def LNK_L_CFG_BEAM : Fld := ⟨14, 14⟩
def LNK_L_STAT_MODE : Fld := ⟨23, 22⟩
def LNK_L_STAT_RATE : Fld := ⟨21, 20⟩
def LNK_L_STAT_FEC : Fld := ⟨19, 19⟩
def LNK_L_STAT_BOND : Fld := ⟨18, 18⟩
def LNK_L_STAT_BLOCK : Fld := ⟨17, 17⟩
def LNK_L_STAT_AUTH : Fld := ⟨16, 16⟩
def LNK_L_STAT_NSTATE : Fld := ⟨15, 12⟩
def LNK_L_EVT_ERRSAT : Fld := ⟨4, 4⟩
def LNK_L_EVT_FECUNC : Fld := ⟨3, 3⟩
def LNK_L_EVT_NEGFAIL : Fld := ⟨2, 2⟩
def LNK_L_EVT_DOWN : Fld := ⟨1, 1⟩
def LNK_L_EVT_UP : Fld := ⟨0, 0⟩
def LNK_L_ERRCNT_SAT : Fld := ⟨23, 23⟩
def LNK_L_ERRCNT_COUNT : Fld := ⟨15, 0⟩
def LNK_L_FECCNT_SAT : Fld := ⟨23, 23⟩
def LNK_L_FECCNT_COUNT : Fld := ⟨15, 0⟩
def LNK_L_CAP_PARTNER : Fld := ⟨23, 12⟩
def LNK_L_CAP_ADDR : Fld := ⟨10, 0⟩
def LNK_L_DELAY_DELAY : Fld := ⟨23, 0⟩
def LNK_L_ASYM_ASYM : Fld := ⟨15, 0⟩
def LNK_RT_DUAL : Fld := ⟨23, 23⟩
def LNK_RT_EN : Fld := ⟨22, 22⟩
def LNK_RT_LANES : Fld := ⟨19, 12⟩
def LNK_RT_SID : Fld := ⟨11, 0⟩

/-! SEC window -/
def SEC_DEVID_DEVID : Fld := ⟨23, 0⟩
def SEC_CTRL_OPFW : Fld := ⟨0, 0⟩
def SEC_STAT_BOOTSLOT : Fld := ⟨23, 23⟩
def SEC_STAT_BOOTALT : Fld := ⟨22, 22⟩
def SEC_STAT_OPSET : Fld := ⟨21, 21⟩
def SEC_STAT_RECOV : Fld := ⟨20, 20⟩
def SEC_EVT_ERRSAT : Fld := ⟨2, 2⟩
def SEC_EVT_AUTHERR : Fld := ⟨1, 1⟩
def SEC_EVT_OPDONE : Fld := ⟨0, 0⟩
def SEC_ERRCNT_SAT : Fld := ⟨23, 23⟩
def SEC_ERRCNT_COUNT : Fld := ⟨15, 0⟩
def SEC_ARB_ARB : Fld := ⟨15, 0⟩
def SEC_PKGEN_INC : Fld := ⟨23, 23⟩
def SEC_PKGEN_GEN : Fld := ⟨15, 0⟩
def SEC_OP_CTRL_GO : Fld := ⟨23, 23⟩
def SEC_OP_CTRL_BUSY : Fld := ⟨22, 22⟩
def SEC_OP_CTRL_RES : Fld := ⟨21, 20⟩
def SEC_OP_CTRL_OP : Fld := ⟨1, 0⟩
def SEC_OP_SRC_BASE : Fld := ⟨23, 0⟩
def SEC_OP_DST_BASE : Fld := ⟨23, 0⟩
def SEC_OP_LEN_LEN : Fld := ⟨15, 0⟩
def SEC_PUBKEY_V : Fld := ⟨23, 0⟩
def SEC_OPROOT_V : Fld := ⟨23, 0⟩

/-! GRN window -/
def GRN_CMD_GO : Fld := ⟨23, 23⟩
def GRN_CMD_PAGE : Fld := ⟨13, 0⟩
def GRN_STAT_BUSY : Fld := ⟨23, 23⟩
def GRN_STAT_QUEUED : Fld := ⟨22, 22⟩
def GRN_EVT_ERRSAT : Fld := ⟨2, 2⟩
def GRN_EVT_ERR : Fld := ⟨1, 1⟩
def GRN_EVT_DONE : Fld := ⟨0, 0⟩
def GRN_ERRCNT_SAT : Fld := ⟨23, 23⟩
def GRN_ERRCNT_CAUSE : Fld := ⟨22, 20⟩
def GRN_ERRCNT_COUNT : Fld := ⟨15, 0⟩
def GRN_IMGSEL_ACT : Fld := ⟨0, 0⟩
def GRN_BUF_DATA : Fld := ⟨23, 0⟩

/-! GPO window -/
def GPO_ERRCNT_SAT : Fld := ⟨23, 23⟩
def GPO_ERRCNT_COUNT : Fld := ⟨15, 0⟩
def GPO_LASTERR_CAUSE : Fld := ⟨23, 20⟩
def GPO_LASTERR_PIN : Fld := ⟨5, 0⟩
def GPO_IN_LEVEL : Fld := ⟨23, 0⟩
def GPO_OUT_OUT : Fld := ⟨23, 0⟩
def GPO_OUTSET_BITS : Fld := ⟨23, 0⟩
def GPO_OUTCLR_BITS : Fld := ⟨23, 0⟩
def GPO_EVT_EVT : Fld := ⟨23, 0⟩
def GPO_SECMASK_MASK : Fld := ⟨23, 0⟩
def GPO_PIN_CFG_FUNC : Fld := ⟨23, 23⟩
def GPO_PIN_CFG_OE : Fld := ⟨22, 22⟩
def GPO_PIN_CFG_PULL : Fld := ⟨21, 20⟩
def GPO_PIN_CFG_DRV : Fld := ⟨19, 19⟩
def GPO_PIN_CFG_OWNK : Fld := ⟨18, 18⟩
def GPO_PIN_CFG_CORE : Fld := ⟨17, 14⟩
def GPO_PIN_CFG_IRQM : Fld := ⟨13, 12⟩
def GPO_PIN_CFG_DEB : Fld := ⟨7, 0⟩

/-! PWR window -/
def PWR_STATECMD_TARGET : Fld := ⟨23, 22⟩
def PWR_STATECMD_KEEP : Fld := ⟨3, 0⟩
def PWR_STAT_STATE : Fld := ⟨23, 22⟩
def PWR_STAT_BUSY : Fld := ⟨21, 21⟩
def PWR_STAT_ABORTED : Fld := ⟨20, 20⟩
def PWR_STAT_WAKECAUSE : Fld := ⟨19, 16⟩
def PWR_STAT_XOK : Fld := ⟨15, 15⟩
def PWR_RSTCAUSE_POR : Fld := ⟨23, 23⟩
def PWR_RSTCAUSE_EXT : Fld := ⟨22, 22⟩
def PWR_RSTCAUSE_BROWN : Fld := ⟨21, 21⟩
def PWR_RSTCAUSE_THERM : Fld := ⟨20, 20⟩
def PWR_RSTCAUSE_SYSCMD : Fld := ⟨19, 19⟩
def PWR_RSTCAUSE_DEBUG : Fld := ⟨18, 18⟩
def PWR_RSTCAUSE_WAKE : Fld := ⟨17, 17⟩
def PWR_WAKECFG_OVR : Fld := ⟨23, 23⟩
def PWR_WAKECFG_ACW : Fld := ⟨22, 22⟩
def PWR_WAKECFG_TMR : Fld := ⟨21, 21⟩
def PWR_WAKECFG_LANE : Fld := ⟨20, 20⟩
def PWR_WAKECFG_LANES : Fld := ⟨15, 8⟩
def PWR_WAKECFG_PINS : Fld := ⟨7, 0⟩
def PWR_WAKETMR_SECONDS : Fld := ⟨23, 0⟩
def PWR_EVT_BOOT : Fld := ⟨7, 7⟩
def PWR_EVT_ERRSAT : Fld := ⟨6, 6⟩
def PWR_EVT_ERR : Fld := ⟨5, 5⟩
def PWR_EVT_ABORT : Fld := ⟨4, 4⟩
def PWR_EVT_VREQERR : Fld := ⟨3, 3⟩
def PWR_EVT_VCAP : Fld := ⟨2, 2⟩
def PWR_EVT_THERM : Fld := ⟨1, 1⟩
def PWR_EVT_WAKE : Fld := ⟨0, 0⟩
def PWR_ERRCNT_SAT : Fld := ⟨23, 23⟩
def PWR_ERRCNT_COUNT : Fld := ⟨15, 0⟩
def PWR_LASTERR_CAUSE : Fld := ⟨23, 20⟩
def PWR_LASTERR_DOMAIN : Fld := ⟨4, 0⟩
def PWR_DOMCTRL_ON : Fld := ⟨19, 0⟩
def PWR_DOMSTAT_ON : Fld := ⟨19, 0⟩
def PWR_RSTCMD_SYS : Fld := ⟨23, 23⟩
def PWR_VLOOP_EN : Fld := ⟨23, 23⟩
def PWR_VLOOP_ESAVE : Fld := ⟨22, 22⟩
def PWR_VLOOP_DOWNWIN : Fld := ⟨21, 18⟩
def PWR_VLOOP_HIGHSLACK : Fld := ⟨15, 8⟩
def PWR_VLOOP_LOWSLACK : Fld := ⟨7, 0⟩
def PWR_VCEIL_CODE : Fld := ⟨5, 0⟩
def PWR_VFLOOR_CODE : Fld := ⟨5, 0⟩
def PWR_VSTAT_REQ : Fld := ⟨23, 18⟩
def PWR_VSTAT_ACKED : Fld := ⟨17, 12⟩
def PWR_VSTAT_THERM : Fld := ⟨11, 6⟩
def PWR_VSTAT_CAPPED : Fld := ⟨5, 5⟩
def PWR_VCAPCNT_SAT : Fld := ⟨23, 23⟩
def PWR_VCAPCNT_COUNT : Fld := ⟨15, 0⟩
def PWR_TEMP_TEMP : Fld := ⟨9, 0⟩

/-! DBG window -/
def DBG_CTRL_SESSION : Fld := ⟨23, 23⟩
def DBG_CTRL_CUR : Fld := ⟨2, 2⟩
def DBG_CTRL_LOCK : Fld := ⟨1, 0⟩
def DBG_EVT_ERRSAT : Fld := ⟨3, 3⟩
def DBG_EVT_ERR : Fld := ⟨2, 2⟩
def DBG_EVT_SESSION : Fld := ⟨1, 1⟩
def DBG_EVT_HALT : Fld := ⟨0, 0⟩
def DBG_ERRCNT_SAT : Fld := ⟨23, 23⟩
def DBG_ERRCNT_COUNT : Fld := ⟨15, 0⟩
def DBG_LASTERR_CAUSE : Fld := ⟨23, 20⟩
def DBG_HALT_HALT : Fld := ⟨16, 0⟩
def DBG_RESUME_RESUME : Fld := ⟨16, 0⟩
def DBG_HALTED_HALTED : Fld := ⟨16, 0⟩
def DBG_FRZSRC_SRC : Fld := ⟨16, 0⟩
def DBG_FRZ_BLOCKS : Fld := ⟨7, 0⟩
def DBG_SYSRST_GO : Fld := ⟨23, 23⟩
def DBG_PR_CTRL_MASKI : Fld := ⟨1, 1⟩
def DBG_PR_CTRL_STEP : Fld := ⟨0, 0⟩
def DBG_PR_STAT_WHY : Fld := ⟨23, 20⟩
def DBG_PR_STAT_CMP : Fld := ⟨19, 17⟩
def DBG_PR_STAT_DS : Fld := ⟨16, 16⟩
def DBG_PR_PC_PC : Fld := ⟨23, 0⟩
def DBG_PR_RSEL_SEL : Fld := ⟨8, 0⟩
def DBG_PR_RDATA_DATA : Fld := ⟨23, 0⟩
def DBG_CMP_CFG_EN : Fld := ⟨23, 23⟩
def DBG_CMP_CFG_KIND : Fld := ⟨22, 21⟩
def DBG_CMP_CFG_ACTION : Fld := ⟨20, 19⟩
def DBG_CMP_CFG_USER : Fld := ⟨18, 18⟩
def DBG_CMP_CFG_ASEG : Fld := ⟨17, 14⟩
def DBG_CMP_CFG_TINE : Fld := ⟨13, 8⟩
def DBG_CMP_CFG_COUNT : Fld := ⟨7, 0⟩
def DBG_CMP_ADDR_ADDR : Fld := ⟨23, 0⟩
def DBG_CMP_MASK_MASK : Fld := ⟨23, 0⟩

/-! GLN window -/
def GLN_CTRL_EN : Fld := ⟨23, 23⟩
def GLN_CTRL_TEN : Fld := ⟨15, 15⟩
def GLN_CTRL_TINE : Fld := ⟨13, 8⟩
def GLN_IVL_INTERVAL : Fld := ⟨23, 0⟩
def GLN_UMASK_UNITS : Fld := ⟨23, 0⟩
def GLN_BASE_BASE : Fld := ⟨23, 0⟩
def GLN_LEN_LEN : Fld := ⟨15, 0⟩
def GLN_STAT_BUSY : Fld := ⟨23, 23⟩
def GLN_STAT_SEQ : Fld := ⟨15, 0⟩
def GLN_EVT_ERRSAT : Fld := ⟨6, 6⟩
def GLN_EVT_ERR : Fld := ⟨5, 5⟩
def GLN_EVT_SMPHALF : Fld := ⟨4, 4⟩
def GLN_EVT_OVF : Fld := ⟨3, 3⟩
def GLN_EVT_SKIP : Fld := ⟨2, 2⟩
def GLN_EVT_WRAP : Fld := ⟨1, 1⟩
def GLN_EVT_SNAP : Fld := ⟨0, 0⟩
def GLN_ERRCNT_SAT : Fld := ⟨23, 23⟩
def GLN_ERRCNT_COUNT : Fld := ⟨15, 0⟩
def GLN_LASTERR_CAUSE : Fld := ⟨23, 20⟩
def GLN_LASTERR_UNIT : Fld := ⟨4, 0⟩
def GLN_SKIPCNT_SAT : Fld := ⟨23, 23⟩
def GLN_SKIPCNT_COUNT : Fld := ⟨15, 0⟩
def GLN_UREAD_PLOTS : Fld := ⟨7, 0⟩
def GLN_CAPCMD_GO : Fld := ⟨23, 23⟩
def GLN_CAPCMD_UNIT : Fld := ⟨4, 0⟩
def GLN_CNT_COUNT : Fld := ⟨23, 0⟩
def GLN_CCFG_EN : Fld := ⟨23, 23⟩
def GLN_CCFG_CHAIN : Fld := ⟨22, 22⟩
def GLN_CCFG_OVF : Fld := ⟨21, 21⟩
def GLN_CCFG_EVT : Fld := ⟨7, 0⟩
def GLN_CCAP_COUNT : Fld := ⟨23, 0⟩
def GLN_SMP_CFG_EN : Fld := ⟨23, 23⟩
def GLN_SMP_CFG_PERIOD : Fld := ⟨15, 0⟩
def GLN_SMP_STAT_LOST : Fld := ⟨23, 8⟩
def GLN_SMP_STAT_FILL : Fld := ⟨5, 0⟩
def GLN_SMP_DATA_DATA : Fld := ⟨23, 0⟩

/-! FAB window -/
def FAB_CTRL_SLPEN : Fld := ⟨1, 1⟩
def FAB_CTRL_FMEN : Fld := ⟨0, 0⟩
def FAB_STAT_HOTREF : Fld := ⟨4, 4⟩
def FAB_STAT_TOLLOW : Fld := ⟨3, 3⟩
def FAB_STAT_FENCING : Fld := ⟨2, 2⟩
def FAB_STAT_INIT : Fld := ⟨1, 1⟩
def FAB_STAT_READY : Fld := ⟨0, 0⟩
def FAB_EVT_ERRSAT : Fld := ⟨7, 7⟩
def FAB_EVT_FENCEDONE : Fld := ⟨6, 6⟩
def FAB_EVT_SEMBRK : Fld := ⟨5, 5⟩
def FAB_EVT_CRDERR : Fld := ⟨4, 4⟩
def FAB_EVT_HOTREF : Fld := ⟨3, 3⟩
def FAB_EVT_BEAMLATE : Fld := ⟨2, 2⟩
def FAB_EVT_DECERR : Fld := ⟨1, 1⟩
def FAB_EVT_HSTO : Fld := ⟨0, 0⟩
def FAB_MAPCFG_ILV : Fld := ⟨0, 0⟩
def FAB_ERRCNT_SAT : Fld := ⟨23, 23⟩
def FAB_ERRCNT_COUNT : Fld := ⟨15, 0⟩
def FAB_HSTO_SAT : Fld := ⟨23, 23⟩
def FAB_HSTO_LASTPORT : Fld := ⟨21, 16⟩
def FAB_HSTO_COUNT : Fld := ⟨15, 0⟩
def FAB_DECERR_SAT : Fld := ⟨23, 23⟩
def FAB_DECERR_LASTREQ : Fld := ⟨20, 16⟩
def FAB_DECERR_COUNT : Fld := ⟨15, 0⟩
def FAB_DECADDR_HI_ADDR_HI : Fld := ⟨3, 0⟩
def FAB_DECADDR_LO_ADDR_LO : Fld := ⟨23, 0⟩
def FAB_PACE_CYCLES : Fld := ⟨15, 0⟩
def FAB_REFCFG_FORCE2X : Fld := ⟨0, 0⟩
def FAB_SLPCFG_GUARD : Fld := ⟨15, 8⟩
def FAB_SLPCFG_IDLE : Fld := ⟨7, 0⟩
def FAB_TOL_TOL : Fld := ⟨15, 0⟩
def FAB_TOLDECL_TOL : Fld := ⟨15, 0⟩
def FAB_BANKSLP_SLEEP : Fld := ⟨15, 0⟩
def FAB_TAGUSE_INUSE : Fld := ⟨14, 0⟩
def FAB_TAGPEAK_CLR : Fld := ⟨23, 23⟩
def FAB_TAGPEAK_PEAK : Fld := ⟨14, 0⟩
def FAB_BEAMSHARE_URGENT : Fld := ⟨11, 4⟩
def FAB_BEAMSHARE_SHARE : Fld := ⟨3, 0⟩
def FAB_FENCE_REL : Fld := ⟨23, 16⟩
def FAB_FENCE_DONE : Fld := ⟨15, 8⟩
def FAB_FENCE_REQ : Fld := ⟨7, 0⟩
def FAB_FENCETO_TIME : Fld := ⟨15, 0⟩
def FAB_CRD_LIMIT : Fld := ⟨23, 12⟩
def FAB_CRD_GUAR : Fld := ⟨11, 0⟩
def FAB_CUSE_INUSE : Fld := ⟨14, 0⟩
def FAB_QOS_WEIGHT : Fld := ⟨7, 0⟩
def FAB_PLOTOUT_OUT : Fld := ⟨14, 0⟩
def FAB_SEMACL_WAITERS : Fld := ⟨23, 16⟩
def FAB_SEMACL_BRK : Fld := ⟨15, 15⟩
def FAB_SEMACL_TEN : Fld := ⟨14, 14⟩
def FAB_SEMACL_TINE : Fld := ⟨13, 8⟩
def FAB_SEMACL_PLOTS : Fld := ⟨7, 0⟩
def FAB_SEMNOTE_NOTE : Fld := ⟨23, 0⟩
def FAB_SEMV_HOLDREQ : Fld := ⟨20, 16⟩
def FAB_SEMV_HOLDPLOT : Fld := ⟨10, 8⟩
def FAB_SEMV_CLRBRK : Fld := ⟨2, 2⟩
def FAB_SEMV_WAIT : Fld := ⟨1, 1⟩
def FAB_SEMV_REL : Fld := ⟨0, 0⟩

/-! ACW window -/
def ACW_CTRL_EN : Fld := ⟨23, 23⟩
def ACW_CTRL_MIC : Fld := ⟨21, 20⟩
def ACW_CTRL_GATE : Fld := ⟨15, 8⟩
def ACW_STAT_PEND : Fld := ⟨23, 23⟩
def ACW_STAT_CLKSRC : Fld := ⟨22, 22⟩
def ACW_EVT_ERRSAT : Fld := ⟨3, 3⟩
def ACW_EVT_FWRAP : Fld := ⟨2, 2⟩
def ACW_EVT_ENR : Fld := ⟨1, 1⟩
def ACW_EVT_MATCH : Fld := ⟨0, 0⟩
def ACW_ERRCNT_SAT : Fld := ⟨23, 23⟩
def ACW_ERRCNT_CAUSE : Fld := ⟨22, 20⟩
def ACW_ERRCNT_COUNT : Fld := ⟨15, 0⟩
def ACW_MATCH_SIG : Fld := ⟨23, 22⟩
def ACW_MATCH_MODE : Fld := ⟨21, 20⟩
def ACW_MATCH_SPAN : Fld := ⟨14, 8⟩
def ACW_MATCH_SCORE : Fld := ⟨7, 0⟩
def ACW_MEND_FRAME : Fld := ⟨23, 0⟩
def ACW_FCNT_FRAME : Fld := ⟨23, 0⟩
def ACW_SIG_CFG_EN : Fld := ⟨23, 23⟩
def ACW_SIG_CFG_TYPE : Fld := ⟨22, 22⟩
def ACW_SIG_CFG_WAKE : Fld := ⟨21, 21⟩
def ACW_SIG_CFG_EVT : Fld := ⟨20, 20⟩
def ACW_SIG_CFG_LEN : Fld := ⟨14, 8⟩
def ACW_SIG_CFG_THR : Fld := ⟨7, 0⟩
def ACW_SIG_CTRL_ENROL : Fld := ⟨0, 0⟩
def ACW_TPL_DATA : Fld := ⟨23, 0⟩
end Fd

/-! ## The tables -/
namespace Map

/-- A live field. -/
def fl (hi lo : Nat) (acc : Acc) (reset : Nat) : FieldSpec := ⟨hi, lo, acc, reset, false⟩
/-- A Locked field (R6). -/
def fk (hi lo : Nat) (acc : Acc) (reset : Nat) : FieldSpec := ⟨hi, lo, acc, reset, true⟩

/-- Rows of the STW window's map. -/
def tabSTW0 : List RegSpec := [
  ⟨0x0, [], [fl 23 16 .ro 0, fl 15 0 .ro 0]⟩,
  ⟨0x1, [], [fl 23 16 .rw 0, fl 15 0 .rw 0]⟩,
  ⟨0x2, [], [fl 23 23 .ro 0, fl 22 22 .ro 0, fl 21 21 .ro 0, fl 20 20 .ro 0, fl 19 19 .ro 0, fl 18 18 .w1c 0, fl 17 17 .w1c 0]⟩,
  ⟨0x3, [], [fl 23 23 .wo 0, fl 22 22 .wo 0, fl 21 21 .rw 0]⟩,
  ⟨0x4, [], [fl 12 0 .rw 0]⟩,
  ⟨0x5, [], [fl 23 0 .rw 0]⟩,
  ⟨0x6, [], [fl 9 0 .rw 0x3E8]⟩,
  ⟨0x7, [], [fl 23 23 .sat 0, fl 15 0 .ro 0]⟩,
  ⟨0x8, [], [fl 23 21 .ro 0, fl 20 13 .ro 0, fl 12 0 .ro 0]⟩,
  ⟨0x9, [], [fl 23 23 .w1c 0, fl 22 19 .ro 0, fl 18 18 .ro 0, fl 17 14 .ro 0, fl 13 0 .ro 0]⟩,
  ⟨0xA, [], [fl 23 0 .ro 0]⟩,
  ⟨0xB, [], [fl 23 23 .sat 0, fl 15 0 .ro 0]⟩,
  ⟨0x100, [(16, 0x4)], [fl 23 23 .rw 0, fk 18 16 .rw 0, fk 14 0 .rw 0]⟩,
  ⟨0x101, [(16, 0x4)], [fl 4 0 .rw 0]⟩,
  ⟨0x102, [(16, 0x4)], [fl 4 0 .rw 0]⟩,
  ⟨0x103, [(16, 0x4)], [fl 23 23 .ro 0, fl 4 0 .ro 0]⟩]

/-- The STW window's map. -/
def tabSTW : List RegSpec :=
  tabSTW0

/-- Rows of the PLT window's map. -/
def tabPLT0 : List RegSpec := [
  ⟨0x0, [], [fl 23 21 .wo 0, fl 2 0 .wo 0]⟩,
  ⟨0x1, [], [fl 23 23 .sat 0, fl 15 0 .ro 0]⟩,
  ⟨0x8, [(8, 0x1)], [fl 23 22 .ro 0]⟩,
  ⟨0x10, [(8, 0x1)], [fl 23 0 .rw 0]⟩,
  ⟨0x18, [(8, 0x1)], [fl 23 23 .sat 0, fl 15 0 .ro 0]⟩,
  ⟨0x20, [(8, 0x1)], [fl 9 5 .rw 0, fl 4 0 .rw 0]⟩,
  ⟨0x800, [(384, 0x1)], [fl 4 4 .rw 0, fl 2 0 .rw 0]⟩,
  ⟨0x1000, [(20, 0x80), (128, 0x1)], [fl 2 0 .rw 0]⟩,
  ⟨0x2000, [(8, 0x100), (256, 0x1)], [fl 23 23 .rw 0, fl 22 22 .rw 0, fl 21 21 .rw 0, fl 20 20 .rw 0, fl 19 19 .rw 0, fl 18 18 .rw 0, fl 11 0 .rw 0]⟩]

/-- The PLT window's map. -/
def tabPLT : List RegSpec :=
  tabPLT0

/-- Rows of the IRQ window's map. -/
def tabIRQ0 : List RegSpec := [
  ⟨0x0, [(256, 0x1)], [fl 23 23 .rw 0, fl 22 22 .rw 0, fl 21 21 .ro 0, fl 20 20 .ro 0, fl 11 8 .rw 0, fl 4 0 .rw 0x10]⟩,
  ⟨0x100, [(8, 0x1)], [fl 23 23 .rw 0, fl 21 21 .ro 0, fl 20 20 .ro 0, fl 11 8 .rw 0, fl 4 0 .rw 0x10]⟩,
  ⟨0x110, [(16, 0x1)], [fl 23 12 .rw 0, fl 7 0 .rw 2]⟩,
  ⟨0x120, [], [fl 23 23 .sat 0, fl 15 0 .ro 0]⟩,
  ⟨0x121, [], [fl 23 20 .ro 0, fl 7 0 .ro 0]⟩,
  ⟨0x130, [(16, 0x1)], [fl 1 1 .wo 0, fl 0 0 .w1s 0]⟩,
  ⟨0x200, [(17, 0x20)], [fl 3 0 .rw 0]⟩,
  ⟨0x201, [(17, 0x20)], [fl 23 23 .ro 0, fl 3 0 .ro 0]⟩,
  ⟨0x202, [(17, 0x20)], [fl 23 20 .ro 0, fl 15 1 .ro 0]⟩,
  ⟨0x203, [(17, 0x20)], [fl 23 23 .wo 0, fl 22 22 .wo 0, fl 7 0 .wo 0]⟩,
  ⟨0x204, [(17, 0x20), (11, 0x1)], [fl 23 0 .ro 0]⟩]

/-- The IRQ window's map. -/
def tabIRQ : List RegSpec :=
  tabIRQ0

/-- Rows of the TIN window's map. -/
def tabTIN0 : List RegSpec := [
  ⟨0x0, [], [fl 23 23 .sat 0, fl 15 0 .ro 0]⟩,
  ⟨0x1, [], [fl 23 20 .ro 0, fl 2 0 .ro 0]⟩,
  ⟨0x2, [(3, 0x1)], [fl 23 0 .w1c 0]⟩,
  ⟨0x10, [(16, 0x1)], [fl 23 23 .rw 0, fl 22 22 .rw 0, fl 21 16 .rw 0, fl 13 8 .rw 0, fl 7 7 .rw 0, fl 5 0 .rw 0]⟩,
  ⟨0x40, [(64, 0x1)], [fl 7 0 .rw 1]⟩,
  ⟨0x80, [(8, 0x1)], [fl 23 23 .wo 0, fl 5 0 .wo 0]⟩,
  ⟨0x100, [(8, 0x4), (3, 0x1)], [fl 23 0 .w1c 0]⟩]

/-- The TIN window's map. -/
def tabTIN : List RegSpec :=
  tabTIN0

/-- Rows of the TMR window's map. -/
def tabTMR0 : List RegSpec := [
  ⟨0x0, [], [fl 1 1 .w1c 0, fl 0 0 .w1c 0]⟩,
  ⟨0x1, [], [fl 23 23 .sat 0, fl 15 0 .ro 0]⟩,
  ⟨0x2, [], [fl 23 20 .ro 0, fl 3 0 .ro 0]⟩,
  ⟨0x8, [(8, 0x1)], [fl 23 23 .wo 0, fl 15 0 .wo 0]⟩,
  ⟨0x10, [(8, 0x4)], [fl 23 23 .wo 0, fl 22 22 .ro 0]⟩,
  ⟨0x11, [(8, 0x4)], [fl 15 0 .ro 0]⟩,
  ⟨0x12, [(8, 0x4)], [fl 23 0 .ro 0]⟩,
  ⟨0x13, [(8, 0x4)], [fl 23 0 .ro 0]⟩,
  ⟨0x100, [(16, 0x10)], [fl 23 23 .wo 0, fl 22 22 .wo 0, fl 21 21 .wo 0, fl 20 20 .wo 0, fl 19 19 .ro 0, fk 17 16 .rw 0, fk 15 15 .rw 0, fk 13 8 .rw 0, fk 7 0 .rw 0]⟩,
  ⟨0x101, [(16, 0x10)], [fl 23 23 .rw 0, fl 21 16 .rw 0, fl 15 15 .rw 0, fl 14 14 .rw 0, fl 13 8 .rw 0]⟩,
  ⟨0x102, [(16, 0x10)], [fl 23 0 .rws 0xFFFFFF]⟩,
  ⟨0x103, [(16, 0x10)], [fl 23 0 .rws 0xFFFFFF]⟩,
  ⟨0x104, [(16, 0x10)], [fl 23 0 .rw 0]⟩,
  ⟨0x105, [(16, 0x10)], [fl 23 0 .rw 0]⟩,
  ⟨0x106, [(16, 0x10)], [fl 23 0 .rw 0]⟩,
  ⟨0x107, [(16, 0x10)], [fl 23 0 .rw 0]⟩]

/-- Rows of the TMR window's map. -/
def tabTMR1 : List RegSpec := [
  ⟨0x108, [(16, 0x10)], [fl 23 0 .ro 0]⟩,
  ⟨0x109, [(16, 0x10)], [fl 23 0 .ro 0]⟩,
  ⟨0x10A, [(16, 0x10)], [fl 2 2 .w1c 0, fl 1 1 .w1c 0, fl 0 0 .w1c 0]⟩]

/-- The TMR window's map. -/
def tabTMR : List RegSpec :=
  tabTMR0 ++ tabTMR1

/-- Rows of the DRL window's map. -/
def tabDRL0 : List RegSpec := [
  ⟨0x0, [], [fl 23 23 .sat 0, fl 15 0 .ro 0]⟩,
  ⟨0x1, [], [fl 23 20 .ro 0, fl 4 0 .ro 0]⟩,
  ⟨0x2, [], [fl 23 23 .sat 0, fl 15 0 .ro 0]⟩,
  ⟨0x100, [(32, 0x10)], [fl 23 23 .rw 0, fl 22 22 .wo 0, fl 21 21 .ro 0, fl 20 20 .ro 0, fl 1 0 .rws 0]⟩,
  ⟨0x101, [(32, 0x10)], [fk 23 23 .rw 0, fk 21 16 .rw 0, fl 15 15 .rw 0, fl 13 8 .rw 0, fk 7 7 .rw 0, fk 6 6 .rw 1, fk 5 5 .rw 1, fk 4 0 .rw 0x10]⟩,
  ⟨0x102, [(32, 0x10)], [fk 23 23 .rw 0, fk 20 16 .rw 0, fl 7 4 .rws 0, fl 3 0 .rws 0]⟩,
  ⟨0x103, [(32, 0x10)], [fl 23 0 .rws 0]⟩,
  ⟨0x104, [(32, 0x10)], [fl 23 0 .rws 0]⟩,
  ⟨0x105, [(32, 0x10)], [fl 23 0 .rws 0]⟩,
  ⟨0x106, [(32, 0x10)], [fl 23 0 .ro 0]⟩,
  ⟨0x107, [(32, 0x10)], [fl 23 0 .ro 0]⟩,
  ⟨0x108, [(32, 0x10)], [fl 23 0 .ro 0]⟩,
  ⟨0x109, [(32, 0x10)], [fl 4 4 .w1c 0, fl 3 3 .w1c 0, fl 2 2 .w1c 0, fl 1 1 .w1c 0, fl 0 0 .w1c 0]⟩,
  ⟨0x10A, [(32, 0x10)], [fl 23 0 .ro 0]⟩]

/-- The DRL window's map. -/
def tabDRL : List RegSpec :=
  tabDRL0

/-- Rows of the HRW window's map. -/
def tabHRW0 : List RegSpec := [
  ⟨0x0, [], [fl 15 8 .rw 0x32, fl 0 0 .rw 0]⟩,
  ⟨0x1, [], [fl 23 23 .ro 0, fl 22 22 .ro 0, fl 21 20 .ro 0]⟩,
  ⟨0x2, [], [fl 4 4 .w1c 0, fl 3 3 .w1c 0, fl 2 2 .w1c 0, fl 1 1 .w1c 0, fl 0 0 .w1c 0]⟩,
  ⟨0x3, [], [fl 23 23 .sat 0, fl 15 0 .ro 0]⟩,
  ⟨0x4, [], [fl 23 20 .ro 0, fl 19 18 .ro 0, fl 17 0 .ro 0]⟩,
  ⟨0x5, [], [fl 11 0 .rw 0]⟩,
  ⟨0x10, [(4, 0x4)], [fl 23 0 .wo 0]⟩,
  ⟨0x11, [(4, 0x4)], [fl 23 23 .wo 0, fl 15 15 .rw 0, fl 13 8 .rw 0, fl 5 5 .rw 0, fl 4 4 .rw 0]⟩,
  ⟨0x12, [(4, 0x4)], [fl 23 23 .w1c 0, fl 22 22 .ro 0, fl 21 21 .ro 0, fl 20 20 .ro 0, fl 3 0 .ro 0]⟩,
  ⟨0x13, [(4, 0x4)], [fl 23 0 .ro 0]⟩,
  ⟨0x8000, [(2, 0x100)], [fl 0 0 .rws 0]⟩,
  ⟨0x8001, [(2, 0x100)], [fl 23 0 .rws 0]⟩,
  ⟨0x8002, [(2, 0x100)], [fl 23 0 .ro 0]⟩,
  ⟨0x8003, [(2, 0x100)], [fl 23 23 .ro 0, fl 22 22 .ro 0, fl 21 21 .ro 0, fl 20 20 .ro 0, fl 12 0 .ro 0]⟩,
  ⟨0x8004, [(2, 0x100)], [fl 4 4 .w1c 0, fl 3 3 .w1c 0, fl 2 2 .w1c 0, fl 1 1 .w1c 0, fl 0 0 .w1c 0]⟩,
  ⟨0x8005, [(2, 0x100)], [fl 23 23 .sat 0, fl 15 0 .ro 0]⟩]

/-- Rows of the HRW window's map. -/
def tabHRW1 : List RegSpec := [
  ⟨0x8006, [(2, 0x100)], [fl 23 23 .sat 0, fl 15 0 .ro 0]⟩,
  ⟨0x8007, [(2, 0x100)], [fl 23 20 .ro 0, fl 19 0 .ro 0]⟩,
  ⟨0x8008, [(2, 0x100), (4, 0x1)], [fl 23 23 .w1c 0, fl 22 22 .w1c 0, fl 7 7 .rw 0, fl 5 0 .rw 0]⟩]

/-- The HRW window's map. -/
def tabHRW : List RegSpec :=
  tabHRW0 ++ tabHRW1

/-- Rows of the BM window's map. -/
def tabBM0 : List RegSpec := [
  ⟨0x0, [], [fl 10 8 .ro 0, fl 7 6 .rw 0, fl 5 4 .rws 0, fl 2 2 .wo 0, fl 0 0 .rw 0]⟩,
  ⟨0x1, [], [fl 7 6 .ro 0, fl 5 5 .ro 0, fl 4 4 .ro 0]⟩,
  ⟨0x2, [], [fl 7 7 .w1c 0, fl 6 6 .w1c 0, fl 5 5 .w1c 0, fl 4 4 .w1c 0, fl 3 3 .w1c 0, fl 2 2 .w1c 0, fl 1 1 .w1c 0, fl 0 0 .w1c 0]⟩,
  ⟨0x3, [], [fl 23 23 .sat 0, fl 15 0 .ro 0]⟩,
  ⟨0x4, [], [fl 23 23 .sat 0, fl 15 0 .ro 0]⟩,
  ⟨0x5, [], [fl 12 0 .ro 0]⟩,
  ⟨0x6, [], [fl 23 0 .rw 0]⟩,
  ⟨0x7, [], [fl 23 23 .ro 0, fl 22 22 .ro 0, fl 12 0 .ro 0]⟩,
  ⟨0x8, [], [fl 23 0 .ro 0]⟩,
  ⟨0x9, [], [fl 23 0 .ro 0]⟩,
  ⟨0xA, [], [fl 15 0 .ro 0]⟩,
  ⟨0x10, [], [fl 13 0 .rws 0x780]⟩,
  ⟨0x11, [], [fl 13 0 .rws 0x898]⟩,
  ⟨0x12, [], [fl 23 23 .rws 0, fl 21 12 .rws 0x2C, fl 11 0 .rws 0x58]⟩,
  ⟨0x13, [], [fl 13 0 .rws 0x438]⟩,
  ⟨0x14, [], [fl 13 0 .rws 0x465]⟩]

/-- Rows of the BM window's map. -/
def tabBM1 : List RegSpec := [
  ⟨0x15, [], [fl 23 23 .rws 0, fl 21 12 .rws 5, fl 11 0 .rws 4]⟩,
  ⟨0x16, [], [fl 15 0 .rws 0x3C]⟩,
  ⟨0x17, [], [fl 15 0 .rws 1]⟩,
  ⟨0x18, [], [fl 23 0 .rws 0]⟩,
  ⟨0x19, [], [fk 23 23 .rw 0, fk 15 0 .rw 0]⟩,
  ⟨0x1A, [], [fl 7 0 .rw 0x32]⟩,
  ⟨0x1B, [], [fl 7 0 .rw 0x10]⟩,
  ⟨0x1C, [], [fl 15 15 .rw 0, fl 13 8 .rw 0, fl 7 7 .rw 0, fl 5 0 .rw 0]⟩,
  ⟨0x1D, [], [fl 15 15 .rw 0, fl 13 8 .rw 0, fl 7 7 .rw 0, fl 5 0 .rw 0]⟩,
  ⟨0x1E, [], [fl 12 0 .rw 0]⟩,
  ⟨0x20, [], [fl 23 0 .rws 0]⟩,
  ⟨0x21, [], [fl 23 0 .rws 0xFAC688]⟩,
  ⟨0x22, [], [fl 12 1 .w1c 0]⟩,
  ⟨0x23, [], [fl 7 0 .rw 4]⟩,
  ⟨0x24, [], [fl 23 23 .sat 0, fl 15 0 .ro 0]⟩,
  ⟨0x25, [], [fl 23 0 .rws 0]⟩]

/-- Rows of the BM window's map. -/
def tabBM2 : List RegSpec := [
  ⟨0x26, [], [fl 13 0 .rws 0x1E00]⟩,
  ⟨0x27, [], [fl 23 22 .ro 0, fl 15 8 .ro 0, fl 4 0 .ro 0]⟩,
  ⟨0x28, [], [fl 11 8 .rws 0, fl 2 1 .rws 0, fl 0 0 .rws 0]⟩,
  ⟨0x29, [], [fl 23 0 .rws 0]⟩,
  ⟨0x2A, [], [fl 13 0 .rws 0x1E00]⟩,
  ⟨0x2B, [], [fl 23 23 .ro 0, fl 22 22 .ro 0, fl 15 0 .ro 0]⟩,
  ⟨0x2D, [], [fl 15 0 .w1c 0]⟩,
  ⟨0x2E, [], [fl 7 7 .rw 0, fl 5 0 .rw 0]⟩,
  ⟨0x30, [(8, 0x1)], [fl 12 12 .rws 0, fl 11 11 .rws 0, fl 10 10 .rws 0, fl 9 4 .rws 0x3F, fl 3 1 .rws 0, fl 0 0 .rws 0]⟩,
  ⟨0x38, [(8, 0x1)], [fl 23 0 .rws 0]⟩,
  ⟨0x80, [], [fl 19 0 .rws 0]⟩,
  ⟨0x81, [], [fl 19 0 .rws 0]⟩,
  ⟨0x82, [], [fl 15 0 .rws 0]⟩,
  ⟨0x83, [], [fl 23 23 .rw 0, fl 15 0 .rw 0]⟩,
  ⟨0x84, [], [fl 23 0 .ro 0]⟩,
  ⟨0x85, [], [fl 23 23 .sat 0, fl 22 22 .w1c 0, fl 15 0 .ro 0]⟩]

/-- Rows of the BM window's map. -/
def tabBM3 : List RegSpec := [
  ⟨0x90, [], [fl 9 8 .rws 1, fl 7 0 .rws 0x80]⟩,
  ⟨0x91, [], [fl 23 0 .rws 0]⟩,
  ⟨0x92, [], [fl 15 0 .rw 0x4000]⟩,
  ⟨0x93, [], [fl 15 8 .rw 8, fl 7 0 .rw 0x20]⟩,
  ⟨0x94, [], [fl 23 0 .rw 0]⟩,
  ⟨0x95, [], [fl 1 1 .ro 0, fl 0 0 .rws 0]⟩,
  ⟨0x96, [], [fl 23 23 .sat 0, fl 15 0 .ro 0]⟩,
  ⟨0x97, [], [fl 23 23 .sat 0, fl 15 0 .ro 0]⟩,
  ⟨0x98, [], [fl 23 23 .sat 0, fl 15 0 .ro 0]⟩,
  ⟨0x100, [(8, 0x10)], [fl 12 12 .rws 0, fl 11 9 .rws 0, fl 8 8 .rws 0, fl 7 7 .rws 1, fl 6 5 .rws 0, fl 4 3 .rws 0, fl 2 1 .rws 0, fl 0 0 .rws 0]⟩,
  ⟨0x101, [(8, 0x10)], [fl 23 0 .rws 0]⟩,
  ⟨0x102, [(8, 0x10)], [fl 23 0 .rws 0]⟩,
  ⟨0x103, [(8, 0x10)], [fl 19 0 .rws 0]⟩,
  ⟨0x104, [(8, 0x10)], [fl 15 0 .rws 0]⟩,
  ⟨0x105, [(8, 0x10)], [fl 11 0 .rws 0]⟩,
  ⟨0x106, [(8, 0x10)], [fl 11 0 .rws 0]⟩]

/-- Rows of the BM window's map. -/
def tabBM4 : List RegSpec := [
  ⟨0x107, [(8, 0x10)], [fl 19 0 .rws 0]⟩,
  ⟨0x108, [(8, 0x10)], [fl 15 0 .rws 0]⟩,
  ⟨0x109, [(8, 0x10)], [fl 23 0 .rw 0]⟩,
  ⟨0x180, [(2, 0x20)], [fl 12 12 .rws 0, fl 11 11 .rws 0, fl 10 10 .rws 0, fl 9 8 .rws 1, fl 5 5 .rws 0, fl 4 3 .rws 0]⟩,
  ⟨0x181, [(2, 0x20)], [fl 23 0 .rws 0]⟩,
  ⟨0x182, [(2, 0x20)], [fl 23 0 .rws 0]⟩,
  ⟨0x183, [(2, 0x20)], [fl 13 0 .rws 0]⟩,
  ⟨0x184, [(2, 0x20)], [fl 13 0 .rws 0]⟩,
  ⟨0x185, [(2, 0x20)], [fl 12 0 .rws 0]⟩,
  ⟨0x186, [(2, 0x20)], [fl 12 0 .rws 0]⟩,
  ⟨0x187, [(2, 0x20)], [fl 13 0 .rws 0]⟩,
  ⟨0x188, [(2, 0x20)], [fl 13 0 .rws 0]⟩,
  ⟨0x189, [(2, 0x20)], [fl 19 0 .rws 0]⟩,
  ⟨0x18A, [(2, 0x20)], [fl 15 0 .rws 0]⟩,
  ⟨0x18B, [(2, 0x20)], [fl 19 0 .rws 0]⟩,
  ⟨0x18C, [(2, 0x20)], [fl 15 0 .rws 0]⟩]

/-- Rows of the BM window's map. -/
def tabBM5 : List RegSpec := [
  ⟨0x18D, [(2, 0x20)], [fl 19 0 .rws 0x10000]⟩,
  ⟨0x18E, [(2, 0x20)], [fl 19 0 .rws 0x10000]⟩,
  ⟨0x18F, [(2, 0x20)], [fl 19 0 .rws 0]⟩,
  ⟨0x190, [(2, 0x20)], [fl 19 0 .rws 0]⟩,
  ⟨0x191, [(2, 0x20)], [fl 23 0 .rws 0]⟩,
  ⟨0x192, [(2, 0x20)], [fl 1 1 .ro 0, fl 0 0 .ro 0]⟩,
  ⟨0x200, [(16, 0x10)], [fl 3 3 .rws 0, fl 2 2 .wo 0, fl 1 0 .rws 0]⟩,
  ⟨0x201, [(16, 0x10)], [fl 12 0 .rws 0]⟩,
  ⟨0x202, [(16, 0x10)], [fl 11 0 .rws 0]⟩,
  ⟨0x203, [(16, 0x10)], [fl 13 0 .rws 0]⟩,
  ⟨0x204, [(16, 0x10)], [fl 12 0 .rws 0]⟩,
  ⟨0x205, [(16, 0x10)], [fl 7 0 .rws 0]⟩,
  ⟨0x206, [(16, 0x10)], [fl 23 0 .rws 0]⟩,
  ⟨0x207, [(16, 0x10)], [fl 7 0 .rws 0]⟩,
  ⟨0x208, [(16, 0x10)], [fl 23 0 .rws 0]⟩,
  ⟨0x209, [(16, 0x10)], [fl 7 0 .ro 0]⟩]

/-- Rows of the BM window's map. The entries of the sprite table (R101), for which the spec states no reset value, are 0: DESIGN CHOICE
(log entry 133). -/
def tabBM6 : List RegSpec := [
  ⟨0x20A, [(16, 0x10)], [fl 23 0 .ro 0]⟩,
  ⟨0x20B, [(16, 0x10)], [fl 23 23 .sat 0, fl 22 20 .ro 0, fl 15 0 .ro 0]⟩,
  ⟨0x20C, [(16, 0x10)], [fl 23 23 .ro 0, fl 15 0 .ro 0]⟩,
  ⟨0x1000, [(4096, 0x1)], [fl 23 0 .rw 0]⟩,
  ⟨0x2000, [(1024, 0x4)], [fl 23 23 .rw 0, fl 22 22 .rw 0, fl 21 21 .rw 0, fl 19 0 .rw 0]⟩,
  ⟨0x2001, [(1024, 0x4)], [fl 23 23 .rw 0, fl 22 22 .rw 0, fl 21 16 .rw 0, fl 15 0 .rw 0]⟩,
  ⟨0x2002, [(1024, 0x4)], [fl 23 19 .rw 0, fl 18 14 .rw 0, fl 13 0 .rw 0]⟩,
  ⟨0x2003, [(1024, 0x4)], [fl 23 15 .rw 0, fl 14 14 .rw 0, fl 11 0 .rw 0]⟩,
  ⟨0x3000, [(2, 0x400), (2, 0x200), (192, 0x1)], [fl 21 12 .rw 0, fl 9 0 .rw 0]⟩,
  ⟨0x3100, [(2, 0x400), (2, 0x200), (128, 0x1)], [fl 21 12 .rw 0, fl 9 0 .rw 0]⟩]

/-- The BM window's map. -/
def tabBM : List RegSpec :=
  tabBM0 ++ tabBM1 ++ tabBM2 ++ tabBM3 ++ tabBM4 ++ tabBM5 ++ tabBM6

/-- Rows of the AUD window's map. -/
def tabAUD0 : List RegSpec := [
  ⟨0x0, [], [fl 22 16 .rw 0xA, fk 15 11 .rw 0xC, fk 10 6 .rw 4, fk 2 2 .rw 0, fk 1 1 .rw 0, fl 0 0 .rw 0]⟩,
  ⟨0x1, [], [fl 23 22 .ro 0, fl 21 21 .ro 0]⟩,
  ⟨0x2, [], [fl 10 10 .w1c 0, fl 9 9 .w1c 0, fl 8 8 .w1c 0, fl 7 7 .w1c 0, fl 6 6 .w1c 0, fl 5 5 .w1c 0, fl 4 4 .w1c 0, fl 3 3 .w1c 0, fl 2 2 .w1c 0, fl 1 1 .w1c 0, fl 0 0 .w1c 0]⟩,
  ⟨0x3, [], [fl 23 23 .sat 0, fl 15 0 .ro 0]⟩,
  ⟨0x4, [], [fl 23 20 .ro 0, fl 15 0 .ro 0]⟩,
  ⟨0x5, [], [fk 15 0 .rw 0]⟩,
  ⟨0x6, [], [fl 23 0 .ro 0]⟩,
  ⟨0x7, [], [fl 7 0 .rw 0x10]⟩,
  ⟨0x8, [], [fl 23 23 .sat 0, fl 15 0 .ro 0]⟩,
  ⟨0x9, [], [fl 23 23 .sat 0, fl 15 0 .ro 0]⟩,
  ⟨0xA, [], [fl 23 23 .sat 0, fl 15 0 .ro 0]⟩,
  ⟨0xB, [], [fl 23 23 .sat 0, fl 15 0 .ro 0]⟩,
  ⟨0xC, [], [fk 3 0 .rw 0]⟩,
  ⟨0xD, [], [fk 23 0 .rw 0]⟩,
  ⟨0x10, [(4, 0x2)], [fl 23 23 .rw 0, fk 4 4 .rw 0, fk 3 3 .rw 0, fk 2 2 .rw 0, fk 1 1 .rw 0, fk 0 0 .rw 0]⟩,
  ⟨0x11, [(4, 0x2)], [fl 23 23 .ro 0, fl 7 0 .ro 0]⟩]

/-- Rows of the AUD window's map. -/
def tabAUD1 : List RegSpec := [
  ⟨0x20, [(16, 0x1)], [fl 23 23 .rws 0, fl 11 0 .rws 0]⟩,
  ⟨0x30, [(16, 0x1)], [fl 23 23 .rws 0, fl 11 0 .rws 0]⟩,
  ⟨0x40, [(4, 0x8)], [fl 23 23 .rw 0, fl 22 16 .rw 0x70, fl 15 8 .rw 0xA, fl 7 0 .rw 0x32]⟩,
  ⟨0x41, [(4, 0x8)], [fl 23 16 .rw 0x50, fl 15 8 .rw 0x10, fl 7 0 .rw 2]⟩,
  ⟨0x42, [(4, 0x8)], [fl 23 16 .rw 0, fl 15 8 .rw 0]⟩,
  ⟨0x43, [(4, 0x8)], [fl 23 0 .rw 0]⟩,
  ⟨0x44, [(4, 0x8)], [fl 23 0 .rw 0]⟩,
  ⟨0x45, [(4, 0x8)], [fl 23 16 .ro 0, fl 15 8 .ro 0, fl 7 7 .ro 0, fl 6 6 .ro 0, fl 5 5 .ro 0]⟩,
  ⟨0x46, [(4, 0x8)], [fl 23 23 .sat 0, fl 15 0 .ro 0]⟩,
  ⟨0x80, [(4, 0x4)], [fk 23 0 .rw 0]⟩,
  ⟨0x81, [(4, 0x4)], [fk 23 0 .rw 0]⟩,
  ⟨0x82, [(4, 0x4)], [fl 23 23 .rw 0, fl 15 15 .rw 0, fl 13 8 .rw 0]⟩,
  ⟨0x83, [(4, 0x4)], [fl 23 0 .ro 0]⟩,
  ⟨0x90, [(8, 0x4)], [fl 2 2 .wo 0, fl 1 1 .rw 0, fl 0 0 .wo 0]⟩,
  ⟨0x91, [(8, 0x4)], [fl 23 0 .rw 0]⟩,
  ⟨0x92, [(8, 0x4)], [fl 23 0 .rw 0]⟩]

/-- Rows of the AUD window's map. -/
def tabAUD2 : List RegSpec := [
  ⟨0x93, [(8, 0x4)], [fl 23 22 .ro 0, fl 21 21 .w1c 0, fl 20 20 .w1c 0, fl 19 19 .w1c 0, fl 18 18 .w1c 0, fl 15 8 .ro 0, fl 7 0 .ro 0]⟩,
  ⟨0x100, [(48, 0x1)], [fl 23 23 .rws 0, fl 15 0 .rws 0]⟩,
  ⟨0x200, [(64, 0x10)], [fl 2 2 .wo 0, fl 1 1 .wo 0, fl 0 0 .wo 0]⟩,
  ⟨0x201, [(64, 0x10)], [fl 15 15 .rw 0, fl 13 8 .rw 0, fl 7 7 .rw 0, fl 5 0 .rw 0]⟩,
  ⟨0x202, [(64, 0x10)], [fl 1 0 .rws 0]⟩,
  ⟨0x203, [(64, 0x10)], [fl 23 0 .rws 0]⟩,
  ⟨0x204, [(64, 0x10)], [fl 23 0 .rws 0]⟩,
  ⟨0x205, [(64, 0x10)], [fl 23 0 .rws 0]⟩,
  ⟨0x206, [(64, 0x10)], [fl 23 0 .rws 0]⟩,
  ⟨0x207, [(64, 0x10)], [fl 7 0 .rws 0]⟩,
  ⟨0x208, [(64, 0x10)], [fl 19 0 .rws 0x1000]⟩,
  ⟨0x209, [(64, 0x10)], [fl 23 16 .rws 0, fl 15 0 .rws 1]⟩,
  ⟨0x20A, [(64, 0x10)], [fl 23 22 .ro 0, fl 21 21 .w1c 0, fl 20 20 .w1c 0, fl 19 19 .w1c 0]⟩,
  ⟨0x20B, [(64, 0x10)], [fl 23 0 .ro 0]⟩,
  ⟨0x2000, [(128, 0x40), (64, 0x1)], [fl 23 23 .ro 0, fl 8 0 .rws 0]⟩]

/-- The AUD window's map. -/
def tabAUD : List RegSpec :=
  tabAUD0 ++ tabAUD1 ++ tabAUD2

/-- Rows of the SUP window's map. -/
def tabSUP0 : List RegSpec := [
  ⟨0x0, [], [fl 15 0 .w1c 0]⟩,
  ⟨0x1, [], [fl 23 23 .sat 0, fl 15 0 .ro 0]⟩,
  ⟨0x2, [], [fl 23 20 .ro 0, fl 15 0 .ro 0]⟩,
  ⟨0x3, [], [fl 13 0 .rw 0]⟩,
  ⟨0x4, [], [fl 23 16 .rw 0x64, fl 9 8 .rw 3, fl 2 0 .rw 1]⟩,
  ⟨0x5, [], [fl 23 23 .wo 0, fl 22 22 .wo 0, fl 5 0 .wo 0]⟩,
  ⟨0x6, [], [fl 23 20 .ro 0xF, fl 19 11 .ro 0, fl 10 10 .ro 0, fl 5 0 .ro 0]⟩,
  ⟨0x8, [], [fl 23 23 .wo 0, fl 22 22 .wo 0, fl 7 7 .rw 0, fl 5 0 .rw 0]⟩,
  ⟨0x9, [], [fl 23 22 .ro 0, fl 21 20 .ro 0, fl 4 0 .ro 0]⟩,
  ⟨0xA, [], [fl 23 0 .rw 0]⟩,
  ⟨0xB, [], [fl 7 0 .rw 0]⟩,
  ⟨0xC, [], [fl 15 8 .rw 0x14, fl 3 0 .rw 1]⟩,
  ⟨0xD, [], [fl 23 16 .rw 0x3C, fl 15 8 .rw 0x14, fl 7 0 .rw 0x18]⟩,
  ⟨0xE, [], [fl 15 0 .ro 0]⟩,
  ⟨0xF, [], [fl 23 0 .ro 0]⟩,
  ⟨0x10, [], [fl 7 0 .ro 0]⟩]

/-- Rows of the SUP window's map. -/
def tabSUP1 : List RegSpec := [
  ⟨0x11, [], [fl 13 0 .rw 0]⟩,
  ⟨0x12, [], [fl 23 23 .rw 0, fl 10 0 .rw 1]⟩,
  ⟨0x40, [(8, 0x8)], [fl 23 23 .rw 0, fk 22 22 .rw 0, fk 21 21 .rw 0, fl 20 20 .rw 0, fl 17 12 .rw 0, fk 10 0 .rw 0x1F4]⟩,
  ⟨0x41, [(8, 0x8)], [fk 7 0 .rw 0x14]⟩,
  ⟨0x42, [(8, 0x8)], [fl 1 1 .wo 0, fl 0 0 .wo 0]⟩,
  ⟨0x43, [(8, 0x8)], [fl 23 22 .ro 0, fl 21 21 .ro 0, fl 20 20 .ro 0, fl 19 19 .ro 0]⟩,
  ⟨0x44, [(8, 0x8)], [fl 23 23 .sat 0, fl 15 0 .ro 0]⟩,
  ⟨0x45, [(8, 0x8)], [fl 15 0 .ro 0]⟩,
  ⟨0x46, [(8, 0x8)], [fl 23 0 .ro 0]⟩,
  ⟨0x47, [(8, 0x8)], [fl 23 0 .ro 0]⟩,
  ⟨0x100, [(32, 0x10)], [fl 23 18 .rw 0, fl 17 12 .rw 0, fl 11 0 .rw 0x960]⟩,
  ⟨0x101, [(32, 0x10)], [fl 23 0 .rw 0x2710]⟩,
  ⟨0x102, [(32, 0x10)], [fl 23 0 .rw 0]⟩,
  ⟨0x103, [(32, 0x10)], [fl 23 0 .rw 0xFFFFFF]⟩,
  ⟨0x104, [(32, 0x10)], [fl 23 12 .rw 0x8F8, fl 11 0 .rw 0x708]⟩,
  ⟨0x105, [(32, 0x10)], [fl 23 23 .rw 0, fl 22 16 .rw 0x70, fl 15 8 .rw 0x78]⟩]

/-- Rows of the SUP window's map. -/
def tabSUP2 : List RegSpec := [
  ⟨0x106, [(32, 0x10)], [fl 23 0 .ro 0]⟩,
  ⟨0x107, [(32, 0x10)], [fl 23 20 .ro 0, fl 19 16 .ro 0, fl 11 0 .ro 0]⟩,
  ⟨0x108, [(32, 0x10)], [fl 15 8 .ro 0, fl 7 0 .ro 0]⟩]

/-- The SUP window's map. -/
def tabSUP : List RegSpec :=
  tabSUP0 ++ tabSUP1 ++ tabSUP2

/-- Rows of the LNK window's map. -/
def tabLNK0 : List RegSpec := [
  ⟨0x0, [], [fl 23 21 .rw 0, fl 20 18 .rw 4, fl 17 17 .rw 0, fl 15 8 .rw 0xA, fl 7 4 .rw 3]⟩,
  ⟨0x1, [], [fl 23 23 .ro 0, fl 22 22 .ro 0, fl 21 21 .ro 0, fl 7 0 .ro 0]⟩,
  ⟨0x2, [], [fl 13 0 .w1c 0]⟩,
  ⟨0x3, [], [fl 23 23 .sat 0, fl 15 0 .ro 0]⟩,
  ⟨0x4, [], [fl 23 20 .ro 0, fl 2 0 .ro 0]⟩,
  ⟨0x5, [], [fl 23 23 .rw 0, fl 22 22 .rw 0, fl 10 0 .rw 0]⟩,
  ⟨0x6, [], [fk 23 21 .rw 0, fk 20 18 .rw 4, fl 17 17 .rw 0, fk 15 13 .rw 1, fk 12 10 .rw 5, fl 9 9 .rw 0]⟩,
  ⟨0x7, [], [fl 23 23 .ro 0, fl 22 22 .ro 0, fl 21 21 .ro 0, fl 20 20 .ro 0, fl 19 19 .ro 0, fl 18 18 .ro 0, fl 17 17 .ro 0, fl 15 8 .ro 0, fl 7 0 .ro 0]⟩,
  ⟨0x8, [], [fl 23 23 .rw 0, fl 22 12 .rw 0, fl 11 0 .rw 0x32]⟩,
  ⟨0x9, [], [fl 23 22 .rw 0, fl 21 20 .rw 1, fl 19 18 .rw 2, fl 17 16 .rw 3, fl 15 8 .rw 0xA, fl 7 7 .rw 0, fl 6 6 .rw 0, fl 5 5 .rw 0, fl 4 2 .rw 0]⟩,
  ⟨0xA, [], [fl 23 22 .ro 3, fl 21 20 .ro 3, fl 19 19 .ro 0, fl 18 15 .ro 8]⟩,
  ⟨0xB, [], [fl 23 0 .ro 0]⟩,
  ⟨0xC, [], [fk 23 16 .rw 0, fk 15 13 .rw 0, fl 12 12 .rw 0]⟩,
  ⟨0xD, [], [fl 23 12 .rw 0x3C, fl 11 0 .rw 1]⟩,
  ⟨0xE, [], [fl 23 23 .sat 0, fl 15 0 .ro 0]⟩,
  ⟨0xF, [], [fl 23 23 .sat 0, fl 15 0 .ro 0]⟩]

/-- Rows of the LNK window's map. -/
def tabLNK1 : List RegSpec := [
  ⟨0x10, [(4, 0x1)], [fl 23 23 .ro 0, fl 22 22 .ro 0, fl 19 16 .ro 0, fl 15 8 .ro 0, fl 7 0 .ro 0]⟩,
  ⟨0x14, [], [fl 23 23 .wo 0, fl 22 22 .ro 0]⟩,
  ⟨0x20, [(8, 0x8)], [fl 23 23 .rw 0, fk 22 21 .rw 0, fk 20 19 .rw 3, fk 18 17 .rw 1, fk 16 16 .rw 0, fk 15 15 .rw 0, fk 14 14 .rw 0]⟩,
  ⟨0x21, [(8, 0x8)], [fl 23 22 .ro 0, fl 21 20 .ro 0, fl 19 19 .ro 0, fl 18 18 .ro 0, fl 17 17 .ro 0, fl 16 16 .ro 0, fl 15 12 .ro 0]⟩,
  ⟨0x22, [(8, 0x8)], [fl 4 4 .w1c 0, fl 3 3 .w1c 0, fl 2 2 .w1c 0, fl 1 1 .w1c 0, fl 0 0 .w1c 0]⟩,
  ⟨0x23, [(8, 0x8)], [fl 23 23 .sat 0, fl 15 0 .ro 0]⟩,
  ⟨0x24, [(8, 0x8)], [fl 23 23 .sat 0, fl 15 0 .ro 0]⟩,
  ⟨0x25, [(8, 0x8)], [fl 23 12 .ro 0, fl 10 0 .ro 0]⟩,
  ⟨0x26, [(8, 0x8)], [fl 23 0 .ro 0]⟩,
  ⟨0x27, [(8, 0x8)], [fl 15 0 .rw 0]⟩,
  ⟨0x100, [(256, 0x1)], [fl 23 23 .rws 0, fl 22 22 .rws 0, fl 19 12 .rws 0, fl 11 0 .rws 0]⟩]

/-- The LNK window's map. -/
def tabLNK : List RegSpec :=
  tabLNK0 ++ tabLNK1

/-- Rows of the SEC window's map. -/
def tabSEC0 : List RegSpec := [
  ⟨0x0, [], [fl 23 0 .ro 0x2160B0]⟩,
  ⟨0x1, [], [fl 0 0 .w1s 0]⟩,
  ⟨0x2, [], [fl 23 23 .ro 0, fl 22 22 .ro 0, fl 21 21 .ro 0, fl 20 20 .ro 0]⟩,
  ⟨0x3, [], [fl 2 2 .w1c 0, fl 1 1 .w1c 0, fl 0 0 .w1c 0]⟩,
  ⟨0x4, [], [fl 23 23 .sat 0, fl 15 0 .ro 0]⟩,
  ⟨0x5, [], [fl 15 0 .ro 0]⟩,
  ⟨0x8, [(8, 0x1)], [fl 23 23 .wo 0, fl 15 0 .ro 0]⟩,
  ⟨0x20, [(8, 0x4)], [fl 23 23 .wo 0, fl 22 22 .ro 0, fl 21 20 .ro 0, fk 1 0 .rw 0]⟩,
  ⟨0x21, [(8, 0x4)], [fk 23 0 .rw 0]⟩,
  ⟨0x22, [(8, 0x4)], [fk 23 0 .rw 0]⟩,
  ⟨0x23, [(8, 0x4)], [fk 15 0 .rw 0]⟩,
  ⟨0x100, [(22, 0x1)], [fl 23 0 .ro 0]⟩,
  ⟨0x120, [(11, 0x1)], [fl 23 0 .ro 0]⟩]

/-- The SEC window's map. -/
def tabSEC : List RegSpec :=
  tabSEC0

/-- Rows of the GRN window's map. -/
def tabGRN0 : List RegSpec := [
  ⟨0x0, [], [fl 23 23 .wo 0, fl 13 0 .rw 0]⟩,
  ⟨0x1, [], [fl 23 23 .ro 0, fl 22 22 .ro 0]⟩,
  ⟨0x2, [], [fl 2 2 .w1c 0, fl 1 1 .w1c 0, fl 0 0 .w1c 0]⟩,
  ⟨0x3, [], [fl 23 23 .sat 0, fl 22 20 .ro 0, fl 15 0 .ro 0]⟩,
  ⟨0x4, [], [fl 0 0 .rw 0]⟩,
  ⟨0x100, [(256, 0x1)], [fl 23 0 .rw 0]⟩]

/-- The GRN window's map. -/
def tabGRN : List RegSpec :=
  tabGRN0

/-- Rows of the GPO window's map. -/
def tabGPO0 : List RegSpec := [
  ⟨0x0, [], [fl 23 23 .sat 0, fl 15 0 .ro 0]⟩,
  ⟨0x1, [], [fl 23 20 .ro 0, fl 5 0 .ro 0]⟩,
  ⟨0x2, [(2, 0x1)], [fl 23 0 .ro 0]⟩,
  ⟨0x4, [(2, 0x1)], [fl 23 0 .rw 0]⟩,
  ⟨0x6, [(2, 0x1)], [fl 23 0 .wo 0]⟩,
  ⟨0x8, [(2, 0x1)], [fl 23 0 .wo 0]⟩,
  ⟨0xA, [(2, 0x1)], [fl 23 0 .w1c 0]⟩,
  ⟨0xC, [(2, 0x1)], [fl 23 0 .rw 0]⟩,
  ⟨0x100, [(48, 0x1)], [fl 23 23 .rw 0, fl 22 22 .rw 0, fl 21 20 .rw 2, fl 19 19 .rw 0, fl 18 18 .rw 0, fl 17 14 .rw 0, fl 13 12 .rw 0, fl 7 0 .rw 0]⟩]

/-- The GPO window's map. -/
def tabGPO : List RegSpec :=
  tabGPO0

/-- Rows of the PWR window's map. -/
def tabPWR0 : List RegSpec := [
  ⟨0x0, [], [fl 23 22 .wo 0, fl 3 0 .wo 0]⟩,
  ⟨0x1, [], [fl 23 22 .ro 0, fl 21 21 .ro 0, fl 20 20 .w1c 0, fl 19 16 .ro 0, fl 15 15 .ro 0]⟩,
  ⟨0x2, [], [fl 23 23 .w1c 1, fl 22 22 .w1c 0, fl 21 21 .w1c 0, fl 20 20 .w1c 0, fl 19 19 .w1c 0, fl 18 18 .w1c 0, fl 17 17 .w1c 0]⟩,
  ⟨0x3, [], [fl 23 23 .rw 0, fl 22 22 .rw 0, fl 21 21 .rw 0, fl 20 20 .rw 0, fl 15 8 .rw 0, fl 7 0 .rw 0]⟩,
  ⟨0x4, [], [fl 23 0 .rw 0]⟩,
  ⟨0x10, [], [fl 7 7 .w1c 0, fl 6 6 .w1c 0, fl 5 5 .w1c 0, fl 4 4 .w1c 0, fl 3 3 .w1c 0, fl 2 2 .w1c 0, fl 1 1 .w1c 0, fl 0 0 .w1c 0]⟩,
  ⟨0x11, [], [fl 23 23 .sat 0, fl 15 0 .ro 0]⟩,
  ⟨0x12, [], [fl 23 20 .ro 0, fl 4 0 .ro 0]⟩,
  ⟨0x13, [], [fl 19 0 .rw 0xFFFFF]⟩,
  ⟨0x14, [], [fl 19 0 .ro 0]⟩,
  ⟨0x15, [], [fl 23 23 .wo 0]⟩,
  ⟨0x16, [], [fl 23 23 .rw 1, fl 22 22 .rw 1, fl 21 18 .rw 4, fl 15 8 .rw 0x40, fl 7 0 .rw 0x10]⟩,
  ⟨0x17, [], [fl 5 0 .rw 0x23]⟩,
  ⟨0x18, [], [fl 5 0 .rw 0]⟩,
  ⟨0x19, [], [fl 23 18 .ro 0x14, fl 17 12 .ro 0x14, fl 11 6 .ro 0x23, fl 5 5 .ro 0]⟩,
  ⟨0x1A, [], [fl 23 23 .sat 0, fl 15 0 .ro 0]⟩]

/-- Rows of the PWR window's map. -/
def tabPWR1 : List RegSpec := [
  ⟨0x1B, [], [fl 9 0 .ro 0]⟩]

/-- The PWR window's map. -/
def tabPWR : List RegSpec :=
  tabPWR0 ++ tabPWR1

/-- Rows of the DBG window's map. -/
def tabDBG0 : List RegSpec := [
  ⟨0x0, [], [fl 23 23 .ro 0, fl 2 2 .rw 0, fl 1 0 .rw 0]⟩,
  ⟨0x1, [], [fl 3 3 .w1c 0, fl 2 2 .w1c 0, fl 1 1 .w1c 0, fl 0 0 .w1c 0]⟩,
  ⟨0x2, [], [fl 23 23 .sat 0, fl 15 0 .ro 0]⟩,
  ⟨0x3, [], [fl 23 20 .ro 0]⟩,
  ⟨0x4, [], [fl 16 0 .w1s 0]⟩,
  ⟨0x5, [], [fl 16 0 .wo 0]⟩,
  ⟨0x6, [], [fl 16 0 .ro 0]⟩,
  ⟨0x7, [], [fl 16 0 .rw 0]⟩,
  ⟨0x8, [], [fl 7 0 .rw 0]⟩,
  ⟨0x9, [], [fl 23 23 .wo 0]⟩,
  ⟨0x10, [(17, 0x8)], [fl 1 1 .rw 0, fl 0 0 .wo 0]⟩,
  ⟨0x11, [(17, 0x8)], [fl 23 20 .ro 0, fl 19 17 .ro 0, fl 16 16 .ro 0]⟩,
  ⟨0x12, [(17, 0x8)], [fl 23 0 .ro 0]⟩,
  ⟨0x13, [(17, 0x8)], [fl 8 0 .rw 0]⟩,
  ⟨0x14, [(17, 0x8)], [fl 23 0 .rw 0]⟩,
  ⟨0x200, [(17, 0x20), (8, 0x3)], [fl 23 23 .rw 0, fl 22 21 .rw 0, fl 20 19 .rw 0, fl 18 18 .rw 0, fl 17 14 .rw 0, fl 13 8 .rw 0, fl 7 0 .rw 0]⟩]

/-- Rows of the DBG window's map. -/
def tabDBG1 : List RegSpec := [
  ⟨0x201, [(17, 0x20), (8, 0x3)], [fl 23 0 .rw 0]⟩,
  ⟨0x202, [(17, 0x20), (8, 0x3)], [fl 23 0 .rw 0]⟩]

/-- The DBG window's map. -/
def tabDBG : List RegSpec :=
  tabDBG0 ++ tabDBG1

/-- Rows of the GLN window's map. -/
def tabGLN0 : List RegSpec := [
  ⟨0x0, [], [fl 23 23 .rw 0, fl 15 15 .rw 0, fl 13 8 .rw 0]⟩,
  ⟨0x1, [], [fk 23 0 .rw 0x3E8]⟩,
  ⟨0x2, [], [fk 23 0 .rw 0]⟩,
  ⟨0x3, [], [fk 23 0 .rw 0]⟩,
  ⟨0x4, [], [fk 15 0 .rw 1]⟩,
  ⟨0x5, [], [fl 23 23 .ro 0, fl 15 0 .ro 0]⟩,
  ⟨0x6, [], [fl 6 6 .w1c 0, fl 5 5 .w1c 0, fl 4 4 .w1c 0, fl 3 3 .w1c 0, fl 2 2 .w1c 0, fl 1 1 .w1c 0, fl 0 0 .w1c 0]⟩,
  ⟨0x7, [], [fl 23 23 .sat 0, fl 15 0 .ro 0]⟩,
  ⟨0x8, [], [fl 23 20 .ro 0, fl 4 0 .ro 0]⟩,
  ⟨0x9, [], [fl 23 23 .sat 0, fl 15 0 .ro 0]⟩,
  ⟨0xA, [], [fl 7 0 .rw 0]⟩,
  ⟨0xB, [], [fl 23 23 .wo 0, fl 4 0 .wo 0]⟩,
  ⟨0x100, [(24, 0x4), (4, 0x1)], [fl 23 0 .rw 0]⟩,
  ⟨0x180, [(24, 0x4), (4, 0x1)], [fl 23 23 .rw 0, fl 22 22 .rw 0, fl 21 21 .w1c 0, fl 7 0 .rw 0]⟩,
  ⟨0x200, [(24, 0x4), (4, 0x1)], [fl 23 0 .ro 0]⟩,
  ⟨0x300, [(16, 0x4)], [fl 23 23 .rw 0, fl 15 0 .rw 0x400]⟩]

/-- Rows of the GLN window's map. -/
def tabGLN1 : List RegSpec := [
  ⟨0x301, [(16, 0x4)], [fl 23 8 .ro 0, fl 5 0 .ro 0]⟩,
  ⟨0x302, [(16, 0x4)], [fl 23 0 .ro 0]⟩]

/-- The GLN window's map. -/
def tabGLN : List RegSpec :=
  tabGLN0 ++ tabGLN1

/-- Rows of the FAB window's map. -/
def tabFAB0 : List RegSpec := [
  ⟨0x0, [], [fl 1 1 .rw 1, fl 0 0 .w1s 0]⟩,
  ⟨0x1, [], [fl 4 4 .ro 0, fl 3 3 .ro 0, fl 2 2 .ro 0, fl 1 1 .ro 0, fl 0 0 .ro 0]⟩,
  ⟨0x2, [], [fl 7 7 .w1c 0, fl 6 6 .w1c 0, fl 5 5 .w1c 0, fl 4 4 .w1c 0, fl 3 3 .w1c 0, fl 2 2 .w1c 0, fl 1 1 .w1c 0, fl 0 0 .w1c 0]⟩,
  ⟨0x3, [], [fk 0 0 .rw 0]⟩,
  ⟨0x4, [], [fl 23 23 .sat 0, fl 15 0 .ro 0]⟩,
  ⟨0x5, [], [fl 23 23 .sat 0, fl 21 16 .ro 0, fl 15 0 .ro 0]⟩,
  ⟨0x6, [], [fl 23 23 .sat 0, fl 20 16 .ro 0, fl 15 0 .ro 0]⟩,
  ⟨0x7, [], [fl 3 0 .ro 0]⟩,
  ⟨0x8, [], [fl 23 0 .ro 0]⟩,
  ⟨0x9, [], [fl 15 0 .ro 0]⟩,
  ⟨0xA, [], [fl 0 0 .rw 0]⟩,
  ⟨0xB, [], [fl 15 8 .rw 0xA, fl 7 0 .rw 8]⟩,
  ⟨0xC, [], [fl 15 0 .ro 0xFFFF]⟩,
  ⟨0xD, [(3, 0x1)], [fl 15 0 .ro 0xFFFF]⟩,
  ⟨0x10, [(2, 0x1)], [fl 15 0 .ro 0]⟩,
  ⟨0x12, [], [fl 14 0 .ro 0]⟩]

/-- Rows of the FAB window's map. -/
def tabFAB1 : List RegSpec := [
  ⟨0x13, [], [fl 23 23 .wo 0, fl 14 0 .ro 0]⟩,
  ⟨0x14, [], [fl 11 4 .rw 0x40, fl 3 0 .rw 0xC]⟩,
  ⟨0x15, [], [fl 23 16 .wo 0, fl 15 8 .ro 0, fl 7 0 .w1s 0]⟩,
  ⟨0x16, [], [fl 15 0 .rw 0x3E8]⟩,
  ⟨0x20, [(26, 0x1)], [fl 23 12 .rw 0xFFF, fl 11 0 .rw 0]⟩,
  ⟨0x40, [(26, 0x1)], [fl 14 0 .ro 0]⟩,
  ⟨0x60, [(8, 0x1)], [fl 7 0 .rw 0x10]⟩,
  ⟨0x68, [(8, 0x1)], [fl 14 0 .ro 0]⟩,
  ⟨0x100, [(256, 0x1)], [fl 23 16 .ro 0, fl 15 15 .ro 0, fl 14 14 .rw 0, fl 13 8 .rw 0, fl 7 0 .rw 1]⟩,
  ⟨0x200, [(8, 0x10), (11, 0x1)], [fl 23 0 .w1c 0]⟩,
  ⟨0x1000, [(8, 0x100), (256, 0x1)], [fl 20 16 .ro 0, fl 10 8 .ro 0, fl 2 2 .wo 0, fl 1 1 .wo 0, fl 0 0 .wo 0]⟩]

/-- The FAB window's map. -/
def tabFAB : List RegSpec :=
  tabFAB0 ++ tabFAB1

/-- Rows of the ACW window's map. -/
def tabACW0 : List RegSpec := [
  ⟨0x0, [], [fl 23 23 .rw 0, fk 21 20 .rw 0, fl 15 8 .rw 0x32]⟩,
  ⟨0x1, [], [fl 23 23 .ro 0, fl 22 22 .ro 0]⟩,
  ⟨0x2, [], [fl 3 3 .w1c 0, fl 2 2 .w1c 0, fl 1 1 .w1c 0, fl 0 0 .w1c 0]⟩,
  ⟨0x3, [], [fl 23 23 .sat 0, fl 22 20 .ro 0, fl 15 0 .ro 0]⟩,
  ⟨0x4, [], [fl 23 22 .ro 0, fl 21 20 .ro 0, fl 14 8 .ro 0, fl 7 0 .ro 0]⟩,
  ⟨0x5, [], [fl 23 0 .ro 0]⟩,
  ⟨0x6, [], [fl 23 0 .ro 0]⟩,
  ⟨0x10, [(4, 0x2)], [fl 23 23 .rw 0, fl 22 22 .rw 0, fl 21 21 .rw 0, fl 20 20 .rw 0, fl 14 8 .rw 0, fl 7 0 .rw 0x20]⟩,
  ⟨0x11, [(4, 0x2)], [fl 0 0 .wo 0]⟩,
  ⟨0x1000, [(4, 0x200), (512, 0x1)], [fl 23 0 .rw 0]⟩]

/-- The ACW window's map. -/
def tabACW : List RegSpec :=
  tabACW0

end Map

/-- `true` where `r` is a sum of instance offsets of `dims`, outermost dimension first. -/
def gridHas : List (Nat × Nat) → Nat → Bool
  | [], r => r == 0
  | (n, s) :: ds, r => r / s < n && gridHas ds (r % s)

/-- Does the register row name word offset `o` of its window? -/
def RegSpec.has (q : RegSpec) (o : Nat) : Bool := q.ofs ≤ o && gridHas q.dims (o - q.ofs)

/-- The first word address of the register windows (R10). -/
def windowBase : Nat := 0x8000000

/-- The number of register windows (R10). -/
def windowCount : Nat := 20

/-- The window (0 for STW to 19 for ACW, in address-map order, R10) of a word address. -/
def windowOf (a : Nat) : Option Nat :=
  if windowBase ≤ a ∧ a < windowBase + windowCount * 0x10000 then some ((a - windowBase) / 0x10000) else none

/-- The map of window `w` (R10 order). -/
def windowTable : Nat → List RegSpec
  | 0 => Map.tabSTW | 1 => Map.tabPLT | 2 => Map.tabIRQ | 3 => Map.tabTIN | 4 => Map.tabTMR | 5 => Map.tabDRL
  | 6 => Map.tabHRW | 7 => Map.tabBM | 8 => Map.tabBM | 9 => Map.tabAUD | 10 => Map.tabSUP | 11 => Map.tabLNK
  | 12 => Map.tabSEC | 13 => Map.tabGRN | 14 => Map.tabGPO | 15 => Map.tabPWR | 16 => Map.tabDBG | 17 => Map.tabGLN
  | 18 => Map.tabFAB | 19 => Map.tabACW | _ => []

/-- The resources of classes 0 to 19: how many each class has (R328, R335). -/
def classCount : Nat → Nat
  | 0 => 16 | 1 => 2 | 2 => 16 | 3 => 32 | 4 => 4 | 5 => 32 | 6 => 16 | 7 => 48 | 8 => 128 | 9 => 64 | 10 => 64
  | 11 => 4 | 12 => 4 | 13 => 1 | 14 => 1 | 15 => 2 | 16 => 4 | 17 => 4 | 18 => 1 | 19 => 1 | _ => 0

/-- Grid instances that the spec does not give: owner entries past their class's last resource (R335), and comparators
4 to 7 of a core (R462). -/
def notThere (w o : Nat) : Bool :=
  (w == 1 && 0x1000 ≤ o && o < 0x1A00 && classCount ((o - 0x1000) / 0x80) ≤ (o - 0x1000) % 0x80) ||
  (w == 16 && 0x200 ≤ o && o < 0x400 && 12 ≤ (o - 0x200) % 0x20)

/-- The register row at a word address; `none` for a reserved address of a window (R7) and outside the windows. -/
def regSpec (a : Nat) : Option RegSpec :=
  match windowOf a with
  | none => none
  | some w =>
    let o := (a - windowBase) % 0x10000
    if notThere w o then none else (windowTable w).find? (·.has o)

/-- The value that the reset values of a row's fields make together. -/
def fieldsReset : List FieldSpec → Nat
  | [] => 0
  | f :: fs => f.reset * 2 ^ f.lo + fieldsReset fs

/-- FAB_CRD_n.GUAR after reset (R61). -/
def guarReset (n : Nat) : Nat :=
  if n ≤ 16 then 0x010 else if n ≤ 18 then 0x100 else if n = 19 then 0x040 else if n = 20 then 0x080
  else if n = 21 then 0x040 else if n = 22 then 0x080 else if n ≤ 24 then 0x008 else 0x004

/-- A coefficient word of bank 0 after reset: linear interpolation (R121). `o` is the offset in the bank. -/
def coefReset (o : Nat) : Nat :=
  if o < 0x100 then
    let p := o / 3
    if o % 3 = 1 then (256 - 4 * p) * 2 ^ 12 + 4 * p else 0
  else
    let p := (o - 0x100) / 2
    if o % 2 = 0 then 256 - 4 * p else 4 * p * 2 ^ 12

/-- The value of the register at `a` after a reset that covers it. Where a row's fields have instance-dependent reset
values the rule that gives them is used: R61, R121, R390. PWR_DOMSTAT shows PD0 alone (R24, R449). -/
def resetOf (a : Nat) : Nat :=
  if Reg.FAB_CRD 0 ≤ a ∧ a < Reg.FAB_CRD 26 then 0xFFF000 + guarReset (a - Reg.FAB_CRD 0)
  else if a = Reg.IRQ_SRC 249 then 0x800110
  else if a = Reg.PWR_DOMSTAT then 1
  else if (windowOf a = some 7 ∨ windowOf a = some 8) ∧ 0x3000 ≤ a % 0x10000 ∧ a % 0x10000 < 0x3800
      ∧ (a % 0x10000) % 0x400 < 0x200 then
    if (regSpec a).isSome then coefReset (a % 0x200) else 0
  else match regSpec a with
    | none => 0
    | some q => fieldsReset q.fields

end Sys2Proof
end

