-- ==== Sys2Proof/Machine/Bits.lean ====
section
/-! DEFINITION. Reading and writing bit fields of a word (R4: bit ranges are written high:low, bit 23 most significant). -/
namespace Sys2Proof

/-- A word from a number, modulo 2^24. -/
abbrev wd (n : Nat) : Word := BitVec.ofNat 24 n

/-- The bits of the field set, the others clear. -/
def maskF (f : Fld) : Word := (BitVec.allOnes 24 >>> (23 - (f.hi - f.lo))) <<< f.lo

/-- The value of a field of a word. -/
def getF (w : Word) (f : Fld) : Nat := ((w &&& maskF f) >>> f.lo).toNat

/-- The word with a field set to `n`, modulo the field's width. -/
def putF (w : Word) (f : Fld) (n : Nat) : Word := (w &&& ~~~ maskF f) ||| ((wd n <<< f.lo) &&& maskF f)

/-- Bit `n` of a word. -/
def bit (w : Word) (n : Nat) : Bool := w.getLsbD n

/-- 1 for true, 0 for false. -/
def b2n (b : Bool) : Nat := if b then 1 else 0

/-- A signed reading of the low `n` bits of a number. -/
def signed (n : Nat) (v : Nat) : Int :=
  let m := v % 2 ^ n
  if m < 2 ^ (n - 1) then (m : Int) else (m : Int) - 2 ^ n

/-- The word that holds a two's-complement number modulo 2^24. -/
def wdI (i : Int) : Word := BitVec.ofInt 24 i

/-- A number held between two bounds. -/
def clampI (lo hi i : Int) : Int := if i < lo then lo else if hi < i then hi else i

/-- A word with one bit set. -/
def oneBit (n : Nat) : Word := wd 1 <<< n

/-- Apply `f` for every number below `n`, from 0 upward. -/
def forN {α : Type} (n : Nat) (f : Nat → α → α) (a : α) : α :=
  (List.range n).foldl (fun acc i => f i acc) a

/-- Apply `f` when `c` holds. -/
def when {α : Type} (c : Bool) (f : α → α) (a : α) : α := if c then f a else a

end Sys2Proof
end

