-- ==== Sys2Proof/Machine/Sparse.lean ====
section
/-! DEFINITION. Tables in one canonical form: a list of (key, value) pairs, keys strictly rising, no entry equal to what
an unlisted key reads as. Registers, memories and every array of the device are held this way, so that equal contents
are equal data. -/
namespace Sys2Proof

/-- A table from numbers to `α`; keys that are not listed read as a default that the reader of the table names. -/
abbrev Tab (α : Type) := List (Nat × α)

/-- The entry at `k`, or the default `d`. -/
def Tab.get {α : Type} (d : α) : Tab α → Nat → α
  | [], _ => d
  | (k', v) :: t, k => if k' = k then v else Tab.get d t k

/-- The table without key `k`. -/
def Tab.erase {α : Type} (t : Tab α) (k : Nat) : Tab α := t.filter (fun e => e.1 != k)

/-- Put the pair in front of the first greater key. -/
def Tab.insert {α : Type} (k : Nat) (v : α) : Tab α → Tab α
  | [] => [(k, v)]
  | (k', v') :: t => if k < k' then (k, v) :: (k', v') :: t else (k', v') :: Tab.insert k v t

/-- Set the entry at `k` to `v`, where `d` is what an unlisted `k` reads as. -/
def Tab.put {α : Type} [DecidableEq α] (d : α) (t : Tab α) (k : Nat) (v : α) : Tab α :=
  if v = d then t.erase k else Tab.insert k v (t.erase k)

/-- Keep the entries whose key is in `keep`; the others read as their default again. -/
def Tab.keep {α : Type} (t : Tab α) (keep : Nat → Bool) : Tab α := t.filter (fun e => keep e.1)

/-- Are the keys of the list strictly rising, and all greater than `b`? -/
def Tab.risesFrom {α : Type} : Nat → Tab α → Bool
  | _, [] => true
  | b, (k, _) :: t => b < k && Tab.risesFrom k t

/-- The canonical form: keys strictly rising, and no entry equal to the default of its key. -/
def Tab.wf {α : Type} [DecidableEq α] (d : Nat → α) : Tab α → Bool
  | [] => true
  | (k, v) :: t => decide (v ≠ d k) && Tab.risesFrom k t && Tab.wf d t

/-- A memory of words is in canonical form: addresses strictly rising, and no entry equal to the 0 that an unlisted address
reads as. -/
abbrev Memory.wf (m : Tab (BitVec 24)) : Bool := Tab.wf (fun _ => 0) m

end Sys2Proof
end

