-- ==== Sys2Proof/Machine/State.lean ====
section
/-! DEFINITION. The state of the block as plain data: the registers of the register map (the value last written, the value
in effect of a staged register, the working value of a Furrow program), field memory, the Granary's array, the timebase,
and for each unit the state that the spec gives it besides its registers; the reasons a command can stop; the state
right after reset. -/
namespace Sys2Proof.Machine

/-- The answer that the bus gives a requester: the data word, the further words of a longer read, and whether it is good,
an error or poisoned (R11, R56). -/
structure Resp where
  value : Word := 0
  more : List Word := []
  kind : BusResp := .ok
  deriving DecidableEq, Repr

/-- A transaction that holds a tag (R40, R41). `result` is `none` until its bank has granted it (R43, R44); `weight` is the weight
of its plot when it took its tag, under which it completes (R19). -/
structure Txn where
  tag : Nat
  req : Nat
  plot : Nat
  cls : ReqClass
  addr : Nat
  op : TxnOp
  result : Option (List Word × BusResp)
  weight : Nat
  deriving DecidableEq, Repr

/-- A snoop on its way from a directory to a core (R49, R51): invalidate, or supply and keep a shared copy. -/
structure Snoop where
  core : Nat
  line : Nat
  inval : Bool
  deriving DecidableEq, Repr

/-- A line of 12 words on its way from a core's data cache to its directory (R45, R51). -/
structure Writeback where
  core : Nat
  line : Nat
  words : List Word
  deriving DecidableEq, Repr

/-- Hidden state of the fabric: transactions in flight in order of issue; requests that wait for a tag (R41), whose tag and weight
are not yet set; the grants of each bank that R43, R44 and R340 weigh; the banks that are waking; the holder of each semaphore; the fence time of each plot; snoops and writebacks under
way; the quadrants that their sensor put at the 32 ms rate. -/
structure FabSt where
  inflight : List Txn := []
  waiters : List Txn := []
  grants : Tab Nat := []
  beamGrants : Tab Nat := []
  waking : BitVec 32 := 0
  semHold : Tab (Option (Nat × Nat)) := []
  fenceTo : Tab Nat := []
  snoops : List Snoop := []
  wbs : List Writeback := []
  hot : BitVec 4 := 0
  deriving DecidableEq, Repr

/-- An event on its way through the tine network (R396): its tine, and whether a gate unit published it (R399). -/
structure TineEvent where
  tine : Nat
  fromGate : Bool
  deriving DecidableEq, Repr

/-- Events published and not yet accepted by their tine's entry stage, and events in the network (R397, R398). -/
structure TinSt where
  waiting : List TineEvent := []
  transit : List TineEvent := []
  deriving DecidableEq, Repr

/-- A page write of the Granary that is queued or programming (R347): the supervision port's or the Steward port's, its
page and its words. -/
structure GrnJob where
  sup : Bool
  page : Nat
  words : List Word
  deriving DecidableEq, Repr

/-- A frame of the acoustic watcher: whether it is voiced, its 16 features (R234). -/
structure AcwFrame where
  voiced : Bool
  feats : List Nat
  deriving DecidableEq, Repr

/-- The acoustic watcher, in PD0 (R32, R233 to R238): offsets whose mirrored write has not reached the 32.768 kHz domain, the
latest 32,000 samples with the newest last, the latest frames with the newest first, which steps of each tone signature the latest frames hold, the signatures armed by
ENROL, and the ENROL writes that wait for their transfer. -/
structure AcwSt where
  mirror : List Nat := []
  ring : List (BitVec 16) := []
  frames : List AcwFrame := []
  tones : Tab (List Nat) := []
  arm : BitVec 4 := 0
  want : BitVec 4 := 0
  deriving DecidableEq, Repr

/-- The identity store of PD3, which no reset changes (R349 to R353): the IV counter of each operation slot and the operator
certificates, as words of three bytes. -/
structure SecSt where
  iv : Tab Nat := []
  cert : List Word := []
  root : List Word := []
  deriving DecidableEq, Repr

/-- The pads of G0 to G47: the level from outside, and the level after the pin filter (R430, R431); ERR of the SPI target port
(R428). -/
structure PadSt where
  level : BitVec 48 := 0
  filt : BitVec 48 := 0
  spiErr : Bool := false
  deriving DecidableEq, Repr

/-- The power unit's hidden state: the state that a sequence leads to and its KEEP bits while PWR_STAT.BUSY is 1, whether
the device is Dormant, a wake that fired after the commit of a Dormant entry, the domains that are coming on, whether
start-up has run since the last reset, whether the last junction reading was 130 °C or more, and whether a thermal trip
holds the domains off, whether PD0 runs; the VREQ frame under way, its retries and the request that waits (R443 to R449);
whether the Steward has run since the last reset; the need term of R78 and its windows above the high slack. -/
structure PwrSt where
  target : Option (Nat × Nat) := none
  dormant : Bool := false
  wakeHeld : Option Nat := none
  rising : BitVec 20 := 0
  started : Bool := false
  hot : Bool := false
  tripped : Bool := false
  pd0Runs : Bool := false
  retries : Nat := 0
  pendReq : Option Nat := none
  inFrame : Option Nat := none
  booted : Bool := false
  need : Nat := 20
  windows : Nat := 0
  capped : Bool := false
  winMin : Nat := 0xFFFF
  deriving DecidableEq, Repr

/-- The timers (R405, R406, R409, R410): each counter, its count events since the last advance, the START, CAP and LOAD that wait
for the next count event, and the CTINE inputs whose handshake is under way. -/
structure TmrSt where
  cnt : Tab (BitVec 48) := []
  pre : Tab Nat := []
  start : BitVec 16 := 0
  cap : BitVec 16 := 0
  load : BitVec 16 := 0
  busy : BitVec 16 := 0
  deriving DecidableEq, Repr

/-- The Drill (R414, R415, R427, R473): tine grants held, the channel of each priority that ran last, the channel of the last burst;
the channels whose source or destination has gone past the address space; the words in each peripheral FIFO, by the request line
that it drives. -/
structure DrlSt where
  grant : BitVec 32 := 0
  last : Tab Nat := []
  cur : Option Nat := none
  srcPast : BitVec 32 := 0
  dstPast : BitVec 32 := 0
  fifo : Tab Nat := []
  deriving DecidableEq, Repr

/-- A pending change of mode bits (R248): the bits it sets and clears, after `left` more instructions. -/
structure Shadow where
  left : Nat
  setBits : Word
  clrBits : Word
  deriving DecidableEq, Repr

/-- A DIV, DIVU or accumulating instruction that has not retired (R276): the register and value it writes, if any, and the
imprecise exception it raises, if any. -/
structure LongOp where
  dest : Option (RegNo × Word)
  cause : Option Nat
  deriving DecidableEq, Repr

/-- An entry of the store buffer (R272). -/
structure StoreEnt where
  vaddr : Word
  paddr : Nat
  value : Word
  deriving DecidableEq, Repr

/-- What a processor waits for before its instruction at PC can complete (R270, R274): the load of a word into `dest`,
with the base register's update and the instruction's first word, or the acknowledge of a store to a Device page. -/
inductive WaitOp where
  | load (vaddr : Word) (paddr : Nat) (dest : RegNo) (upd : Option (RegNo × Word)) (word : Word) (dev : Bool)
  | store (vaddr : Word) (paddr : Nat) (value : Word) (upd : Option (RegNo × Word)) (word : Word)
  deriving DecidableEq, Repr

/-- The state of a line in a data cache (R49). -/
inductive LineSt where
  | shared | exclusive | modified
  deriving DecidableEq, Repr

/-- A line of a data cache. -/
structure CLine where
  line : Nat
  st : LineSt
  words : List Word
  deriving DecidableEq, Repr

/-- A processor (R244 to R246, R294). Processors 0 to 15 are the cores, 16 is the Steward. `accHist` holds the accumulators
before each of the last three instructions, newest first, and fewer after an exception (R255); `slot` the branch whose delay
slot comes next, with its target where taken; `exit` the instructions left of an RTE shadow; `longs`, `imprecise` what R276
and R277 leave for later, with the depth of the handlers over that of an imprecise exception and the number of those that were
pending together with it; `stores` the store buffer and `drains` its entries that the fabric has not acknowledged; `wait` the
access that the instruction at PC waits for; `parked` a core that waits for a restart of its plot (R445), or the Steward before
its microcode is loaded; `atBrk` a halt at a BRK (R458), `haltDue` a halt due before the next instruction with its cause and
comparator, `cmpDone` that the fetch at PC has had its matches (R462); `missed` a cache miss in the present instruction; `samples`, `since` and `smpWord` the records of R467, the
instructions since the last one and the words of the oldest one read. -/
structure ProcSt where
  w : Tab Word := []
  pc : Word := 0
  status : Word := 0x80
  epc : Word := 0
  estatus : Word := 0
  ecause : Word := 0
  eaddr : Word := 0
  lc : Word := 0
  lsa : Word := 0
  lea : Word := 0
  evec : Word := 0
  scr0 : Word := 0
  scr1 : Word := 0
  dseg : Word := 0
  cseg : Word := 0xF
  acc : BitVec 48 := 0
  accHist : List (BitVec 48) := [0, 0, 0]
  shadows : List Shadow := []
  slot : Option (Word × Option Word) := none
  exit : Option Nat := none
  longs : List LongOp := []
  imprecise : List (Nat × Word) := []
  impDepth : Nat := 0
  impHeld : Nat := 0
  stores : List StoreEnt := []
  drains : List StoreEnt := []
  wait : Option WaitOp := none
  dcache : List CLine := []
  icache : List Nat := []
  tlb : List Nat := []
  waiting : Bool := false
  faulted : Bool := false
  parked : Bool := true
  stepping : Bool := false
  atBrk : Bool := false
  haltDue : Option (Nat × Nat) := none
  cmpDone : Bool := false
  missed : Bool := false
  samples : List (List Word) := []
  since : Nat := 0
  smpWord : Nat := 0
  deriving DecidableEq, Repr

/-- The sequencer and the control store of the Steward (R296 to R313): microwords written by store address, addresses whose
parity is wrong; T0 to T7, IR, IR2, the store address of the next microword, the micro-stack; the custom function that runs with
the address of its instruction, its micro-steps and MEM microwords; the address of an open LOCK pair; a machine check that
stopped the sequencer and its instant; the instants of the last machine checks, none for one before the timebase was lost, and
whether the third of them came within 10 s of the first (R308); whether the sequencer is inside an instruction (R298); the instant
at which the watchdog was last restarted, and that of a halt that holds it (R304). -/
structure UcSt where
  store : Tab (Option Word) := []
  bad : List Nat := []
  t : Tab Word := []
  ir : Word := 0
  ir2 : Word := 0
  upc : Nat := 0
  ustack : List Nat := []
  custom : Option (Nat × Word × Nat × Nat) := none
  lock : Option Nat := none
  stopped : Bool := false
  stopAt : Nat := 0
  checks : List (Option Nat) := []
  third : Bool := false
  mid : Bool := false
  wdogAt : Nat := 0
  haltAt : Option Nat := none
  deriving DecidableEq, Repr

/-- The debug port (R454, R455): the address of the last READ or WRITE, the access that answered WAIT with the word that it
writes, the outcome that waits for RESULT, the acknowledge and data of the last response; the matches that each comparator has
counted, by 8 × processor + comparator (R462). -/
structure DbgSt where
  addr : Nat := 0
  wait : Option (Nat × Option Word) := none
  result : Option (Nat × Word) := none
  ack : Nat := 0
  data : Word := 0
  hits : Tab Nat := []
  deriving DecidableEq, Repr

/-- A write that a Furrow program has queued for a line (R143, R149). -/
inductive FurOp where
  | set (v : Word)
  | mask (m v : Word)
  | add (d : Word)
  deriving DecidableEq, Repr

/-- A queued Furrow write: its line, the word offset in the beam's window, what it writes, and its program word address
(for HRW_FWx_LASTERR). -/
structure FurWrite where
  line : Nat
  ofs : Nat
  op : FurOp
  word : Nat
  deriving DecidableEq, Repr

/-- A Furrow engine (R141, R149 to R157): among the rest the window's first word and the words it holds (none where it holds nothing), and the
words of an instruction that reaches past the window, taken before the window moved (R153). -/
structure FurSt where
  run : Option Nat := none
  todo : List Nat := []
  pos : Nat := 0
  words : Nat := 0
  writes : Nat := 0
  loop : Option (Nat × Nat) := none
  skip : Nat := 0
  waitl : Option Nat := none
  win : Nat := 0
  fetching : Bool := false
  held : List Word := []
  part : List Word := []
  queue : List FurWrite := []
  late : List Nat := []
  deriving DecidableEq, Repr

/-- A watched region (R133 to R138): the running CRC; once its last pixel of a frame is in, the mode and the two signatures
expected that were in effect, and the frame's index; the last completed signature with its frame index, whether one was completed since the fields
last changed, and the instant of the next NOFRAME in ticks. -/
structure RegionSt where
  crc : BitVec 32 := 0xFFFFFFFF
  ended : Option (Nat × Nat × Nat × Nat) := none
  sig : Option (BitVec 32 × Nat) := none
  fresh : Bool := false
  noframeAt : Option Nat := none
  deriving DecidableEq, Repr

/-- Where a generator is in the sequence of R71 and R72: waiting for the pixel PLL, for a pair of edges, for the frame
Headland of the first frame, or in that Headland. -/
inductive Acq where
  | none | pll | edges | grid | headland
  deriving DecidableEq, Repr

/-- The generator of a beam (R62 to R73): the copy that a TGO took; the acquire step; the last accepted edge of GLK_IN and
the first edge of a possible pair; whether the pixel clock slews after a HOLD; when the re-lock started; the instant and
index of the frame start chosen; the instant of the last frame start; the index of the present frame; the pulses given on
GLK_OUT; when the acquire or re-lock began to wait for the PLL; the whole lines left of the grid of the chosen start (R71 step 4);
whether the present frame Headland is a transitional one (R72). While the generator runs, the chosen start is that of the next frame.
Instants are timebase ticks. -/
structure GenSt where
  tgo : Option (List Word) := none
  acq : Acq := .none
  last : Option Nat := none
  cand : Option Nat := none
  slewing : Bool := false
  relockAt : Option Nat := none
  chosen : Option (Nat × Nat) := none
  startAt : Nat := 0
  index : Nat := 0
  glkOut : Nat := 0
  pllAt : Nat := 0
  linesLeft : Nat := 0
  trans : Bool := false
  deriving DecidableEq, Repr

/-- The pixel island of a beam (R74, R132): the line being sent, the line that is sent next, whether its LINE_SEND_START has
come, the colours that UNDER held earlier in this line with the column up to which each held, whether the crossing
of the output copy is full; the copy: on for this frame, whether as the one frame of MODE 2, frames to pass over, entries dropped, and for the frame whose last words are on
their way its index, whether entries were dropped and whether it was that one frame; whether a blank line is being sent; the pixels of
the last line sent. -/
structure IslandSt where
  sending : Option Nat := none
  next : Nat := 0
  framed : Bool := false
  under : List (Nat × Word) := []
  full : Bool := false
  capOn : Bool := false
  capSkip : Nat := 0
  capOvr : Bool := false
  capOnce : Bool := false
  capEnd : Option (Nat × Bool × Bool) := none
  blank : Bool := false
  sent : List Word := []
  deriving DecidableEq, Repr

/-- The compositor of a beam (R112, R142): the line being composed, the first line not started, the segments of the line
that are done and their pixels, the lines of the store (a pixel is absent where it was composed after its own period), the draw list as the entries read at selection (R100), the shedding
levels reached, the plots whose layers count as disabled in this line (R342). -/
structure CompSt where
  line : Option Nat := none
  next : Nat := 0
  seg : Nat := 0
  pixels : List (Option Word) := []
  store : List (Nat × List (Option Word)) := []
  draw : List (List Word) := []
  spLevel : Nat := 0
  lyLevel : Bool := false
  fenced : List Nat := []
  deriving DecidableEq, Repr

/-- The static group of a beam (R128 to R130): the ranges watched and recorded, keyed by 2 × layer + source; whether every
line so far could be clean; whether an invalidation has come; whether a layer left by a fence (R129); the ignored layers. -/
structure FlatSt where
  watched : Tab (Option (Nat × Nat)) := []
  recorded : Tab (Option (Nat × Nat)) := []
  clean : Bool := false
  inval : Bool := false
  broken : Bool := false
  ignored : List Nat := []
  deriving DecidableEq, Repr

/-- Hidden state of a beam: generator, island, compositor, static group, Furrow engine, watched regions; the offsets whose
staged value a staged-message start wrote last (R86), and the scalers that have latched a valid set (R122). -/
structure BeamSt where
  gen : GenSt := {}
  out : IslandSt := {}
  comp : CompSt := {}
  flat : FlatSt := {}
  fur : FurSt := {}
  regions : Tab RegionSt := []
  byMessage : List Nat := []
  scalersSet : List Nat := []
  deriving DecidableEq, Repr

/-- The FILL or COPY that a Harrow list is in (R164): COPY or FILL, its fields, the row, how many columns of the row are
issued; the source words read and the destination words read for the pixels that come next; for an overlap that R166 does not order, the
words that this command has overwritten. -/
structure HrwJob where
  copy : Bool
  alpha : Nat
  xdir : Bool
  ydir : Bool
  pal : Nat
  colour : Word
  sx : Nat
  sy : Nat
  dx : Nat
  dy : Nat
  w : Nat
  h : Nat
  row : Nat := 0
  col : Nat := 0
  got : List (Nat × Word) := []
  under : Option (List (Nat × Word)) := none
  olds : Tab (Option Word) := []
  deriving DecidableEq, Repr

/-- A list in a Harrow queue (R161, R162, R167): the number of its submission, its base, the word of its next command and
that of the last one, the words of the command fetched, its surfaces, clip, key and table, what it is doing, the beam whose WM event it
waits for. -/
structure HrwList where
  id : Nat
  base : Nat
  pos : Nat := 0
  at0 : Nat := 0
  cmd : Option (List Word) := none
  dst : Nat × Nat := (0, 1)
  src : Nat × Nat × Nat := (0, 1, 0)
  clip : Option (Nat × Nat × Nat × Nat) := none
  key : Option Word := none
  lut : Nat := 0
  job : Option HrwJob := none
  wait : Option Nat := none
  started : Bool := false
  ended : Bool := false
  deriving DecidableEq, Repr

/-- A completion held for a WM event (R170): the beam, and the tine where TEN is 1. -/
structure HrwHeld where
  beam : Nat
  tine : Option Nat
  deriving DecidableEq, Repr

/-- The Harrow (R160 to R173): its four queues, the head first; the completions held; the queue of the running list; the
number of the next submission; the table loaded, for which list, base, format and PAL, and the entries of one that is being loaded. -/
structure HrwSt where
  queues : Tab (List HrwList) := []
  held : Tab (List HrwHeld) := []
  active : Option Nat := none
  nextId : Nat := 0
  table : Option ((Nat × Nat × Nat × Nat) × List Word) := none
  loading : Option ((Nat × Nat × Nat × Nat) × List Word) := none
  deriving DecidableEq, Repr

/-- A report that its holder has not acknowledged (R326): its code, SEQ and payload. -/
structure Report where
  code : Nat
  seq : Nat
  words : List Word
  deriving DecidableEq, Repr

/-- A pair of sender and PLOT (R322): SRCKIND, SRC, PLOT, the last SEQ accepted and the reply to it, where it is short. -/
structure TykPair where
  kind : Nat
  src : Nat
  plot : Nat
  last : Nat
  reply : Option (List Word) := none
  deriving DecidableEq, Repr

/-- What an accepted request waits for: the agent of its plot, with the instant of its TIMEOUT and how many items it has (R318, R324, R325), Granary pages with the number written (R332), the end of
a fence or of a reset (R333), the end of a Sheaf's loading (R331). -/
inductive TykOp where
  | agent (due items : Nat) | pages (todo : List (Nat × List Word)) (done : Nat) | fence (p : Nat) | reset (p : Nat) | sheaf
  deriving DecidableEq, Repr

/-- An accepted request that has no reply yet: its transport, its header, what it waits for. -/
structure TykWait where
  via : Transport
  head : List Word
  op : TykOp
  deriving DecidableEq, Repr

/-- A frame received and not yet processed: its transport, its words, the holders of the plots as it arrived (R18). -/
structure TykIn where
  via : Transport
  words : List Word
  holder : Tab (Nat × Nat) := []
  deriving DecidableEq, Repr

/-- What the Steward firmware keeps for Tyskaolo (R18, R322 to R326, R334): the holder of each plot as kind and address, the
reports queued for each plot and the next SEQ of each; the frames received and not yet processed, and the frames handed to
the operator host and the local host as bytes, the oldest first; the pair table, the last used first; the requests that wait for
their reply; the headers of the requests that the manager has relayed, with the instant of their TIMEOUT; the words that
CERT_ENROL has brought. -/
structure TykSt where
  inq : List TykIn := []
  holder : Tab (Nat × Nat) := []
  reports : Tab (List Report) := []
  rseq : Tab Nat := []
  out : List (Transport × List (BitVec 8)) := []
  pairs : List TykPair := []
  waits : List TykWait := []
  relays : List (List Word × Nat) := []
  enrol : Tab Word := []
  deriving DecidableEq, Repr

/-- An override input (R218 to R222): the filtered pad level of each channel, its differing samples in a row, the instant of
its last confirmed change and whether that fell into a time without timebase; the agreed state left, the evaluations since and
whether channel B changed first; whether the input counts as active; the date of the last transition, FAULT or clear; whether a start
that it requested, and a FAULT that it latched, while PD16 was off has yet to be met (R217, R232). -/
structure OvSt where
  fa : Bool := false
  fb : Bool := false
  ca : Nat := 0
  cb : Nat := 0
  ta : Nat := 0
  tb : Nat := 0
  la : Bool := false
  lb : Bool := false
  left : Nat := 0
  since : Nat := 0
  firstB : Bool := false
  act : Bool := false
  date : Nat := 0
  owed : Bool := false
  unsaid : Bool := false
  deriving DecidableEq, Repr

/-- A pilot or test tone of the night round (R226, R228): its channel, its frequency in Hz, its peak with 64 fraction bits, the index at which
it begins to rise, the index at which it begins to fall and its level then, as a fraction with 64 fraction bits. -/
structure NrTone where
  chan : Nat
  freq : Nat
  amp : Int
  rise : Nat
  fall : Nat
  top : Int := 2 ^ 64
  deriving DecidableEq, Repr

/-- The night round (R223 to R231): the channels whose impedance step, and those whose acoustic step, has not ended; the
phases of the present step that have ended; the registers that the round and that the step read; the instant of the start;
the background level measured; the output index at which the present step begins; the pilot or tone; the sums that the step has formed:
of V and I, or of the background and the level, each with its real and its imaginary part, with 64 fraction bits. -/
structure NrSt where
  imp : List Nat := []
  ac : List Nat := []
  phase : Nat := 0
  cfg : List Word := []
  set : List Word := []
  start : Nat := 0
  bg : Int := 0
  at0 : Nat := 0
  tone : Option NrTone := none
  acc : Int × Int × Int × Int := (0, 0, 0, 0)
  deriving DecidableEq, Repr

/-- What a staged-message start waits for (R216): that the unit begins it, the audio state and its Sheaf slot, the end of
the Harrow list of this number (none where the queue took no list), or nothing more from the Harrow. -/
inductive StgWait where
  | begin' | sheaf | harrow (id : Option Nat) | harrowDone
  deriving DecidableEq, Repr

/-- The staged-message starter (R216, R217): the source whose start, or whose stop, runs, with its slot and whether it is
the stop; the descriptor read; the wait; the slot that the software source asked for; the slot whose message plays. -/
structure StgSt where
  src : Option Nat := none
  slot : Nat := 0
  stop : Bool := false
  desc : List Word := []
  wait : StgWait := .begin'
  soft : Nat := 0
  playSlot : Nat := 0
  deriving DecidableEq, Repr

/-- The supervision unit, in PD16: the override inputs, the night round, the staged-message starter. -/
structure SupSt where
  ov : Tab OvSt := []
  nr : NrSt := {}
  stg : StgSt := {}
  deriving DecidableEq, Repr

/-- A voice (R188 to R193): the index at which a start is due, whether one at the next index is, whether a STOP waits, whether REL came, whether its last
sample is out; its mode, base, length, loop and envelope fields as latched; its position in 1/4096 samples, passes left,
phase accumulator, samples put out; the count at which REL started a chime's decay; the words that its reads have returned
and not passed, by address; the ADPCM block counted as silent. STATE stands in AUD_Vv_STAT. -/
structure VoiceSt where
  start : Option Nat := none
  go : Bool := false
  stop : Bool := false
  rel : Bool := false
  finish : Bool := false
  mode : Nat := 0
  base : Nat := 0
  len : Nat := 0
  loops : Nat := 0
  loope : Nat := 0
  loopn : Nat := 0
  rem : Nat := 0
  pos : Nat := 0
  acc : Nat := 0
  count : Nat := 0
  attack : Nat := 0
  decay : Nat := 1
  relAt : Option Nat := none
  words : Tab (Option Word) := []
  silent : Option Nat := none
  deriving DecidableEq, Repr

/-- A loaded Sheaf (R195): its phases as (offset, ZC, value), the phases applied, whether its boundary has come. -/
structure SheafSt where
  phases : List (List (Nat × Bool × Word)) := []
  applied : Nat := 0
  due : Bool := false
  deriving DecidableEq, Repr

/-- The control channel of a port (R367): the counter of the next frame out, the frames of the present message that have gone, and the
eight bytes of the last frame out; the counter that the next frame in must carry, the message that is coming in with its frames,
and the instant of the last valid frame. -/
structure CtlSt where
  txN : Nat := 0
  txPos : Nat := 0
  sent : List (BitVec 8) := []
  rxN : Option Nat := none
  msg : List (BitVec 8) := []
  frames : Nat := 0
  heard : Nat := 0
  deriving DecidableEq, Repr

/-- A TDM port (R199, R200): the next frame it exchanges, the output frames and the input frames in its crossings, the last
value of each input slot and for how many frames it has stood; the samples of the last frame sent. -/
structure PortSt where
  next : Nat := 0
  outq : List (Nat × List Word) := []
  inq : List (Nat × List Word) := []
  last : List Word := []
  runs : List Nat := []
  sent : List Word := []
  ctl : CtlSt := {}
  deriving DecidableEq, Repr

/-- The delay tap of an output (R203, R204): the delay before the last change and the present one, none for no delay line,
and the samples of the crossfade that are out. -/
structure TapSt where
  old : Option Nat := none
  cur : Option Nat := none
  step : Nat := 256
  deriving DecidableEq, Repr

/-- The trim of an ambient loop in 1/256 of 0.5 dB (R206): where its ramp starts and ends, and the samples that are out. -/
structure TrimSt where
  src : Int := 0
  dst : Int := 0
  step : Nat := 256
  deriving DecidableEq, Repr

/-- What an ambient loop has measured in the present period (R205, R206): its samples, those in quiet blocks of 10 ms and the sum of the
squares of SRC over them; of the present block the samples, the sum of the squares of SRC, and of each output. -/
structure AmbSt where
  n : Nat := 0
  q : Nat := 0
  pow : Nat := 0
  blk : Nat := 0
  blkPow : Nat := 0
  outs : List Nat := []
  deriving DecidableEq, Repr

/-- The audio engine: the next output index, the next frame of the clocked side; voices, Sheaf slots, node timeouts by
64 × input + output as timebase instants, the input samples of the previous index, the returns, ports, samples received for
link inputs, delay taps, trims, what the ambient loops have measured. -/
structure AudSt where
  next : Option Nat := none
  frame : Nat := 0
  voices : Tab VoiceSt := []
  slots : Tab SheafSt := []
  nodeTo : Tab (Option Nat) := []
  prevIn : List Int := []
  returns : List Word := []
  ports : Tab PortSt := []
  linkIn : Tab (List (Nat × Word)) := []
  taps : Tab TapSt := []
  trims : Tab TrimSt := []
  amb : Tab AmbSt := []
  deriving DecidableEq, Repr

/-- A frame handed to a lane: whether the device sends it itself or passes it on, the instant of the timebase at which it begins to leave,
its TYPE and the rest (R368, R374). -/
structure LnkFrame where
  own : Bool := true
  start : Nat := 0
  ty : Nat
  body : LinkFrame
  deriving DecidableEq, Repr

/-- An AES-256 key with its salt of 48 bits (R368, R372). -/
structure HopKey where
  key : List (BitVec 8) := []
  salt : List (BitVec 8) := []
  deriving DecidableEq, Repr

/-- An authentication in progress (R372): the own ephemeral scalar, the own first message, empty where none is in progress, the partner's,
and the partner's signature. -/
structure AuthSt where
  scalar : Nat := 0
  mine : List Word := []
  theirs : List Word := []
  proof : List (BitVec 8) := []
  deriving DecidableEq, Repr

/-- A partner of end-to-end traffic (R372): the own address and the partner's under which it runs; the lane, for a device that joins; the
authentication in progress; whether the keys stand, the keys of both directions, the own frame counter; the Tyskaolo frames that
wait for the keys. -/
structure E2eSt where
  me : Nat
  peer : Nat
  lane : Option Nat := none
  auth : AuthSt := {}
  keyed : Bool := false
  tx : HopKey := {}
  rx : HopKey := {}
  ctr : Nat := 0
  wait : List (List Word) := []
  deriving DecidableEq, Repr

/-- A lane (R363 to R374, R382): the rates it has removed; the partner's last capability block; the setting computed; whether it is one of
a bonded pair; the hop key epoch, the keys of both directions and the own frame counter; the authentication in progress; whether
the partner is known to have joined (R379); whether its beats are missed; the hops to the reference that TIME named; departure and
arrival of the partner's last TIME frame; departure of the own last one with the pair that it answers; the last delays in units of
0.1 ns; the frames handed to the lane, in the order in which they leave; the blocks that a full crossing has dropped (R30). -/
structure LaneSt where
  removed : Nat := 0
  block : List Word := []
  setw : Option Nat := none
  wide : Bool := false
  keyid : Nat := 0
  tx : HopKey := {}
  rx : HopKey := {}
  ctr : Nat := 0
  auth : AuthSt := {}
  opened : Bool := false
  lost : Bool := false
  hops : Nat := 0
  part : Option (Nat × Nat) := none
  sent : Option (Nat × Option (Nat × Nat)) := none
  delays : List Int := []
  out : List LnkFrame := []
  dropped : Nat := 0
  deriving DecidableEq, Repr

/-- The references of the timebase (R380): the last accepted edge of genlock and the first edge of a possible pair; since when
each source has been valid without a break. Instants are timebase ticks. -/
structure RefSt where
  glkLast : Option Nat := none
  glkCand : Option Nat := none
  since : Tab (Option Nat) := []
  deriving DecidableEq, Repr

/-- An entry of the system directory, at the manager (R21, R328, R379): address, role, whether it is lost, segment, ring
position, SEC_DEVID, certificate serial; the ring of the manager by which it joined, 0 the worker ring, 1 the trunk. -/
structure DirEntry where
  addr : Nat
  role : Nat
  lost : Bool
  seg : Nat
  pos : Nat
  devid : Word
  cser : Word
  ring : Nat := 1
  deriving DecidableEq, Repr

/-- The link (R364 to R382): the lanes; the next SEQ of each TYPE; the keys of the CTRL and RING frames kept of each sender;
the indices received of each stream; the ring directions that a cut lies in (worker east and west, trunk east and west), and the
cuts that RING frames have told of, as ring and position west of the cut; the trunk position; whether the timebase has locked to
link time since the last reset or join; whether a join is asked for, and the request at the manager: its lane, DEVID, serial and
position; the partners of end-to-end traffic, the oldest first; the instants of the last manager beat and of the last standby
beat; the directory; the messages sent to each amplifier and whether SET was confirmed; the samples that wait for a STREAM frame
of each link output; the references. -/
structure LnkSt where
  lanes : Tab LaneSt := []
  seq : Tab Nat := []
  keys : Tab (List (Nat × Nat)) := []
  seen : Tab (List (Nat × Nat)) := []
  blocked : BitVec 4 := 0
  cuts : List (Nat × Nat) := []
  tpos : Nat := 0
  locked : Bool := false
  joinAsk : Bool := false
  joinOf : Option (Nat × Word × Word × Nat) := none
  e2e : List E2eSt := []
  mgrAt : Nat := 0
  stbyAt : Nat := 0
  dir : List DirEntry := []
  amp : Tab (List (List (BitVec 8))) := []
  ampAck : BitVec 4 := 0
  outs : Tab (List (Nat × Word)) := []
  ref : RefSt := {}
  deriving DecidableEq, Repr

/-- The state of the block. `pending` is the queue of the commands that are waiting, first in, first out. `regs` and `eff`
hold what differs from the reset values; `work` the working values of R144; `resp` the last answer of each requester; `irqHeld` the
source groups that are held off and `irqUntil` the instants at which their hold-off ends (R394); `gln` the Glean record that is being written, with its address (R466);
`freeCtr` is the model's own field: the number of the next free value (log entry 5). -/
structure State where
  pending : List Instr := []
  regs : Tab Word := []
  eff : Tab Word := []
  mem : Tab Word := []
  gran : Tab Word := []
  timebase : BitVec 64 := 0
  freeCtr : Nat := 0
  resp : Tab Resp := []
  fab : FabSt := {}
  irqHeld : BitVec 16 := 0
  irqUntil : Tab Nat := []
  tin : TinSt := {}
  tmr : TmrSt := {}
  drl : DrlSt := {}
  grn : List GrnJob := []
  pads : PadSt := {}
  acw : AcwSt := {}
  sec : SecSt := {}
  pwr : PwrSt := {}
  procs : Tab ProcSt := []
  work : Tab (Option Word) := []
  beams : Tab BeamSt := []
  tyk : TykSt := {}
  hrw : HrwSt := {}
  sup : SupSt := {}
  aud : AudSt := {}
  lnk : LnkSt := {}
  uc : UcSt := {}
  dbg : DbgSt := {}
  gln : Option (Nat × List Word) := none
  deriving DecidableEq, Repr

/-- The spec names no command on which the block stops for good: this type has no constructor, and no meaning faults. -/
inductive Fault where
  deriving DecidableEq, Repr

/-- Why the model gives a command no meaning. -/
inductive Refusal where
  /-- A row of the table whose meaning is not written; raised by a refused arm of `exec` alone. Safe: nothing is claimed
  of such a command. -/
  | notModelled (mnemonic : String)
  /-- The operands are not of the shape that the row's rule allows (`Instr.wf`): a list too long for the field that it
  stands for. Raised by the meanings whose operands hold a list, before any effect. Safe: no such command exists. -/
  | illFormed
  deriving DecidableEq, Repr

/-- What a command's meaning answers. -/
abbrev Out : Type := Host.Outcome State Fault Refusal

/-- The machine right after power-on reset (R447): every register at its reset value, no memory row written, nothing
waiting. -/
def State.reset : State := {}

end Sys2Proof.Machine
end

