-- ==== Sys2Proof/Machine/Ops.lean ====
section
/-! DEFINITION. The named operations on registers, counters, events and tines that every family shares. -/
namespace Sys2Proof.Machine

/-! ## Registers -/

/-- What the register at `a` holds: the value last written or, after reset, its reset value (R5, R7). -/
def State.reg (s : State) (a : Nat) : Word := Tab.get (wd (resetOf a)) s.regs a

/-- Set the register at `a`. -/
def State.setReg (s : State) (a : Nat) (v : Word) : State := { s with regs := Tab.put (wd (resetOf a)) s.regs a v }

/-- The value in effect of a staged register (RWS, R5). -/
def State.inEff (s : State) (a : Nat) : Word := Tab.get (wd (resetOf a)) s.eff a

/-- Set the value in effect of a staged register. -/
def State.setEff (s : State) (a : Nat) (v : Word) : State := { s with eff := Tab.put (wd (resetOf a)) s.eff a v }

/-- The staged register takes effect (R6). -/
def State.latch (s : State) (a : Nat) : State := s.setEff a (s.reg a)

/-- A field of a register. -/
def State.fld (s : State) (a : Nat) (f : Fld) : Nat := getF (s.reg a) f

/-- Set a field of a register. -/
def State.setFld (s : State) (a : Nat) (f : Fld) (n : Nat) : State := s.setReg a (putF (s.reg a) f n)

/-- A field in effect of a staged register. -/
def State.effFld (s : State) (a : Nat) (f : Fld) : Nat := getF (s.inEff a) f

/-- A bit of a register. -/
def State.bitAt (s : State) (a : Nat) (n : Nat) : Bool := bit (s.reg a) n

/-- Set the bits of a mask in a register (W1S, event flags). -/
def State.orReg (s : State) (a : Nat) (m : Word) : State := s.setReg a (s.reg a ||| m)

/-- Clear the bits of a mask in a register. -/
def State.clrReg (s : State) (a : Nat) (m : Word) : State := s.setReg a (s.reg a &&& ~~~ m)

/-- Set one bit of a register. -/
def State.setBit (s : State) (a n : Nat) : State := s.orReg a (oneBit n)

/-- Clear one bit of a register. -/
def State.clrBit (s : State) (a n : Nat) : State := s.clrReg a (oneBit n)

/-- Set or clear one bit of a register. -/
def State.putBit (s : State) (a n : Nat) (b : Bool) : State := if b then s.setBit a n else s.clrBit a n

/-- Return the registers that `drop` names to their reset values, in the value read and the value in effect. -/
def State.resetRegs (s : State) (drop : Nat → Bool) : State :=
  { s with regs := s.regs.keep (fun a => !drop a), eff := s.eff.keep (fun a => !drop a) }

/-! ## Memory -/

/-- The number of field memory words (R10). -/
def fieldWords : Nat := 0x1800000

/-- A field memory word; a word that nothing has written reads 0 (R37). -/
def State.memAt (s : State) (a : Nat) : Word := Tab.get 0 s.mem a

/-- Store a field memory word in its bank. -/
def State.setMem (s : State) (a : Nat) (v : Word) : State := { s with mem := Tab.put 0 s.mem a v }

/-- A word of the Granary's array. -/
def State.granAt (s : State) (i : Nat) : Word := Tab.get 0 s.gran i

/-- Set a word of the Granary's array. -/
def State.setGran (s : State) (i : Nat) (v : Word) : State := { s with gran := Tab.put 0 s.gran i v }

/-- What PD0 keeps of the machine checks while the timebase is lost (R308, R315). -/
def UcSt.keptChecks (u : UcSt) : UcSt := { checks := u.checks.map (fun _ => none), third := u.third }

/-! ## Processors -/

/-- Processor `p`. -/
def State.proc (s : State) (p : Nat) : ProcSt := Tab.get {} s.procs p

/-- Set processor `p`. -/
def State.setProc (s : State) (p : Nat) (x : ProcSt) : State := { s with procs := Tab.put {} s.procs p x }

/-- Change processor `p`. -/
def State.updProc (s : State) (p : Nat) (f : ProcSt → ProcSt) : State := s.setProc p (f (s.proc p))

/-! ## Beams -/

/-- The hidden state of beam `b`. -/
def State.beam (s : State) (b : Nat) : BeamSt := Tab.get {} s.beams b

/-- Set the hidden state of beam `b`. -/
def State.setBeam (s : State) (b : Nat) (x : BeamSt) : State := { s with beams := Tab.put {} s.beams b x }

/-- Change the hidden state of beam `b`. -/
def State.updBeam (s : State) (b : Nat) (f : BeamSt → BeamSt) : State := s.setBeam b (f (s.beam b))

/-- Change the Furrow engine of beam `b`. -/
def State.updFur (s : State) (b : Nat) (f : FurSt → FurSt) : State :=
  s.updBeam b (fun x => { x with fur := f x.fur })

/-- The working value of a staged register: what the compositor uses (R144). -/
def State.useEff (s : State) (a : Nat) : Word := (Tab.get none s.work a).getD (s.inEff a)

/-- The working value of a live register that a Furrow program may write (R144). -/
def State.useLive (s : State) (a : Nat) : Word := (Tab.get none s.work a).getD (s.reg a)

/-- A field of the working value of a staged register. -/
def State.useFld (s : State) (a : Nat) (f : Fld) : Nat := getF (s.useEff a) f

/-- Set a working value (R144). -/
def State.setWork (s : State) (a : Nat) (v : Word) : State := { s with work := Tab.put none s.work a (some v) }

/-- Drop a working value: it is the software value again. -/
def State.dropWork (s : State) (a : Nat) : State := { s with work := Tab.put none s.work a none }

/-! ## Counters and events -/

/-- Count once in a register whose COUNT lies in bits 15:0 and whose SAT is bit 23: it stops at 0xFFFF and sets SAT
(R59 and the like rule of every block). -/
def State.bump (s : State) (a : Nat) : State :=
  let w := s.reg a
  let n := w.toNat % 65536
  if n = 65535 then s
  else if n = 65534 then s.setReg a ((w + 1) ||| oneBit 23)
  else s.setReg a (w + 1)

/-- Has the next count at `a` the effect of reaching 0xFFFF? -/
def State.lastCount (s : State) (a : Nat) : Bool := (s.reg a).toNat % 65536 == 65534

/-- Count `n` times. -/
def State.bumpBy (s : State) (a n : Nat) : State :=
  let w := s.reg a
  let c := w.toNat % 65536
  if n = 0 ∨ c = 65535 then s
  else if 65535 ≤ c + n then s.setReg a (putF w ⟨15, 0⟩ 65535 ||| oneBit 23)
  else s.setReg a (putF w ⟨15, 0⟩ (c + n))

/-- Where a block counts its errors: the counter, the field that takes the cause, the event set by every error, and the
event set when the counter reaches 0xFFFF. -/
structure ErrPlace where
  cnt : Nat
  last : Option (Nat × Fld)
  errEvt : Option (Nat × Nat)
  satEvt : Option (Nat × Nat)
  deriving DecidableEq, Repr

/-- Set an event flag, where the block has it. -/
def State.flag (s : State) : Option (Nat × Nat) → State
  | none => s
  | some (a, n) => s.setBit a n

/-- Count an error of a block with its cause. -/
def State.countAt (s : State) (p : ErrPlace) (cause : Nat) : State :=
  let sat := s.lastCount p.cnt
  let s := s.bump p.cnt
  let s := match p.last with | none => s | some (a, f) => s.setFld a f cause
  let s := s.flag p.errEvt
  if sat then s.flag p.satEvt else s

/-- The error places of the 20 windows, in address-map order (R59, R67, R70, R163, R209, R239, R384, R315, R358, R401,
R402, R421, R422, R359, R360, R439, R450, R470, R471, R241). -/
def errPlace : Nat → ErrPlace
  | 0 => ⟨Reg.STW_ERRCNT, none, none, none⟩
  | 1 => ⟨Reg.PLT_ERRCNT, none, none, none⟩
  | 2 => ⟨Reg.IRQ_ERRCNT, some (Reg.IRQ_LASTERR, Fd.IRQ_LASTERR_CAUSE), none, none⟩
  | 3 => ⟨Reg.TIN_ERRCNT, some (Reg.TIN_LASTERR, Fd.TIN_LASTERR_CAUSE), none, none⟩
  | 4 => ⟨Reg.TMR_ERRCNT, some (Reg.TMR_LASTERR, Fd.TMR_LASTERR_CAUSE), none, some (Reg.TMR_EVT, 1)⟩
  | 5 => ⟨Reg.DRL_ERRCNT, some (Reg.DRL_LASTERR, Fd.DRL_LASTERR_CAUSE), none, none⟩
  | 6 => ⟨Reg.HRW_ERRCNT, some (Reg.HRW_LASTERR, Fd.HRW_LASTERR_CAUSE), some (Reg.HRW_EVT, 0), some (Reg.HRW_EVT, 4)⟩
  | 7 => ⟨Reg.BM_ERRCNT 0, none, none, some (Reg.BM_TEVT 0, 7)⟩
  | 8 => ⟨Reg.BM_ERRCNT 1, none, none, some (Reg.BM_TEVT 1, 7)⟩
  | 9 => ⟨Reg.AUD_ERRCNT, some (Reg.AUD_LASTERR, Fd.AUD_LASTERR_CAUSE), some (Reg.AUD_EVT, 8), some (Reg.AUD_EVT, 9)⟩
  | 10 => ⟨Reg.SUP_ERRCNT, some (Reg.SUP_LASTERR, Fd.SUP_LASTERR_CAUSE), some (Reg.SUP_EVT, 14), some (Reg.SUP_EVT, 15)⟩
  | 11 => ⟨Reg.LNK_ERRCNT, some (Reg.LNK_LASTERR, Fd.LNK_LASTERR_CAUSE), some (Reg.LNK_EVT, 12), some (Reg.LNK_EVT, 13)⟩
  | 12 => ⟨Reg.SEC_ERRCNT, none, none, some (Reg.SEC_EVT, 2)⟩
  | 13 => ⟨Reg.GRN_ERRCNT, some (Reg.GRN_ERRCNT, Fd.GRN_ERRCNT_CAUSE), some (Reg.GRN_EVT, 1), some (Reg.GRN_EVT, 2)⟩
  | 14 => ⟨Reg.GPO_ERRCNT, some (Reg.GPO_LASTERR, Fd.GPO_LASTERR_CAUSE), none, none⟩
  | 15 => ⟨Reg.PWR_ERRCNT, some (Reg.PWR_LASTERR, Fd.PWR_LASTERR_CAUSE), some (Reg.PWR_EVT, 5), some (Reg.PWR_EVT, 6)⟩
  | 16 => ⟨Reg.DBG_ERRCNT, some (Reg.DBG_LASTERR, Fd.DBG_LASTERR_CAUSE), some (Reg.DBG_EVT, 2), some (Reg.DBG_EVT, 3)⟩
  | 17 => ⟨Reg.GLN_ERRCNT, some (Reg.GLN_LASTERR, Fd.GLN_LASTERR_CAUSE), some (Reg.GLN_EVT, 5), some (Reg.GLN_EVT, 6)⟩
  | 18 => ⟨Reg.FAB_ERRCNT, none, none, some (Reg.FAB_EVT, 7)⟩
  | _ => ⟨Reg.ACW_ERRCNT, some (Reg.ACW_ERRCNT, Fd.ACW_ERRCNT_CAUSE), none, some (Reg.ACW_EVT, 3)⟩

/-- Count an error of window `w` with its cause; a block without a cause field counts only. -/
def State.err (s : State) (w cause : Nat) : State := s.countAt (errPlace w) cause

/-! ## Domains, freezing, free values -/

/-- Is power domain `d` on (R24, R445)? -/
def State.dom (s : State) (d : Nat) : Bool := s.bitAt Reg.PWR_DOMSTAT d

/-- The power domain of a window (R24). The FAB window and the link common registers are powered with PD2. -/
def domOfWindow : Nat → Nat
  | 6 => 14 | 7 => 12 | 8 => 13 | 9 => 15 | 10 => 16 | 12 => 3 | 13 => 3 | 14 => 19 | 15 => 0 | 16 => 0 | 19 => 0
  | _ => 2

/-- The domain of beam `b`. -/
def domOfBeam (b : Nat) : Nat := 12 + b

/-- The domain of lane `n` (R24). -/
def domOfLane (n : Nat) : Nat := if n < 4 then 17 else 18

/-- Is the block of freeze bit `n` frozen: does a halted processor that DBG_FRZSRC names freeze it (R463)? -/
def State.frozen (s : State) (n : Nat) : Bool :=
  s.bitAt Reg.DBG_FRZ n && decide (s.reg Reg.DBG_HALTED &&& s.reg Reg.DBG_FRZSRC ≠ 0)

/-- A number from `lo` to `lo + n` that a free value picks. -/
def State.freeIn (s : State) (lo n : Nat) : Nat × State :=
  (lo + (Config.freeValue s.freeCtr).toNat % (n + 1), { s with freeCtr := s.freeCtr + 1 })

/-- The next free value has number `s.freeCtr`; this step moves past it. -/
def State.useFree (s : State) : State := { s with freeCtr := s.freeCtr + 1 }

/-! ## Answers -/

/-- Give requester `r` an answer. -/
def State.answer (s : State) (r : Nat) (v : Resp) : State := { s with resp := Tab.put {} s.resp r v }

/-- The last answer that requester `r` had. -/
def State.respOf (s : State) (r : Nat) : Resp := Tab.get {} s.resp r

/-! ## Tines -/

/-- Publish an event on a tine (R396): it waits for the tine's entry stage (R398). -/
def State.publish (s : State) (t : Nat) : State :=
  { s with tin := { s.tin with waiting := s.tin.waiting ++ [⟨t % 64, false⟩] } }

/-- Publish on tine `t` where `en` holds. -/
def State.publishIf (s : State) (en : Bool) (t : Nat) : State := if en then s.publish t else s

/-! ## Performance counters -/

/-- Is the unit of a counter powered (R464: counters lie in their units)? -/
def State.unitOn (s : State) (u : Nat) : Bool :=
  if u < 16 then s.dom (4 + u / 4)
  else if u = 18 then s.dom 12 else if u = 19 then s.dom 13 else if u = 20 then s.dom 14
  else if u = 22 then s.dom 15 else if u = 23 then s.dom 17 || s.dom 18 else s.dom 2

/-- Add `n` to counter `k` of unit `u` (R465). Past 0xFF_FFFF it sticks with OVF, or wraps and carries into the next
counter where CHAIN is 1; `fuel` bounds the chain of carries. -/
def State.glnAdd (s : State) (u : Nat) : (fuel k n : Nat) → State
  | 0, _, _ => s
  | fuel + 1, k, n =>
    let a := Reg.GLN_CNT u k
    let c := (s.reg a).toNat + n
    if n = 0 then s
    else if c < 0x1000000 then s.setReg a (wd c)
    else if s.bitAt (Reg.GLN_CCFG u k) 22 && decide (k < 3) then
      (s.setReg a (wd c)).glnAdd u fuel (k + 1) (c / 0x1000000)
    else ((s.setReg a (wd 0xFFFFFF)).setBit (Reg.GLN_CCFG u k) 21).setBit Reg.GLN_EVT 3

/-- Does counter `k` of unit `u` count event code `code`? A counter that a CHAIN 1 counter feeds counts carries only. -/
def State.counts (s : State) (u k code : Nat) : Bool :=
  s.bitAt (Reg.GLN_CCFG u k) 23 && s.fld (Reg.GLN_CCFG u k) Fd.GLN_CCFG_EVT == code &&
    !(decide (1 ≤ k) && s.bitAt (Reg.GLN_CCFG u (k - 1)) 22)

/-- `n` events of code `code` happen in unit `u` (R464, R463 bit 7: counters hold while Glean is frozen). -/
def State.perf (s : State) (u code : Nat) (n : Nat := 1) : State :=
  if s.frozen 7 || !s.unitOn u then s
  else forN 4 (fun k s => if s.counts u k code then s.glnAdd u 4 k n else s) s

/-! ## Time -/

/-- The timebase bits `hi:lo` as a word (R403). -/
def State.tbWord (s : State) (lo : Nat) : Word := wd (s.timebase.toNat / 2 ^ lo)

/-- The time has come to instant `t` of the timebase, in ticks, if it had not yet: an event with a stated instant does not come before
it (log entry 121). -/
def State.passTo (s : State) (t : Nat) : State :=
  if s.dom 2 ∧ s.timebase.toNat < t then
    let u := { s with timebase := BitVec.ofNat 64 t, tmr := { s.tmr with busy := 0 } }
    if 2 ^ 64 ≤ t then u.setBit Reg.TMR_EVT 0 else u
  else s

/-- One clock tick of the timebase (R403), whose wrap sets TBWRAP, while PD2 is on: what a step does when no command waits
(log entry 8). -/
def State.tick (s : State) : State :=
  if !s.dom 2 then s else
  let t := { s with timebase := s.timebase + 1, tmr := { s.tmr with busy := 0 } }
  if s.timebase = BitVec.allOnes 64 then t.setBit Reg.TMR_EVT 0 else t

end Sys2Proof.Machine
end

