-- ==== Sys2Proof/Machine/Owner.lean ====
section
/-! DEFINITION. Who a register belongs to (R14, R16, R335, R336, and the ownership sentence of every register map), the
plots of processors, and the raw level of every interrupt source (R386 and the event rule of every unit). -/
namespace Sys2Proof.Machine

/-- Who may reach a register from a core (R14): one plot, the Steward alone, the Steward for writes with reads open to
every plot (R359), the Steward for writes with reads open to one plot (mailbox CFG), or a shared word whose bits are
checked one by one (R430, R439). -/
inductive Owner where
  | plot (p : Nat)
  | steward
  | readAll
  | readBy (p : Nat)
  | shared
  deriving DecidableEq, Repr

/-- The plot that owns resource `i` of class `c` (R335). -/
def State.ownerRes (s : State) (c i : Nat) : Nat := s.fld (Reg.PLT_OWN c i) Fd.PLT_OWN_OWNER

/-- The plot of core `c` (R336). -/
def State.corePlot (s : State) (c : Nat) : Nat := s.ownerRes 0 c

/-- Is pin `n` given to the security unit (R429)? -/
def State.secPin (s : State) (n : Nat) : Bool := s.bitAt (Reg.GPO_SECMASK (n / 24)) (n % 24)

/-- Is pin `n` handed to a core of its plot (R429)? -/
def State.pinToCore (s : State) (n : Nat) : Bool := s.bitAt (Reg.GPO_PIN_CFG n) 18

/-- The core to which pin `n` is handed. -/
def State.pinCore (s : State) (n : Nat) : Nat := s.fld (Reg.GPO_PIN_CFG n) Fd.GPO_PIN_CFG_CORE

/-- Does core `c` own pin `n` (R264, R429)? -/
def State.coreOwnsPin (s : State) (c n : Nat) : Bool :=
  !s.secPin n && s.pinToCore n && s.pinCore n == c && s.ownerRes 7 n == s.corePlot c

/-- The layer of beam `b` whose KIND in effect is 1, the lowest where there are more (R109, R110). -/
def State.spriteLayer (s : State) (b : Nat) : Option Nat :=
  (List.range 8).find? (fun l => s.effFld (Reg.BM_LY_CTRL b l) Fd.BM_LY_CTRL_KIND == 1)

/-- The plot of beam `b`'s sprite registers, table and counters (R109). -/
def State.spriteOwner (s : State) (b : Nat) : Nat :=
  match s.spriteLayer b with
  | some l => s.ownerRes 2 (8 * b + l)
  | none => s.ownerRes 1 b

/-- The plot of GPIO source group `g`, pins 3g to 3g + 2 (R389). -/
def State.gpioSrcPlot (s : State) (g : Nat) : Nat :=
  let p := s.ownerRes 7 (3 * g)
  if s.secPin (3 * g) || s.secPin (3 * g + 1) || s.secPin (3 * g + 2) then 0
  else if s.ownerRes 7 (3 * g + 1) == p && s.ownerRes 7 (3 * g + 2) == p then p else 0

/-- The plot that owns the resource raising source `n` (R339, R386, R389). -/
def State.srcPlot (s : State) (n : Nat) : Nat :=
  if n < 16 then 0
  else if n < 48 then (if n % 2 = 0 then s.corePlot ((n - 16) / 2) else 0)
  else if n < 96 then
    let b := if n < 72 then 0 else 1
    if n = 56 ∨ n = 66 ∨ n = 80 ∨ n = 90 then s.ownerRes 15 b
    else if n = 63 ∨ n = 64 ∨ n = 87 ∨ n = 88 then s.spriteOwner b
    else s.ownerRes 1 b
  else if n < 100 then s.ownerRes 12 (n - 96)
  else if n < 102 then s.ownerRes 13 0
  else if n < 104 then s.ownerRes 1 (n - 102)
  else if n < 136 then s.ownerRes 5 (n - 104)
  else if n < 152 then s.ownerRes 6 (n - 136)
  else if n < 168 then s.ownerRes 18 0
  else if n < 184 then s.ownerRes 14 0
  else if n < 224 then 0
  else if n < 240 then s.gpioSrcPlot (n - 224)
  else if n < 244 then s.ownerRes 19 0
  else 0

/-- The plot of Glean unit `u` (R464). -/
def State.gleanPlot (s : State) (u : Nat) : Nat :=
  if u < 16 then s.corePlot u
  else if u = 18 then s.ownerRes 1 0 else if u = 19 then s.ownerRes 1 1
  else if u = 20 then s.ownerRes 13 0 else if u = 22 then s.ownerRes 18 0 else 0

/-- Owners in the beam window of beam `b` at offset `o` (R81, R98, R109, R133, R140, R89). -/
def State.ownerBM (s : State) (b o : Nat) : Owner :=
  if o < 0x2D then .plot (s.ownerRes 1 b)
  else if o < 0x2F ∨ (0x200 ≤ o ∧ o < 0x300) then .plot (s.ownerRes 15 b)
  else if 0x30 ≤ o ∧ o < 0x40 then .plot (s.ownerRes 2 (8 * b + o % 8))
  else if 0x90 ≤ o ∧ o < 0x99 then .plot (s.spriteOwner b)
  else if 0x100 ≤ o ∧ o < 0x180 then .plot (s.ownerRes 2 (8 * b + (o - 0x100) / 16))
  else if 0x180 ≤ o ∧ o < 0x1C0 then .plot (s.ownerRes 4 (2 * b + (o - 0x180) / 32))
  else if 0x1000 ≤ o ∧ o < 0x2000 then .plot (s.ownerRes 3 (16 * b + (o - 0x1000) / 256))
  else if 0x2000 ≤ o ∧ o < 0x3000 then .plot (s.spriteOwner b)
  else if 0x3000 ≤ o ∧ o < 0x3800 then .plot (s.ownerRes 4 (2 * b + (o - 0x3000) / 0x400))
  else .plot (s.ownerRes 1 b)

/-- Owners in the audio window (R210). -/
def State.ownerAUD (s : State) (o : Nat) : Owner :=
  if o < 0x10 then .plot (s.ownerRes 18 0)
  else if o < 0x18 then .plot (s.ownerRes 11 ((o - 0x10) / 2))
  else if 0x20 ≤ o ∧ o < 0x30 then .plot (s.ownerRes 8 (96 + (o - 0x20)))
  else if 0x30 ≤ o ∧ o < 0x40 then .plot (s.ownerRes 9 (32 + (o - 0x30)))
  else if 0x40 ≤ o ∧ o < 0x60 then .plot (s.ownerRes 16 ((o - 0x40) / 8))
  else if 0x80 ≤ o ∧ o < 0x90 then .plot (s.ownerRes 17 ((o - 0x80) / 4))
  else if 0x90 ≤ o ∧ o < 0xB0 then .plot ((o - 0x90) / 4)
  else if 0x100 ≤ o ∧ o < 0x130 then .plot (s.ownerRes 9 (o - 0x100))
  else if 0x200 ≤ o ∧ o < 0x600 then .plot (s.ownerRes 10 ((o - 0x200) / 16))
  else if 0x2000 ≤ o ∧ o < 0x4000 then .plot (s.ownerRes 8 ((o - 0x2000) / 64))
  else .plot (s.ownerRes 18 0)

/-- The owner of the register at offset `o` of window `w` (R14, R336). -/
def State.ownerAt (s : State) (w o : Nat) : Owner :=
  match w with
  | 0 => -- STW (R315, mailbox table of chapter Tyskaolo)
    if o < 0x100 then .steward
    else if 0x140 ≤ o then .steward
    else
      let m := (o - 0x100) / 4
      match o % 4 with
      | 0 => .readBy (m % 8)
      | 1 => if m < 8 then .plot m else .steward
      | 2 => if m < 8 then .steward else .plot (m - 8)
      | _ => .plot (m % 8)
  | 1 => .steward
  | 2 => -- IRQ (R389, R390, R401)
    if o < 0x100 then .plot (s.srcPlot o)
    else if o < 0x108 then .plot (o - 0x100)
    else if 0x130 ≤ o ∧ o < 0x140 then .plot (s.corePlot (o - 0x130))
    else if 0x200 ≤ o ∧ o < 0x400 then .plot (s.corePlot ((o - 0x200) / 32))
    else .plot 0
  | 3 => -- TIN (R402)
    if 0x80 ≤ o ∧ o < 0x88 then .plot (o - 0x80)
    else if 0x100 ≤ o ∧ o < 0x120 then .plot ((o - 0x100) / 4)
    else .plot 0
  | 4 => -- TMR (R421)
    if 8 ≤ o ∧ o < 0x10 then .plot (o - 8)
    else if 0x10 ≤ o ∧ o < 0x30 then .plot ((o - 0x10) / 4)
    else if 0x100 ≤ o ∧ o < 0x200 then .plot (s.ownerRes 6 ((o - 0x100) / 16))
    else .plot 0
  | 5 => -- DRL (R422)
    if 0x100 ≤ o ∧ o < 0x300 then .plot (s.ownerRes 5 ((o - 0x100) / 16)) else .plot 0
  | 6 => -- HRW (R159, R175)
    if 0x10 ≤ o ∧ o < 0x20 then .plot (s.ownerRes 12 ((o - 0x10) / 4))
    else if 0x8000 ≤ o ∧ o < 0x8200 then .plot (s.ownerRes 1 ((o - 0x8000) / 0x100))
    else .plot (s.ownerRes 13 0)
  | 7 => s.ownerBM 0 o
  | 8 => s.ownerBM 1 o
  | 9 => s.ownerAUD o
  | 10 => if o = 3 ∨ o = 4 ∨ o = 0x11 ∨ o = 0x12 then .plot 0 else .plot (s.ownerRes 14 0)
  | 11 => .steward
  | 12 => if 0x20 ≤ o ∧ o < 0x40 then .plot ((o - 0x20) / 4) else .readAll
  | 13 => .steward
  | 14 => -- GPO (R439)
    if 0x100 ≤ o ∧ o < 0x130 then (if s.secPin (o - 0x100) then .steward else .plot (s.ownerRes 7 (o - 0x100)))
    else if 0xC ≤ o ∧ o < 0xE then .readBy 0
    else if 2 ≤ o ∧ o < 0xC then .shared
    else .plot 0
  | 15 => .steward
  | 16 => .steward
  | 17 => -- GLN (R471)
    if 0x100 ≤ o ∧ o < 0x160 then .plot (s.gleanPlot ((o - 0x100) / 4))
    else if 0x180 ≤ o ∧ o < 0x1E0 then .plot (s.gleanPlot ((o - 0x180) / 4))
    else if 0x200 ≤ o ∧ o < 0x260 then .plot (s.gleanPlot ((o - 0x200) / 4))
    else if 0x300 ≤ o ∧ o < 0x340 then .plot (s.corePlot ((o - 0x300) / 4))
    else if o = 0xB then .shared
    else .plot 0
  | 18 => -- FAB (R60)
    if 0x20 ≤ o ∧ o < 0x3A then .steward
    else if 0x60 ≤ o ∧ o < 0x68 then .steward
    else if o = 0x15 ∨ o = 0x16 then .steward
    else if 0x100 ≤ o ∧ o < 0x200 then .steward
    else if 0x200 ≤ o ∧ o < 0x280 then .plot ((o - 0x200) / 16)
    else if 0x1000 ≤ o ∧ o < 0x1800 then .plot ((o - 0x1000) / 0x100)
    else .plot 0
  | _ => .plot (s.ownerRes 19 0)

/-- May a core of plot `p` make this access (R14)? -/
def Owner.allows (o : Owner) (p : Nat) (write : Bool) : Bool :=
  match o with
  | .plot q => p == q
  | .steward => false
  | .readAll => !write
  | .readBy q => !write && p == q
  | .shared => true

/-! ## Plot states -/

/-- PLT_STATE_p.STATE: 0 RUN, 1 FENCING, 2 FENCED, 3 RESETTING (R341). -/
def State.plotState (s : State) (p : Nat) : Nat := s.fld (Reg.PLT_STATE p) Fd.PLT_STATE_STATE

/-- Is plot `p` fenced or being fenced? -/
def State.plotFenced (s : State) (p : Nat) : Bool := s.plotState p != 0

/-- Does the fabric refuse requests that carry plot `p` (R56)? -/
def State.refuses (s : State) (p : Nat) : Bool := s.bitAt Reg.FAB_FENCE p

/-- The plot number that a requester's access carries (R40). Units that serve several plots pass their own. -/
def State.reqPlot (s : State) (r : Nat) : Nat := if r < 16 then s.corePlot r else 0

/-! ## Raw interrupt lines -/

/-- Does inbound mailbox `m` hold a frame (R316)? -/
def State.mbCount (s : State) (m : Nat) : Nat :=
  ((s.reg (Reg.STW_MB_TAIL m)).toNat + 32 - (s.reg (Reg.STW_MB_HEAD m)).toNat % 32) % 32

/-- Any of the bits of mask `m` at `a`. -/
def State.anyBit (s : State) (a : Nat) (m : Nat) : Bool := decide (s.reg a &&& wd m ≠ 0)

/-- Source `n`'s raw line: what its unit drives (R58, R70, R139, R158, R174, R209, R239, R291, R317, R359, R360, R384,
R401, R411, R420, R431, R450, R469). Source 248 is eight lines; here it is line `p`. -/
def State.rawLine (s : State) (n p : Nat) : Bool :=
  if n < 8 then s.bitAt Reg.FAB_EVT n
  else if n < 16 then s.bitAt Reg.PWR_EVT (n - 8)
  else if n < 48 then
    if n % 2 = 0 then s.bitAt (Reg.IRQ_BELL ((n - 16) / 2)) 0 else (s.proc ((n - 17) / 2)).faulted
  else if n < 96 then
    let b := if n < 72 then 0 else 1
    let k := if n < 72 then n - 48 else n - 72
    if k < 8 then s.bitAt (Reg.BM_TEVT b) k
    else if k = 8 then s.anyBit (Reg.BM_WRSTAT b) 0xFFFF
    else s.bitAt (Reg.BM_CEVT b) (k - 8)
  else if n < 100 then s.bitAt (Reg.HRW_Q_STAT (n - 96)) 23
  else if n = 100 then s.anyBit Reg.HRW_EVT 0xF
  else if n = 101 then s.bitAt Reg.HRW_EVT 4
  else if n < 104 then s.anyBit (Reg.HRW_FW_EVT (n - 102)) 0x1F
  else if n < 136 then s.anyBit (Reg.DRL_CH_EVT (n - 104)) 0x1F
  else if n < 152 then s.anyBit (Reg.TMR_T_EVT (n - 136)) 0x7
  else if n < 163 then s.bitAt Reg.AUD_EVT (n - 152)
  else if n < 168 then false
  else if n < 184 then s.bitAt Reg.SUP_EVT (n - 168)
  else if n < 192 then s.anyBit (Reg.LNK_L_EVT (n - 184)) 0x1F
  else if n < 206 then s.bitAt Reg.LNK_EVT (n - 192)
  else if n < 216 then false
  else if n < 219 then s.bitAt Reg.SEC_EVT (n - 216)
  else if n = 219 then false
  else if n < 223 then s.bitAt Reg.GRN_EVT (n - 220)
  else if n = 223 then false
  else if n < 240 then s.anyBit (Reg.GPO_EVT ((3 * (n - 224)) / 24)) (7 * 2 ^ ((3 * (n - 224)) % 24))
  else if n < 244 then s.bitAt Reg.ACW_EVT (n - 240)
  else if n = 244 then s.bitAt Reg.DBG_EVT 0
  else if n = 245 then s.anyBit Reg.DBG_EVT 6
  else if n = 246 then s.anyBit Reg.GLN_EVT 0x3F
  else if n = 247 then s.bitAt Reg.DBG_EVT 3 || s.bitAt Reg.GLN_EVT 6
  else if n = 248 then decide (s.mbCount p ≠ 0)
  else if n = 249 then (List.range 8).any (fun m => decide (s.mbCount (8 + m) ≠ 0))
  else false

end Sys2Proof.Machine
end

