-- ==== Sys2Proof/Machine/Memory.lean ====
section
/-! DEFINITION. The address map (R10 to R12, R473), field memory coherent with the data caches (R36, R49, R51), and what
a write does to watched static ranges (R130). -/
namespace Sys2Proof.Machine

/-- The parts of the word address map (R10). -/
inductive Region where
  | field (a : Nat)
  | window (w o : Nat)
  | granary (i : Nat)
  | rom (i : Nat)
  | unmapped
  deriving DecidableEq, Repr

/-- Where an address lies (R10). -/
def regionOf (a : Nat) : Region :=
  if a < 0x1800000 then .field a
  else if 0x8000000 ≤ a ∧ a < 0x8140000 then .window ((a - 0x8000000) / 0x10000) (a % 0x10000)
  else if 0xC000000 ≤ a ∧ a < 0xC400000 then .granary (a - 0xC000000)
  else if 0xF000000 ≤ a ∧ a < 0xF010000 then .rom (a - 0xF000000)
  else .unmapped

/-- The line of a word address (R35). -/
def lineNo (a : Nat) : Nat := a / 12

/-- The quadrant of a line under ILV `ilv` (R36). -/
def quadrantOf (ilv : Bool) (ln : Nat) : Nat := if ilv then ln / 0x80000 % 4 else ln % 4

/-- The bank of a line within its quadrant (R36). -/
def bankOf (ilv : Bool) (ln : Nat) : Nat := if ilv then ln % 8 else ln / 4 % 8

/-- The line within its bank (R36). -/
def lineInBank (ilv : Bool) (ln : Nat) : Nat := if ilv then ln / 8 % 65536 else ln / 32 % 65536

/-- The bank row of a word address (R36). -/
def bankRow (ilv : Bool) (a : Nat) : Nat := 4 * lineInBank ilv (lineNo a) + a % 12 / 3

/-- Is ILV 1, quadrant-contiguous? -/
def State.ilv (s : State) : Bool := s.bitAt Reg.FAB_MAPCFG 0

/-- The bank, 0 to 31, numbered 8 × quadrant + bank. -/
def State.bank (s : State) (a : Nat) : Nat := 8 * quadrantOf s.ilv (lineNo a) + bankOf s.ilv (lineNo a)

/-- Is field memory ready for access (R37)? -/
def State.memReady (s : State) : Bool := s.bitAt Reg.FAB_STAT 0

/-! ## Sleeping banks -/

/-- The register and bit that show whether bank `k` sleeps (R47). -/
def slpReg (k : Nat) : Nat := if k < 16 then Reg.FAB_BANKSLP 0 else Reg.FAB_BANKSLP 1

/-- Does bank `k` sleep, waking included? -/
def State.sleeps (s : State) (k : Nat) : Bool := s.bitAt (slpReg k) (k % 16)

/-- Bank `k` starts to wake, if it sleeps (R48). -/
def State.startWake (s : State) (k : Nat) : State :=
  if s.sleeps k && !s.fab.waking.getLsbD k then
    { s with fab := { s.fab with waking := s.fab.waking ||| (1#32 <<< k) } }.perf 17 3
  else s

/-- Bank `k` is awake (R48). -/
def State.wakeDone (s : State) (k : Nat) : State :=
  { s.clrBit (slpReg k) (k % 16) with fab := { s.fab with waking := s.fab.waking &&& ~~~ (1#32 <<< k) } }

/-- An access that one command carries out whole, at `a` of field memory: a sleeping bank wakes first and the access waits for
the wake, which a beam fetch shows in BEAMLATE (R48). -/
def State.wakeFor (s : State) (a : Nat) (beam : Bool := false) : State :=
  if a < fieldWords ∧ s.sleeps (s.bank a) = true then
    let t := s.startWake (s.bank a)
    (if beam then t.setBit Reg.FAB_EVT 2 else t).wakeDone (s.bank a)
  else s

/-! ## Coherence -/

/-- The copy of line `ln` in the data cache of processor `c`. -/
def State.cached (s : State) (c ln : Nat) : Option CLine := (s.proc c).dcache.find? (fun l => l.line == ln)

/-- The core that holds line `ln` modified, with its words. -/
def State.dirtyLine (s : State) (ln : Nat) : Option (Nat × List Word) :=
  (List.range 16).findSome? (fun c =>
    match s.cached c ln with
    | some l => if l.st = .modified then some (c, l.words) else none
    | none => none)

/-- The words of a line on its way back from a core (R51), the last one sent. -/
def State.wbLine (s : State) (ln : Nat) : Option (List Word) :=
  (s.fab.wbs.reverse.find? (fun w => w.line == ln)).map (·.words)

/-- A coherent read of a field memory word (R49). -/
def State.cohWord (s : State) (a : Nat) : Word :=
  match s.dirtyLine (lineNo a) with
  | some (_, ws) => ws.getD (a % 12) 0
  | none =>
    match s.wbLine (lineNo a) with
    | some ws => ws.getD (a % 12) 0
    | none => s.memAt a

/-- The twelve words of a line, coherent. -/
def State.cohLine (s : State) (ln : Nat) : List Word := (List.range 12).map (fun i => s.cohWord (12 * ln + i))

/-- Write a line of words into its bank. -/
def State.putLine (s : State) (ln : Nat) (ws : List Word) : State :=
  forN 12 (fun i s => s.setMem (12 * ln + i) (ws.getD i 0)) s

/-- Every writeback under way for line `ln` reaches its bank, in order. -/
def State.settleWb (s : State) (ln : Nat) : State :=
  let mine := s.fab.wbs.filter (fun w => w.line == ln)
  let s := { s with fab := { s.fab with wbs := s.fab.wbs.filter (fun w => w.line != ln) } }
  mine.foldl (fun s w => s.putLine ln w.words) s

/-- A modified copy of the line goes back to the bank, and its core keeps the line shared (R49). -/
def State.shareLine (s : State) (ln : Nat) : State :=
  let s := s.settleWb ln
  match s.dirtyLine ln with
  | none => s
  | some (c, ws) =>
    (s.putLine ln ws).updProc c (fun p =>
      { p with dcache := p.dcache.map (fun l => if l.line = ln then { l with st := .shared } else l) })

/-- Every copy of the line held by a core other than `keep` is invalidated, modified data first going back to the bank
(R49). -/
def State.invalidateLine (s : State) (keep ln : Nat) : State :=
  let s := s.shareLine ln
  forN 16 (fun c s =>
    if c = keep ∨ (s.cached c ln).isNone then s
    else s.updProc c (fun p => { p with dcache := p.dcache.filter (fun l => l.line != ln) })) s

/-! ## Static ranges -/

/-- Does line `ln` overlap the range (R130)? -/
def overlaps (ln : Nat) : Option (Nat × Nat) → Bool
  | none => false
  | some (lo, hi) => decide (lo / 12 ≤ ln ∧ ln ≤ hi / 12)

/-- A line has been written, or granted to a core for writing, by requester `r`: a static group of a beam other than
that requester that watches the line is invalidated (R130). -/
def State.touchLine (s : State) (r ln : Nat) : State :=
  forN 2 (fun b s =>
    if r ≠ 17 + b ∧ (s.beam b).flat.watched.any (fun e => overlaps ln e.2) then
      s.updBeam b (fun x => { x with flat := { x.flat with inval := true } })
    else s) s

/-- A coherent write of a field memory word by requester `r` (R49, R130). -/
def State.cohStore (s : State) (r a : Nat) (v : Word) : State :=
  ((s.invalidateLine 16 (lineNo a)).setMem a v).touchLine r (lineNo a)

/-! ## Reads by units -/

/-- Why an access is an error: an unmapped address (R11), an address of 2^28 or more (R473), field memory that is not
ready (R37), a fenced plot (R56), a register window whose domain is off (R445), a register of another plot (R14), a write
to the boot ROM or to the Granary data window (R12). -/
inductive AccErr where
  | decode | range | notReady | fenced | off | owner | romWrite | granWrite
  deriving DecidableEq, Repr

/-- The domain of the register at offset `o` of window `w`: Furrow registers lie in their beam's domain (R159), lane
registers in their lane's (R362), the debug registers from 0x0004 upward in PD1 (R470). -/
def domOfReg (w o : Nat) : Nat :=
  if w = 6 ∧ 0x8000 ≤ o ∧ o < 0x8200 then domOfBeam ((o - 0x8000) / 0x100)
  else if w = 11 ∧ 0x20 ≤ o ∧ o < 0x60 then domOfLane ((o - 0x20) / 8)
  else if w = 16 ∧ 4 ≤ o then 1
  else domOfWindow w

/-- Is the register at offset `o` of window `w` one whose block answers an access while its domain is off: it reads
0x00_0000, and a write is dropped and counted (R71, R159, R362, R470)? -/
def answersOff (w o : Nat) : Bool :=
  (w == 6 && 0x8000 ≤ o && o < 0x8200) || (w == 11 && 0x20 ≤ o && o < 0x60) || (w == 16 && 4 ≤ o)

/-- A word that a unit fetches with plot `p`: field memory, Granary, boot ROM, or the present value of a register. -/
def State.fetch (s : State) (p a : Nat) : Except AccErr Word :=
  if 0x10000000 ≤ a then .error .range
  else if s.refuses p then .error .fenced
  else match regionOf a with
    | .field a => if s.memReady then .ok (s.cohWord a) else .error .notReady
    | .window w o =>
      if s.dom (domOfReg w o) then .ok (s.reg a) else if answersOff w o then .ok 0 else .error .off
    | .granary i => if s.dom 3 then .ok (s.granAt i) else .error .off
    | .rom i => .ok (Config.bootRom i)
    | .unmapped => .error .decode

/-- The word fetched, 0 for an error response (R11, R473). -/
def State.fetchZ (s : State) (p a : Nat) : Word :=
  match s.fetch p a with
  | .ok w => w
  | .error _ => 0

/-- Is the fetch an error response? -/
def State.fetchBad (s : State) (p a : Nat) : Bool :=
  match s.fetch p a with
  | .ok _ => false
  | .error _ => true

/-- What is counted for a failed access of requester `r` at `a`: a decode error (R11), an access before READY (R37), a write to
the Granary data window (R12). Of a write to the boot ROM, R12 names no counter: DESIGN CHOICE, nothing is counted (log
entry 112). -/
def State.countFail (s : State) (r a : Nat) (e : AccErr) : State :=
  match e with
  | .decode =>
    let s := s.bump Reg.FAB_DECERR
    let s := s.setFld Reg.FAB_DECERR Fd.FAB_DECERR_LASTREQ r
    let s := s.setReg Reg.FAB_DECADDR_HI (wd (a / 2 ^ 24 % 16))
    let s := s.setReg Reg.FAB_DECADDR_LO (wd a)
    (s.err 18 0).setBit Reg.FAB_EVT 1
  | .notReady => s.err 18 0
  | .granWrite => s.err 13 5
  | _ => s

/-- The side of a unit's fetches on banks, caches and counters: a sleeping bank wakes (R48), modified lines go back to the bank
and stay shared (R49), and failed accesses are counted. -/
def State.noteFetches (s : State) (r p : Nat) (as : List Nat) : State :=
  as.foldl (fun s a =>
    match s.fetch p a with
    | .ok _ =>
      let s := s.wakeFor a (r == 17 || r == 18)
      if a < fieldWords ∧ (s.dirtyLine (lineNo a)).isSome then s.shareLine (lineNo a) else s
    | .error e => s.countFail r a e) s

end Sys2Proof.Machine
end

