-- ==== Sys2Proof/Machine/Compose.lean ====
section
/-! DEFINITION. What a composed pixel is: canvas and Swath (R83, R84), tile planes (R90 to R96), sprites (R99 to R104),
video and bitmap planes with their scalers (R114 to R121), blend, stack and covering (R110 to R113, R124, R125). These
are functions of the state alone; fetched words that meet an error response read 0 (R97, R123). -/
namespace Sys2Proof.Machine

/-! ## Canvas -/

/-- Canvas width W (R83). -/
def State.canvasW (s : State) (b : Nat) : Nat :=
  let w := s.effFld (Reg.BM_CANVW b) Fd.BM_CANVW_WIDTH
  if w = 0 then 0x100000 else if w < 8192 then 8192 else w

/-- Canvas X of active column `h` (R84). -/
def State.canvasX (s : State) (b h : Nat) : Nat :=
  (s.useFld (Reg.BM_SWX b) Fd.BM_SWX_X % s.canvasW b + h) % s.canvasW b

/-- Canvas Y of active row `v` (R84). -/
def State.canvasY (s : State) (b v : Nat) : Nat := (s.useFld (Reg.BM_SWY b) Fd.BM_SWY_Y + v) % 65536

/-- `(a − b) mod m` for numbers below or above `m`. -/
def subMod (a b m : Nat) : Nat := (a + m - b % m) % m

/-! ## Layers -/

/-- The working layer control word (R144). -/
def State.lyCtrl (s : State) (b l : Nat) : Word := s.useEff (Reg.BM_LY_CTRL b l)

/-- Kind of layer `l` (R110). -/
def State.lyKind (s : State) (b l : Nat) : Nat := getF (s.lyCtrl b l) Fd.BM_LY_CTRL_KIND

/-- ALPHA of layer `l` (R113). -/
def State.lyAlpha (s : State) (b l : Nat) : Nat := getF (s.lyCtrl b l) Fd.BM_LY_CTRL_ALPHA

/-- Scaler of layer `l` (R110). -/
def State.lyScl (s : State) (b l : Nat) : Nat := getF (s.lyCtrl b l) Fd.BM_LY_CTRL_SCL

/-- The plot that owns layer `l`. -/
def State.lyPlot (s : State) (b l : Nat) : Nat := s.ownerRes 2 (8 * b + l)

/-- Is layer `l` enabled, and not treated as disabled by a fence of its plot (R342)? -/
def State.lyOn (s : State) (b l : Nat) : Bool := bit (s.lyCtrl b l) 0 && !(s.beam b).comp.fenced.contains (s.lyPlot b l)

/-- Is the layer absent under level 3 (R126)? R126 says so of every layer with SHED 1, and so of a tile layer too, of whose planes R108 says
that they are not shed: DESIGN CHOICE (log entry 134). -/
def State.lyShed (s : State) (b l : Nat) : Bool := (s.beam b).comp.lyLevel && bit (s.lyCtrl b l) 10

/-- Stack position of layer `l` (R111). -/
def State.posOf (s : State) (b l : Nat) : Nat := (s.inEff (Reg.BM_STACK b)).toNat / 2 ^ (3 * l) % 8

/-- The layer at stack position `q`. -/
def State.layerAt (s : State) (b q : Nat) : Option Nat := (List.range 8).find? (fun l => s.posOf b l == q)

/-! ## Tile data -/

/-- Bits per pixel of a depth code (R90). -/
def depthBits : Nat → Nat
  | 0 => 3 | 1 => 6 | 2 => 12 | _ => 24

/-- Pixels per word of a depth code (R90). -/
def pixPerWord (depth : Nat) : Nat := 24 / depthBits depth

/-- Words per tile of side `t` (R90). -/
def wordsPerTile (depth t : Nat) : Nat := t * t / pixPerWord depth

/-- Pixel `p` of a word of tile data (R91). -/
def wordPixel (depth : Nat) (w : Word) (p : Nat) : Nat :=
  w.toNat / 2 ^ (24 - depthBits depth * (p + 1)) % 2 ^ depthBits depth

/-- The palette entry that value `v` selects with PAL `pal` (R94). -/
def palIndex (depth pal v : Nat) : Nat := (pal * 2 ^ depthBits depth + v) % 4096

/-- The colour of pixel value `v`: a palette entry, or the value itself at depth 24 (R94). -/
def State.pixColour (s : State) (b depth pal v : Nat) : Word :=
  if depth = 3 then wd v else s.reg (Reg.BM_PAL b (palIndex depth pal v))

/-- What a plane has at a canvas point: its colour if it is not transparent there, whether the pixel is lifted (R96), and
the addresses fetched for it: the first source, and the second (R130). -/
structure PlanePix where
  colour : Option Word := none
  lifted : Bool := false
  src0 : List Nat := []
  src1 : List Nat := []
  deriving DecidableEq, Repr

/-- The plane pixel of tile layer `l` at a canvas point, if the point lies in the plane (R93). -/
def State.tilePoint (s : State) (b l cx cy : Nat) : Option (Nat × Nat) :=
  let w := s.canvasW b
  let cfg := s.inEff (Reg.BM_TL_CFG b l)
  let t := if bit cfg 0 then 16 else 8
  let dx := subMod cx (s.useFld (Reg.BM_TL_ORGX b l) Fd.BM_TL_ORGX_V) w
  let dy := subMod cy (s.useFld (Reg.BM_TL_ORGY b l) Fd.BM_TL_ORGY_V) 65536
  let extw := s.useFld (Reg.BM_TL_EXTW b l) Fd.BM_TL_EXTW_V
  let exth := s.useFld (Reg.BM_TL_EXTH b l) Fd.BM_TL_EXTH_V
  if (if extw = 0 then w else extw) ≤ dx ∨ (if exth = 0 then 65536 else exth) ≤ dy then none
  else
    let mw := 32 * 2 ^ getF cfg Fd.BM_TL_CFG_MAPW
    let mh := 32 * 2 ^ getF cfg Fd.BM_TL_CFG_MAPH
    some ((dx + s.useFld (Reg.BM_TL_SCX b l) Fd.BM_TL_SCX_V) % (mw * t),
      (dy + s.useFld (Reg.BM_TL_SCY b l) Fd.BM_TL_SCY_V) % (mh * t))

/-- Tile layer `l` at a canvas point (R92 to R96). -/
def State.tilePix (s : State) (b l cx cy : Nat) : PlanePix :=
  match s.tilePoint b l cx cy with
  | none => {}
  | some (px, py) =>
    let cfg := s.inEff (Reg.BM_TL_CFG b l)
    let t := if bit cfg 0 then 16 else 8
    let depth := getF cfg Fd.BM_TL_CFG_DEPTH
    let mw := 32 * 2 ^ getF cfg Fd.BM_TL_CFG_MAPW
    let p := s.lyPlot b l
    let mapA := 16 * (s.useEff (Reg.BM_TL_MAP b l)).toNat + (py / t) * mw + px / t
    let e := s.fetchZ p mapA
    let tx := if bit e 21 then t - 1 - px % t else px % t
    let ty := if bit e 22 then t - 1 - py % t else py % t
    let i := ty * t + tx
    let tileA := 16 * (s.useEff (Reg.BM_TL_TDATA b l)).toNat + (e.toNat % 4096) * wordsPerTile depth t
      + i / pixPerWord depth
    let v := wordPixel depth (s.fetchZ p tileA) (i % pixPerWord depth)
    let c := s.pixColour b depth (e.toNat / 4096 % 512) v
    let clear := if depth = 3 then bit cfg 8 && decide (c = s.useLive (Reg.BM_TL_KEY b l))
      else bit cfg 7 && v == 0
    let pripos := getF cfg Fd.BM_TL_CFG_PRIPOS
    { colour := if clear then none else some c
      lifted := bit cfg 12 && bit e 23 && decide (s.posOf b l < pripos)
      src0 := [mapA], src1 := [tileA] }

/-! ## Sprites -/

/-- The four words of sprite `i` in the bank that composition reads (R99, R101). -/
def State.sprEntry (s : State) (b i : Nat) : List Word :=
  let bank := if bit (s.reg (Reg.BM_SPBANK b)) 1 then 512 else 0
  (List.range 4).map (fun w => s.reg (Reg.BM_SPT0 b (bank + i) + w))

/-- Word `w` of a sprite entry (R101). -/
def sprW (e : List Word) (w : Nat) : Word := e.getD w 0

/-- Rows of a sprite. -/
def sprRows (e : List Word) : Nat := 8 * (getF (sprW e 2) ⟨18, 14⟩ + 1)

/-- Columns of a sprite. -/
def sprCols (e : List Word) : Nat := 8 * (getF (sprW e 2) ⟨23, 19⟩ + 1)

/-- Row of the sprite that shows canvas row `cy`, if any (R102, R105). -/
def sprRow (e : List Word) (cy : Nat) : Option Nat :=
  let r := subMod cy (getF (sprW e 1) ⟨15, 0⟩) 65536
  if r < sprRows e then some r else none

/-- Column of the sprite that shows canvas column `cx`, if any (R102). -/
def State.sprCol (s : State) (b : Nat) (e : List Word) (cx : Nat) : Option Nat :=
  let c := subMod cx (getF (sprW e 0) ⟨19, 0⟩) (s.canvasW b)
  if c < sprCols e then some c else none

/-- The sprite at a canvas point (R102, R103): its colour where it is not transparent, and the address fetched. -/
def State.sprPix (s : State) (b : Nat) (e : List Word) (cx cy : Nat) : PlanePix :=
  match sprRow e cy, s.sprCol b e cx with
  | some r0, some c0 =>
    let w0 := sprW e 0
    let w2 := sprW e 2
    let w3 := sprW e 3
    let r := if bit w0 22 then sprRows e - 1 - r0 else r0
    let c := if bit w0 21 then sprCols e - 1 - c0 else c0
    let depth := s.effFld (Reg.BM_SPCFG b) Fd.BM_SPCFG_DEPTH
    let tile := getF w2 ⟨13, 0⟩ + (r / 8) * (getF w2 ⟨23, 19⟩ + 1) + c / 8
    let k := (r % 8) * 8 + c % 8
    let a := 16 * (s.inEff (Reg.BM_SPTDATA b)).toNat + tile * wordsPerTile depth 8 + k / pixPerWord depth
    let v := wordPixel depth (s.fetchZ (s.spriteOwner b) a) (k % pixPerWord depth)
    let col := s.pixColour b depth (getF w3 ⟨23, 15⟩) v
    let clear := bit w3 14 &&
      (if depth = 3 then decide (col = s.reg (Reg.BM_SPKEY24 b))
       else v == getF w3 ⟨11, 0⟩ % 2 ^ depthBits depth)
    { colour := if clear then none else some col, src0 := [a] }
  | _, _ => {}

/-- Is the sprite left out by shedding (R107)? -/
def State.sprShed (s : State) (b : Nat) (e : List Word) : Bool :=
  let w := sprW e 1
  let n := (s.beam b).comp.spLevel
  !bit w 23 && (decide (2 ≤ n) || (decide (1 ≤ n) && bit w 22))

/-- The sprite plane at a canvas point: the front sprite that is not transparent, with its ALPHA (R104). -/
def State.spritePlane (s : State) (b cx cy : Nat) : Option (Word × Nat) :=
  (s.beam b).comp.draw.findSome? (fun e =>
    if s.sprShed b e then none
    else (s.sprPix b e cx cy).colour.map (fun c => (c, getF (sprW e 1) ⟨21, 16⟩)))

/-- The entries that selection keeps on beam line `v`, and how many it drops for MAXLINE and for the budget (R105). -/
def State.selectSprites (s : State) (b v : Nat) : List (List Word) × Nat × Nat :=
  let y := s.canvasY b v
  let hact := s.effFld (Reg.BM_HACT b) Fd.BM_HACT_V
  let ml := s.effFld (Reg.BM_SPCFG b) Fd.BM_SPCFG_MAXLINE
  let maxLine := if ml = 0 ∨ 128 < ml then 128 else ml
  let bud := s.fld (Reg.BM_SPBUDGET b) Fd.BM_SPBUDGET_PIXELS
  let r := (List.range 512).foldl (fun (acc : List (List Word) × Nat × Nat × Nat × Nat) i =>
    let (draw, kept, left, dc, dp) := acc
    let e := s.sprEntry b i
    if !bit (sprW e 0) 23 ∨ (sprRow e y).isNone then acc
    else
      let n := ((List.range hact).filter (fun h => (s.sprCol b e (s.canvasX b h)).isSome)).length
      if n = 0 then acc
      else if kept = maxLine then (draw, kept, left, dc + 1, dp)
      else if left < n then (draw, kept + 1, left, dc, dp + 1)
      else (draw ++ [e], kept + 1, left - n, dc, dp)) ([], 0, (if bud = 0 then 32768 else bud), 0, 0)
  (r.1, r.2.2.2.1, r.2.2.2.2)

/-! ## Video and bitmap planes -/

/-- Scaler field helpers: the set in effect, with the working values of the fields a Furrow program may write. -/
def State.scN (s : State) (b k j : Nat) : Nat := (s.useEff (Reg.BM_SC_FMT b k + j)).toNat

/-- Numerators of sx and sy over 65,536 at a canvas point inside the output rectangle (R119). -/
def State.scPoint (s : State) (b k cx cy : Nat) : Option (Int × Int) :=
  let ox := subMod cx (s.scN b k 9) (s.canvasW b)
  let oy := subMod cy (s.scN b k 10) 65536
  if s.scN b k 11 ≤ ox ∨ s.scN b k 12 ≤ oy then none
  else some (65536 * (s.scN b k 5 : Int) + signed 20 (s.scN b k 15) + ox * s.scN b k 13,
    65536 * (s.scN b k 6 : Int) + signed 20 (s.scN b k 16) + oy * s.scN b k 14)

/-- A column or row held to the source rectangle (R119). -/
def clampN (lo n : Nat) (i : Int) : Nat := (clampI lo (lo + n - 1 : Int) i).toNat

/-- The Furrow-independent word address of a luma sample (R114) or bitmap pixel (R118). -/
def State.lumaAddr (s : State) (b k : Nat) (bitmap : Bool) (x y : Nat) : Nat :=
  let per := if bitmap then 1 else if bit (s.inEff (Reg.BM_SC_FMT b k)) 5 then 2 else 3
  16 * s.scN b k 1 + y * s.scN b k 3 + x / per

/-- Luma sample (x, y) at 10 bits (R114, R117). -/
def State.luma (s : State) (b k p x y : Nat) : Nat :=
  let w := (s.fetchZ p (s.lumaAddr b k false x y)).toNat
  if bit (s.inEff (Reg.BM_SC_FMT b k)) 5 then (if x % 2 = 0 then w / 2 ^ 12 % 1024 else w % 1024)
  else 4 * (w / 2 ^ (16 - 8 * (x % 3)) % 256)

/-- The address of chroma site (u, w) (R115). -/
def State.siteAddr (s : State) (b k u w : Nat) : Nat := 16 * s.scN b k 2 + w * s.scN b k 4 + u

/-- Cb and Cr of site (u, w), as stored (R115). -/
def State.site (s : State) (b k p u w : Nat) : Nat × Nat :=
  let v := (s.fetchZ p (s.siteAddr b k u w)).toNat
  if bit (s.inEff (Reg.BM_SC_FMT b k)) 5 then (v / 2 ^ 12 % 1024, v % 1024) else (v / 2 ^ 16 % 256, v / 2 ^ 8 % 256)

/-- The range of chroma sites, columns and rows, that cover the source rectangle (R116). -/
def State.siteRange (s : State) (b k : Nat) : (Nat × Nat) × (Nat × Nat) :=
  let chroma := getF (s.inEff (Reg.BM_SC_FMT b k)) Fd.BM_SC_FMT_CHROMA
  let x := s.scN b k 5
  let y := s.scN b k 6
  let w := s.scN b k 7
  let h := s.scN b k 8
  ((if chroma = 2 then (x, x + w - 1) else (x / 2, (x + w - 1) / 2)),
   (if chroma = 0 then (y / 2, (y + h - 1) / 2) else (y, y + h - 1)))

/-- The sites that the chroma of luma sample (x, y) comes from (R116): rows with weights, and columns. -/
def State.chromaTaps (s : State) (b k x y : Nat) : List (Nat × Nat) × List Nat :=
  let chroma := getF (s.inEff (Reg.BM_SC_FMT b k)) Fd.BM_SC_FMT_CHROMA
  let ((u0, u1), (w0, w1)) := s.siteRange b k
  let cu (i : Int) : Nat := (clampI u0 u1 i).toNat
  let cw (i : Int) : Nat := (clampI w0 w1 i).toNat
  let rows := if chroma = 0 then
      (if y % 2 = 0 then [(3, cw (y / 2 : Nat)), (1, cw ((y / 2 : Nat) - 1))]
       else [(3, cw ((y - 1) / 2 : Nat)), (1, cw ((y + 1) / 2 : Nat))])
    else [(4, cw y)]
  let cols := if chroma = 2 then [cu x]
    else if x % 2 = 0 then [cu (x / 2 : Nat)] else [cu ((x - 1) / 2 : Nat), cu ((x + 1) / 2 : Nat)]
  (rows, cols)

/-- One column of chroma after the vertical step (R116). -/
def State.chromaCol (s : State) (b k p : Nat) (cb : Bool) (rows : List (Nat × Nat)) (u : Nat) : Nat :=
  let v (w : Nat) : Nat := if cb then (s.site b k p u w).1 else (s.site b k p u w).2
  match rows with
  | [(4, w)] => v w
  | rs => (rs.foldl (fun acc e => acc + e.1 * v e.2) 0 + 2) / 4

/-- Chroma at luma sample (x, y), at 10 bits (R116, R117). -/
def State.chroma (s : State) (b k p : Nat) (cb : Bool) (x y : Nat) : Nat :=
  let (rows, cols) := s.chromaTaps b k x y
  let v := match cols with
    | [u] => s.chromaCol b k p cb rows u
    | us => (us.foldl (fun acc u => acc + s.chromaCol b k p cb rows u) 0 + 1) / 2
  if bit (s.inEff (Reg.BM_SC_FMT b k)) 5 then v else 4 * v

/-- Kr and Kb of a matrix code, over 10,000 (R117). -/
def matrixK : Nat → Int × Int
  | 0 => (2990, 1140) | 1 => (2126, 722) | _ => (2627, 593)

/-- `1023 × n / d` rounded to nearest. -/
def round1023 (n d : Int) : Int := (2 * 1023 * n + d).fdiv (2 * d)

/-- The exact channels of a Y'CbCr sample as fractions of one denominator: R, G and B numerators, R and B over `d` and G
over `kg × d` (R117). -/
def yccExact (matrix : Nat) (full : Bool) (y cb cr : Nat) : (Int × Int) × (Int × Int) × (Int × Int) :=
  let (kr, kb) := matrixK matrix
  let kg := 10000 - kr - kb
  let d : Int := if full then 1023 * 10000 else 876 * 896 * 10000
  let yn : Int := if full then y * 10000 else ((y : Int) - 64) * 896 * 10000
  let m : Int := if full then 1 else 876
  let rn := yn + 2 * (10000 - kr) * ((cr : Int) - 512) * m
  let bn := yn + 2 * (10000 - kb) * ((cb : Int) - 512) * m
  ((rn, d), (yn * 10000 - kr * rn - kb * bn, kg * d), (bn, d))

/-- A channel at 10 bits: the exact value rounded to nearest, or one off it (R117). -/
def yccChannel (matrix : Nat) (full : Bool) (y cb cr ch : Nat) (e : Int × Int) : Int :=
  clampI 0 1023 (round1023 e.1 e.2 + clampI (-1) 1 (Config.yccDev matrix (b2n full) y cb cr ch))

/-- The source pixel of a video plane at 10 bits per channel (R117). -/
def State.videoSrc (s : State) (b k p x y : Nat) : List Int :=
  let f := s.inEff (Reg.BM_SC_FMT b k)
  let m := getF f Fd.BM_SC_FMT_MATRIX
  let full := bit f 10
  let l := s.luma b k p x y
  let cb := s.chroma b k p true x y
  let cr := s.chroma b k p false x y
  let (r, g, bl) := yccExact m full l cb cr
  [yccChannel m full l cb cr 0 r, yccChannel m full l cb cr 1 g, yccChannel m full l cb cr 2 bl]

/-- The source pixel of a bitmap plane, 8 bits per channel (R118). -/
def State.bitmapSrc (s : State) (b k p x y : Nat) : List Int :=
  let w := (s.fetchZ p (s.lumaAddr b k true x y)).toNat
  [((w / 65536 : Nat) : Int), ((w / 256 % 256 : Nat) : Int), ((w % 256 : Nat) : Int)]

/-- Coefficient `t` of a phase in the selected bank: horizontal (6 taps) or vertical (4 taps) (R121). -/
def State.coef (s : State) (b k : Nat) (vert : Bool) (ph t : Nat) : Int :=
  let bank := if bit (s.inEff (Reg.BM_SC_FMT b k)) 12 then 0x200 else 0
  let base := Reg.BM_COEFH b 0 0 0 + 0x400 * k + bank
  let w := (s.reg (if vert then base + 0x100 + 2 * ph + t / 2 else base + 3 * ph + t / 2)).toNat
  signed 10 (if t % 2 = 0 then w / 2 ^ 12 else w)

/-- The columns and rows of the taps, held to the source rectangle (R119). -/
def State.tapCols (s : State) (b k : Nat) (i : Int) : List Nat :=
  (List.range 6).map (fun (t : Nat) => clampN (s.scN b k 5) (s.scN b k 7) (i - 2 + (t : Int)))
def State.tapRows (s : State) (b k : Nat) (j : Int) : List Nat :=
  (List.range 4).map (fun (t : Nat) => clampN (s.scN b k 6) (s.scN b k 8) (j - 1 + (t : Int)))

/-- One filtered channel (R120). -/
def State.filter (s : State) (b k : Nat) (phx phy : Nat) (src : Nat → Nat → Int) (cols rows : List Nat) : Int :=
  (rows.zipIdx).foldl (fun acc r =>
    acc + s.coef b k true phy r.2 *
      (cols.zipIdx).foldl (fun h c => h + s.coef b k false phx c.2 * src c.1 r.1) 0) 0

/-- A 24-bit colour from three channels. -/
def rgb (cs : List Int) : Word := wd ((cs.getD 0 0).toNat * 65536 + (cs.getD 1 0).toNat * 256 + (cs.getD 2 0).toNat)

/-- Has scaler `k` latched a valid set (R122)? -/
def State.scUsable (s : State) (b k : Nat) : Bool := (s.beam b).scalersSet.contains k

/-- A video (kind 2) or bitmap (kind 3) layer at a canvas point (R118 to R120). -/
def State.scaledPix (s : State) (b l cx cy : Nat) : PlanePix :=
  let k := s.lyScl b l
  let bitmap := s.lyKind b l == 3
  if !s.scUsable b k then {}
  else match s.scPoint b k cx cy with
    | none => {}
    | some (nx, ny) =>
      let p := s.lyPlot b l
      let i := nx.fdiv 65536
      let j := ny.fdiv 65536
      let phx := (nx.fmod 65536).toNat / 1024
      let phy := (ny.fmod 65536).toNat / 1024
      let cols := s.tapCols b k i
      let rows := s.tapRows b k j
      let src (ch x y : Nat) : Int :=
        if bitmap then (s.bitmapSrc b k p x y).getD ch 0 else (s.videoSrc b k p x y).getD ch 0
      let chan (ch : Nat) : Int :=
        let v := s.filter b k phx phy (src ch) cols rows
        if bitmap then clampI 0 255 ((v + 32768).fdiv 65536) else clampI 0 255 ((v + 131072).fdiv 262144)
      let luma := rows.flatMap (fun y => cols.map (fun x => s.lumaAddr b k bitmap x y))
      let sites := if bitmap then [] else rows.flatMap (fun y => cols.flatMap (fun x =>
        let (rs, us) := s.chromaTaps b k x y
        rs.flatMap (fun r => us.map (fun u => s.siteAddr b k u r.2))))
      let c := rgb [chan 0, chan 1, chan 2]
      let keyed := bitmap && bit (s.inEff (Reg.BM_SC_FMT b k)) 11 &&
        decide (s.fetchZ p (s.lumaAddr b k true (clampN (s.scN b k 5) (s.scN b k 7) i)
          (clampN (s.scN b k 6) (s.scN b k 8) j)) = s.inEff (Reg.BM_SC_KEY b k))
      { colour := if keyed then none else some c, src0 := luma.eraseDups, src1 := sites.eraseDups }

/-! ## One layer, one pixel -/

/-- Layer `l` at a canvas point, sprite plane apart (R110). -/
def State.planePix (s : State) (b l cx cy : Nat) : PlanePix :=
  match s.lyKind b l with
  | 0 => s.tilePix b l cx cy
  | 2 | 3 => s.scaledPix b l cx cy
  | 4 => { colour := some (s.useEff (Reg.BM_LY_SOLID b l)) }
  | _ => {}

/-- One channel of a blend (R104, R113). -/
def blendCh (p out alpha : Nat) : Nat := (p * (alpha + 1) + out * (63 - alpha) + 32) / 64

/-- A colour over a colour (R104, R113). -/
def blend (p : Word) (alpha : Nat) (out : Word) : Word :=
  let ch (i : Nat) : Nat := blendCh (p.toNat / 2 ^ i % 256) (out.toNat / 2 ^ i % 256) alpha
  wd (ch 16 * 65536 + ch 8 * 256 + ch 0)

/-- Is layer `l` in the static group (R128)? -/
def State.inGroup (s : State) (b l : Nat) : Bool := s.bitAt (Reg.BM_FLATSTAT b) (8 + l)

/-- BMx_FLATSTAT.STATE (R129). -/
def State.flatState (s : State) (b : Nat) : Nat := s.fld (Reg.BM_FLATSTAT b) Fd.BM_FLATSTAT_STATE

/-- Is the flat image read as one plane (R129)? -/
def State.flatRead (s : State) (b : Nat) : Bool := s.flatState b == 2 && !(s.beam b).flat.broken

/-- The position of the group's top layer (R129). -/
def State.groupTop (s : State) (b : Nat) : Nat :=
  (List.range 8).foldl (fun q l => if s.inGroup b l then Nat.max q (s.posOf b l) else q) 0

/-- The address of the flat image's pixel (h, v) (R128). -/
def State.flatAddr (s : State) (b h v : Nat) : Nat :=
  16 * (s.inEff (Reg.BM_FLATBASE b)).toNat + v * s.effFld (Reg.BM_FLATSTRIDE b) Fd.BM_FLATSTRIDE_STRIDE + h

/-- What a stack position holds: nothing, a layer, or the flat image. -/
inductive Plane where
  | nothing
  | layer (l : Nat)
  | flat
  deriving DecidableEq, Repr

/-- The plane at stack position `q` (R112, R129): in FLAT the image stands at the top layer's position. -/
def State.planeAt (s : State) (b q : Nat) : Plane :=
  match s.layerAt b q with
  | none => .nothing
  | some l =>
    if s.flatRead b && s.inGroup b l then (if s.groupTop b = q then .flat else .nothing)
    else if s.lyOn b l && !s.lyShed b l then .layer l else .nothing

/-- The 64 canvas points of segment `g` of row `v`. -/
def State.segPoints (s : State) (b g : Nat) : List Nat := (List.range 64).map (fun i => s.canvasX b (64 * g + i))

/-- Does the plane at position `q` cover segment `g` of row `v` (R124)? -/
def State.coversAt (s : State) (b q g v : Nat) : Bool :=
  match s.planeAt b q with
  | .nothing => false
  | .flat => true
  | .layer l =>
    let cy := s.canvasY b v
    let cfg := s.inEff (Reg.BM_TL_CFG b l)
    let k := s.lyScl b l
    s.lyAlpha b l == 63 &&
    match s.lyKind b l with
    | 4 => true
    | 2 => s.scUsable b k && (s.segPoints b g).all (fun cx => (s.scPoint b k cx cy).isSome)
    | 3 => s.scUsable b k && !bit (s.inEff (Reg.BM_SC_FMT b k)) 11 &&
        (s.segPoints b g).all (fun cx => (s.scPoint b k cx cy).isSome)
    | 0 => !bit cfg 12 && (if getF cfg Fd.BM_TL_CFG_DEPTH = 3 then !bit cfg 8 else !bit cfg 7) &&
        (s.segPoints b g).all (fun cx => (s.tilePoint b l cx cy).isSome)
    | _ => false

/-- The position of the highest covering plane of a segment (R112, R124). -/
def State.coverPos (s : State) (b g v : Nat) : Option Nat :=
  (List.range 8).foldl (fun acc q => if s.coversAt b q g v then some q else acc) none

/-- The plane at `q` has a pixel at column `h` of row `v`: put it over `out` (R112, R113, R104). -/
def State.overPlane (s : State) (b q h v : Nat) (out : Word) : Word :=
  match s.planeAt b q with
  | .nothing => out
  | .flat => s.fetchZ (s.ownerRes 1 b) (s.flatAddr b h v)
  | .layer l =>
    if s.lyKind b l = 1 then
      match s.spritePlane b (s.canvasX b h) (s.canvasY b v) with
      | some (c, alpha) => blend c alpha out
      | none => out
    else
      let p := s.planePix b l (s.canvasX b h) (s.canvasY b v)
      match p.colour with
      | some c => if p.lifted then out else blend c (s.lyAlpha b l) out
      | none => out

/-- The lifted tile pixels with PRIPOS `q`, lifting layer lowest first (R96, R112). -/
def State.overLifted (s : State) (b q h v : Nat) (out : Word) : Word :=
  (List.range 8).foldl (fun out q' =>
    match s.planeAt b q' with
    | .layer l =>
      if s.lyKind b l = 0 ∧ s.effFld (Reg.BM_TL_CFG b l) Fd.BM_TL_CFG_PRIPOS = q then
        let p := s.planePix b l (s.canvasX b h) (s.canvasY b v)
        match p.colour with
        | some c => if p.lifted then blend c (s.lyAlpha b l) out else out
        | none => out
      else out
    | _ => out) out

/-- The composed pixel (h, v) of beam `b`, where `cover` is the position of the highest covering plane (R112). -/
def State.composePix (s : State) (b : Nat) (cover : Option Nat) (h v : Nat) : Word :=
  let start := match cover with
    | none => s.useEff (Reg.BM_BGCOL b)
    | some q => s.overPlane b q h v (s.useEff (Reg.BM_BGCOL b))
  (List.range 8).foldl (fun out q =>
    let out := match cover with
      | none => s.overPlane b q h v out
      | some qc => if qc < q then s.overPlane b q h v out else out
    match cover with
    | none => s.overLifted b q h v out
    | some qc => if qc ≤ q then s.overLifted b q h v out else out) start

/-- The group's image at (h, v): the background with the group's layers over it (R128). -/
def State.groupPix (s : State) (b h v : Nat) : Word :=
  (List.range 8).foldl (fun out q =>
    match s.layerAt b q with
    | some l =>
      if s.inGroup b l && s.lyOn b l && !s.lyShed b l then
        match (s.planePix b l (s.canvasX b h) (s.canvasY b v)).colour with
        | some c => blend c (s.lyAlpha b l) out
        | none => out
      else out
    | none => out) (s.useEff (Reg.BM_BGCOL b))

end Sys2Proof.Machine
end

