-- ==== Sys2Proof/Machine/Access.lean ====
section
/-! DEFINITION. How an access reaches a register (R5, R6, R7, R11, R12, R14, R56, R445) and what a plain write does. -/
namespace Sys2Proof.Machine

/-! ## The way to the block -/

/-- Does the ownership of a register refuse requester `r`? GLN_CAPCMD and the GPIO words are checked bit by bit (R430, R471), so
the way to them is open to every plot. R14 checks the cores alone; R16 says that the Steward alone writes its registers and does
not say what happens to a Drill, Harrow, copy or debug write there: DESIGN CHOICE, no check refuses it (log entry 114). -/
def State.ownerRefuses (s : State) (r w o : Nat) (write : Bool) : Bool :=
  decide (r < 16) && !(s.ownerAt w o).allows (s.corePlot r) write

/-- Why requester `r` cannot make this access, leaving the fence aside; `none` where the access reaches its place. A reserved
address belongs to no plot: nothing refuses it there while its domain is on (R7, R11). Where both the ownership check and a domain
that is off refuse an access, the spec does not order the two: DESIGN CHOICE, ownership comes first, so PLT_VIOL counts (log
entry 113). -/
def State.gateIn (s : State) (r a : Nat) (write : Bool) : Option AccErr :=
  if 0x10000000 ≤ a then some .range
  else match regionOf a with
    | .unmapped => some .decode
    | .field _ => if s.memReady then none else some .notReady
    | .granary _ => if !s.dom 3 then some .off else if write then some .granWrite else none
    | .rom _ => if write then some .romWrite else none
    | .window w o =>
      if (regSpec a).isSome && s.ownerRefuses r w o write then some .owner
      else if !s.dom (domOfReg w o) && !answersOff w o then some .off
      else none

/-- Why requester `r`, carrying plot `p`, cannot make this access. The fence refuses before the ownership check (R14, R56). -/
def State.gate (s : State) (r p a : Nat) (write : Bool) : Option AccErr :=
  if s.refuses p then some .fenced else s.gateIn r a write

/-- What a refused access counts: an ownership violation in PLT_VIOL of the accessing plot (R14), the others as
`State.countFail` says. -/
def State.refuse (s : State) (r p a : Nat) (e : AccErr) : State :=
  match e with
  | .owner => s.bump (Reg.PLT_VIOL p)
  | _ => s.countFail r a e

/-- Requester `r` counts a refusal of the fence in its own block (R56). DESIGN CHOICE: that is the ERRCNT of the window of the unit; a
core has none, and its exception or its Glean event stands for it (log entry 117). -/
def State.countOwn (s : State) (r : Nat) (e : AccErr) : State :=
  let w : Option Nat := match r with
    | 16 => some 0 | 17 => some 7 | 18 => some 8 | 19 => some 6 | 20 => some 5 | 21 => some 9 | 22 => some 11 | 23 => some 17
    | 24 => some 12 | 25 => some 16
    | _ => none
  match e, w with
  | .fenced, some w => s.countAt { errPlace w with last := none } 0
  | _, _ => s

/-- A write by requester `r` to the register at `a`: where the way is open `f` happens and the answer is good, else the
write is dropped with an error response. -/
def State.regCmd (s : State) (r a : Nat) (f : State → State) : State :=
  match s.gate r (s.reqPlot r) a true with
  | some e => (s.refuse r (s.reqPlot r) a e).answer r ⟨0, [], .error⟩
  | none => (f s).answer r ⟨0, [], .ok⟩

/-- The same for a write that its block may answer with an error. -/
def State.regCmdR (s : State) (r a : Nat) (f : State → State × BusResp) : State :=
  match s.gate r (s.reqPlot r) a true with
  | some e => (s.refuse r (s.reqPlot r) a e).answer r ⟨0, [], .error⟩
  | none => let (t, k) := f s; t.answer r ⟨0, [], k⟩

/-! ## A plain write -/

/-- The present enable that locks a Locked field whose low bit is `lo`, of the register at `a` (R6). -/
def State.lockedNow (s : State) (a lo : Nat) : Bool :=
  match regionOf a with
  | .window w o =>
    match w with
    | 0 => s.bitAt a 23
    | 4 => s.bitAt a 19
    | 5 => s.bitAt (a - o % 16) 21
    | 7 | 8 => s.bitAt (Reg.BM_TCTRL (w - 7)) 0
    | 9 =>
      if 0x10 ≤ o ∧ o < 0x18 then s.bitAt a 23
      else if 0x80 ≤ o ∧ o < 0x90 then s.bitAt (Reg.AUD_REC_CTRL ((o - 0x80) / 4)) 23
      else s.bitAt Reg.AUD_CTRL 0
    | 10 => s.bitAt (a - o % 8) 23
    | 11 => if o = 6 then (if 17 < lo then s.bitAt a 17 else s.bitAt a 9)
            else if o = 0xC then s.bitAt a 12 else s.bitAt a 23
    | 12 => s.bitAt (a - o % 4) 22
    | 17 => s.bitAt Reg.GLN_CTRL 23
    | 18 => s.bitAt Reg.FAB_CTRL 0
    | 19 => s.bitAt Reg.ACW_CTRL 23
    | _ => false
  | _ => false

/-- Can software write the field (R5)? -/
def fieldWritable (f : FieldSpec) : Bool := f.acc != .ro

/-- The place of a field. -/
def fieldPlace (f : FieldSpec) : Fld := ⟨f.hi, f.lo⟩

/-- The register's new word after one field of a write of `v`, by its access code (R5); `acc` is what the
fields before this one made of the register. -/
def writeField (s : State) (a : Nat) (v : Word) (acc : Word) (f : FieldSpec) : Word :=
  match f.acc with
  | .ro | .wo => acc
  | .rw | .rws => if f.locked && s.lockedNow a f.lo then acc else putF acc (fieldPlace f) (getF v (fieldPlace f))
  | .w1c => acc &&& ~~~ (v &&& maskF (fieldPlace f))
  | .w1s => acc ||| (v &&& maskF (fieldPlace f))
  | .sat => if bit v f.lo then (acc &&& ~~~ maskF (fieldPlace f)) &&& ~~~ maskF ⟨15, 0⟩ else acc

/-- Does the write carry another value to a Locked field of an enabled block (R6)? -/
def State.breaksLock (s : State) (a : Nat) (v : Word) (fs : List FieldSpec) : Bool :=
  fs.any (fun f => f.locked && s.lockedNow a f.lo && getF v (fieldPlace f) != getF (s.reg a) (fieldPlace f))

/-- The cause that a window's cause list gives for a refused write; 0 where the block records none. GRN and GLN state no
cause for it: there the cause is a free value (log entry 9). -/
def State.dropCause (s : State) (w : Nat) : Nat :=
  if w = 13 ∨ w = 17 then (Config.freeValue s.freeCtr).toNat
  else if w = 6 ∨ w = 9 ∨ w = 10 ∨ w = 11 ∨ w = 19 then 2 else 1

/-- Where the last-error word of a window names a unit (a channel, a timer, a pin) and the offset lies in that unit's
registers, its number is recorded (log entry 10). -/
def State.dropPlace (s : State) (w o : Nat) : State :=
  match w with
  | 2 => if o < 0x100 then s.setFld Reg.IRQ_LASTERR Fd.IRQ_LASTERR_SRC o else s
  | 4 => if 0x100 ≤ o ∧ o < 0x200 then s.setFld Reg.TMR_LASTERR Fd.TMR_LASTERR_TIMER ((o - 0x100) / 16) else s
  | 5 => if 0x100 ≤ o ∧ o < 0x300 then s.setFld Reg.DRL_LASTERR Fd.DRL_LASTERR_CHAN ((o - 0x100) / 16) else s
  | 11 => if 0x20 ≤ o ∧ o < 0x60 then s.setFld Reg.LNK_LASTERR Fd.LNK_LASTERR_LANE ((o - 0x20) / 8) else s
  | 9 => s.setFld Reg.AUD_LASTERR Fd.AUD_LASTERR_OFS (if 0x200 ≤ o ∧ o < 0x600 then o - o % 16 else o)
  | 10 => s.setFld Reg.SUP_LASTERR Fd.SUP_LASTERR_OFS o
  | 14 => if 0x100 ≤ o ∧ o < 0x130 then s.setFld Reg.GPO_LASTERR Fd.GPO_LASTERR_PIN (o - 0x100) else s
  | _ => s

/-- A write to offset `o` of window `w` is dropped and counted in the block's ERRCNT (R5, R6, R7). -/
def State.dropWrite (s : State) (w o : Nat) : State :=
  let s' := (s.err w (s.dropCause w)).dropPlace w o
  if w = 13 ∨ w = 17 then s'.useFree else s'

/-- A plain write of `v` to the register at `a` of window `w`: its writable fields by access code and class; a register
without one, or a reserved address, drops the write and counts it (R5, R6, R7). -/
def State.plainWrite (s : State) (a : Nat) (v : Word) : State :=
  match regionOf a with
  | .window w o =>
    match regSpec a with
    | none => s.dropWrite w o
    | some q =>
      if !q.fields.any fieldWritable then s.dropWrite w o
      else
        let t := s.setReg a (q.fields.foldl (writeField s a v) (s.reg a))
        if s.breaksLock a v q.fields then t.dropWrite w o else t
  | _ => s

/-- What a plain read gives: WO fields read 0 (R5), reserved addresses read 0x00_0000 (R7). -/
def State.plainRead (s : State) (a : Nat) : Word :=
  match regSpec a with
  | none => 0
  | some q => q.fields.foldl (fun acc f => if f.acc = .wo then acc else acc ||| (s.reg a &&& maskF (fieldPlace f))) 0

end Sys2Proof.Machine
end

