-- ==== Sys2Proof/Machine/Crypto.lean ====
section
/-! DEFINITION. The cryptographic functions that the spec names by their standards: SHA-256 and HMAC-SHA-256 (R351, R352,
R354), AES-256-GCM (R353), ECDSA over P-256 (R351, R354). The spec gives their names and lengths; what they compute is
taken from the standards (log entry 13). Bytes go most significant first. -/
namespace Sys2Proof.Crypto

abbrev Byte := BitVec 8

/-! ## SHA-256 -/

/-- The round constants. -/
def roundK : List (BitVec 32) :=
  [0x428a2f98, 0x71374491, 0xb5c0fbcf, 0xe9b5dba5, 0x3956c25b, 0x59f111f1, 0x923f82a4, 0xab1c5ed5] ++
  [0xd807aa98, 0x12835b01, 0x243185be, 0x550c7dc3, 0x72be5d74, 0x80deb1fe, 0x9bdc06a7, 0xc19bf174] ++
  [0xe49b69c1, 0xefbe4786, 0x0fc19dc6, 0x240ca1cc, 0x2de92c6f, 0x4a7484aa, 0x5cb0a9dc, 0x76f988da] ++
  [0x983e5152, 0xa831c66d, 0xb00327c8, 0xbf597fc7, 0xc6e00bf3, 0xd5a79147, 0x06ca6351, 0x14292967] ++
  [0x27b70a85, 0x2e1b2138, 0x4d2c6dfc, 0x53380d13, 0x650a7354, 0x766a0abb, 0x81c2c92e, 0x92722c85] ++
  [0xa2bfe8a1, 0xa81a664b, 0xc24b8b70, 0xc76c51a3, 0xd192e819, 0xd6990624, 0xf40e3585, 0x106aa070] ++
  [0x19a4c116, 0x1e376c08, 0x2748774c, 0x34b0bcb5, 0x391c0cb3, 0x4ed8aa4a, 0x5b9cca4f, 0x682e6ff3] ++
  [0x748f82ee, 0x78a5636f, 0x84c87814, 0x8cc70208, 0x90befffa, 0xa4506ceb, 0xbef9a3f7, 0xc67178f2]

/-- The initial hash. -/
def hash0 : List (BitVec 32) := [0x6a09e667, 0xbb67ae85, 0x3c6ef372, 0xa54ff53a, 0x510e527f, 0x9b05688c, 0x1f83d9ab, 0x5be0cd19]

/-- Bytes as a number, most significant first. -/
def ofBytes (bs : List Byte) : Nat := bs.foldl (fun n b => n * 256 + b.toNat) 0

/-- The `n` bytes of a number, most significant first. -/
def toBytes (n v : Nat) : List Byte := (List.range n).map (fun i => BitVec.ofNat 8 (v / 2 ^ (8 * (n - 1 - i))))

/-- Cut a list into pieces of `n`, with `fuel` pieces at most. -/
def pieces {α : Type} (n : Nat) : Nat → List α → List (List α)
  | 0, _ => []
  | _, [] => []
  | fuel + 1, xs => xs.take n :: pieces n fuel (xs.drop n)

/-- The message with its padding. -/
def shaPad (bs : List Byte) : List Byte :=
  bs ++ [0x80] ++ List.replicate ((119 - bs.length % 64) % 64) 0 ++ toBytes 8 (8 * bs.length)

/-- The message schedule, newest word first. -/
def shaSched (w16 : List (BitVec 32)) : List (BitVec 32) :=
  (List.range 48).foldl (fun ws _ =>
    let a := ws.getD 14 0
    let b := ws.getD 1 0
    let s0 := a.rotateRight 7 ^^^ a.rotateRight 18 ^^^ (a >>> 3)
    let s1 := b.rotateRight 17 ^^^ b.rotateRight 19 ^^^ (b >>> 10)
    (s1 + ws.getD 6 0 + s0 + ws.getD 15 0) :: ws) w16.reverse

/-- One block of 64 bytes. -/
def shaBlock (h : List (BitVec 32)) (blk : List Byte) : List (BitVec 32) :=
  let ws := (shaSched ((pieces 4 16 blk).map (fun q => BitVec.ofNat 32 (ofBytes q)))).reverse
  let r := (ws.zip roundK).foldl (fun v x =>
    let a := v.getD 0 0
    let e := v.getD 4 0
    let s1 := e.rotateRight 6 ^^^ e.rotateRight 11 ^^^ e.rotateRight 25
    let ch := (e &&& v.getD 5 0) ^^^ (~~~ e &&& v.getD 6 0)
    let t1 := v.getD 7 0 + s1 + ch + x.2 + x.1
    let s0 := a.rotateRight 2 ^^^ a.rotateRight 13 ^^^ a.rotateRight 22
    let mj := (a &&& v.getD 1 0) ^^^ (a &&& v.getD 2 0) ^^^ (v.getD 1 0 &&& v.getD 2 0)
    [t1 + (s0 + mj), a, v.getD 1 0, v.getD 2 0, v.getD 3 0 + t1, e, v.getD 5 0, v.getD 6 0]) h
  List.zipWith (· + ·) h r

/-- SHA-256. -/
def sha256 (bs : List Byte) : List Byte :=
  let p := shaPad bs
  ((pieces 64 (p.length / 64) p).foldl shaBlock hash0).flatMap (fun w => toBytes 4 w.toNat)

/-- HMAC-SHA-256 with a key of at most 64 bytes. -/
def hmac256 (key msg : List Byte) : List Byte :=
  let k := key ++ List.replicate (64 - key.length) 0
  sha256 (k.map (· ^^^ 0x5C) ++ sha256 (k.map (· ^^^ 0x36) ++ msg))

/-- HKDF-SHA-256 for up to 64 bytes, with a salt of at most 64 (R372). -/
def hkdf256 (salt ikm info : List Byte) (n : Nat) : List Byte :=
  let prk := hmac256 salt ikm
  let t1 := hmac256 prk (info ++ [1])
  (t1 ++ hmac256 prk (t1 ++ info ++ [2])).take n

/-! ## AES-256 -/

/-- Multiplication by x in the field of AES. -/
def xtime (a : Byte) : Byte := (a <<< 1) ^^^ (if a.msb then 0x1B else 0)

/-- Multiplication in the field of AES. -/
def gmul (a b : Byte) : Byte :=
  ((List.range 8).foldl (fun (st : Byte × Byte) i =>
    (if b.getLsbD i then st.1 ^^^ st.2 else st.1, xtime st.2)) (0, a)).1

/-- The inverse, 0 for 0: the 254th power. -/
def ginv (a : Byte) : Byte :=
  let a2 := gmul a a
  let a4 := gmul a2 a2
  let a8 := gmul a4 a4
  let a16 := gmul a8 a8
  let a32 := gmul a16 a16
  let a64 := gmul a32 a32
  gmul (gmul (gmul (gmul (gmul (gmul a2 a4) a8) a16) a32) a64) (gmul a64 a64)

/-- The byte substitution. -/
def sbox (a : Byte) : Byte :=
  let i := ginv a
  i ^^^ i.rotateLeft 1 ^^^ i.rotateLeft 2 ^^^ i.rotateLeft 3 ^^^ i.rotateLeft 4 ^^^ 0x63

/-- Two lists of bytes added. -/
def xorB (a b : List Byte) : List Byte := List.zipWith (· ^^^ ·) a b

/-- The key schedule: 60 words of 4 bytes, newest first. -/
def keyWords (key : List Byte) : List (List Byte) :=
  ((List.range 52).foldl (fun (st : List (List Byte) × Byte) j =>
    let i := j + 8
    let prev := st.1.headD []
    let back := st.1.getD 7 []
    if i % 8 = 0 then
      let t := (prev.drop 1 ++ prev.take 1).map sbox
      (xorB back (xorB t [st.2, 0, 0, 0]) :: st.1, xtime st.2)
    else if i % 8 = 4 then (xorB back (prev.map sbox) :: st.1, st.2)
    else (xorB back prev :: st.1, st.2)) ((pieces 4 8 key).reverse, 1)).1

/-- The rows shifted; the 16 bytes stand column by column. -/
def shiftRows (b : List Byte) : List Byte :=
  (List.range 16).map (fun i => b.getD ((i + 4 * (i % 4)) % 16) 0)

/-- One column mixed. -/
def mixCol (c : List Byte) : List Byte :=
  (List.range 4).map (fun i =>
    gmul (c.getD i 0) 2 ^^^ gmul (c.getD ((i + 1) % 4) 0) 3 ^^^ c.getD ((i + 2) % 4) 0 ^^^ c.getD ((i + 3) % 4) 0)

/-- One block of 16 bytes enciphered. -/
def aesBlock (key blk : List Byte) : List Byte :=
  let rk := (pieces 4 15 (keyWords key).reverse).map List.flatten
  let s0 := xorB blk (rk.getD 0 [])
  let s := (List.range 13).foldl (fun s r =>
    xorB (((pieces 4 4 (shiftRows (s.map sbox))).map mixCol).flatten) (rk.getD (r + 1) [])) s0
  xorB (shiftRows (s.map sbox)) (rk.getD 14 [])

/-! ## GCM -/

/-- Multiplication of two blocks as numbers of 128 bits, the first bit most significant. -/
def ghMul (x y : BitVec 128) : BitVec 128 :=
  ((List.range 128).foldl (fun (st : BitVec 128 × BitVec 128) i =>
    (if x.getMsbD i then st.1 ^^^ st.2 else st.1,
     (st.2 >>> 1) ^^^ (if st.2.getLsbD 0 then 0xE1#128 <<< 120 else 0))) (0, y)).1

/-- The hash of the further data `ad` and of the enciphered bytes. -/
def ghash (h : BitVec 128) (ad ct : List Byte) : BitVec 128 :=
  let step (a : BitVec 128) (blk : List Byte) : BitVec 128 :=
    ghMul (a ^^^ BitVec.ofNat 128 (ofBytes (blk ++ List.replicate (16 - blk.length) 0))) h
  let a := (pieces 16 (ad.length / 16 + 1) ad).foldl step 0
  ghMul ((pieces 16 (ct.length / 16 + 1) ct).foldl step a ^^^ BitVec.ofNat 128 (8 * ad.length * 2 ^ 64 + 8 * ct.length)) h

/-- The key stream applied to the data, counting from 2. -/
def gcmCrypt (key iv bs : List Byte) : List Byte :=
  ((pieces 16 (bs.length / 16 + 1) bs).zipIdx).flatMap (fun x => xorB x.1 (aesBlock key (iv ++ toBytes 4 (x.2 + 2))))

/-- The tag of 16 bytes. -/
def gcmTag (key iv ad ct : List Byte) : List Byte :=
  let h := BitVec.ofNat 128 (ofBytes (aesBlock key (List.replicate 16 0)))
  xorB (toBytes 16 (ghash h ad ct).toNat) (aesBlock key (iv ++ toBytes 4 1))

/-- SEAL: the IV, the enciphered bytes and the tag (R353). -/
def gcmSeal (key iv pt : List Byte) : List Byte :=
  let ct := gcmCrypt key iv pt
  iv ++ ct ++ gcmTag key iv [] ct

/-- OPEN of what SEAL gives; `none` where the tag fails (R353). -/
def gcmOpen (key blob : List Byte) : Option (List Byte) :=
  let iv := blob.take 12
  let ct := (blob.drop 12).take (blob.length - 28)
  if gcmTag key iv [] ct = blob.drop (blob.length - 16) then some (gcmCrypt key iv ct) else none

/-! ## ECDSA over P-256 -/

/-- The prime of the field, the order of the group, the constant of the curve and its generator. -/
def p256 : Nat := 0xffffffff00000001000000000000000000000000ffffffffffffffffffffffff
def n256 : Nat := 0xffffffff00000000ffffffffffffffffbce6faada7179e84f3b9cac2fc632551
def b256 : Nat := 0x5ac635d8aa3a93e7b3ebbd55769886bc651d06b0cc53b0f63bce3c3e27d2604b
def gx256 : Nat := 0x6b17d1f2e12c4247f8bce6e563a440f277037d812deb33a0f4a13945d898c296
def gy256 : Nat := 0x4fe342e2fe1a7f9b8ee7eb4a7c0f9e162bce33576b315ececbb6406837bf51f5

/-- `a ^ e` modulo `m`, for exponents of 256 bits. -/
def powMod (m a e : Nat) : Nat :=
  ((List.range 256).foldl (fun (st : Nat × Nat) i =>
    (if e / 2 ^ i % 2 = 1 then st.1 * st.2 % m else st.1, st.2 * st.2 % m)) (1, a % m)).1

/-- The inverse modulo a prime. -/
def invMod (m a : Nat) : Nat := powMod m a (m - 2)

/-- The sum of two points of the curve; `none` is the neutral point. -/
def ptAdd (a b : Option (Nat × Nat)) : Option (Nat × Nat) :=
  match a, b with
  | none, q => q
  | q, none => q
  | some (x1, y1), some (x2, y2) =>
    if x1 = x2 ∧ (y1 + y2) % p256 = 0 then none
    else
      let l := if x1 = x2 then (3 * x1 * x1 + (p256 - 3)) * invMod p256 (2 * y1) % p256
        else (y2 + p256 - y1) * invMod p256 (x2 + p256 - x1) % p256
      let x3 := (l * l + 2 * p256 - x1 - x2) % p256
      some (x3, (l * (x1 + p256 - x3) + p256 - y1) % p256)

/-- A multiple of a point. -/
def ptMul (k : Nat) (q : Option (Nat × Nat)) : Option (Nat × Nat) :=
  ((List.range 256).foldl (fun (st : Option (Nat × Nat) × Option (Nat × Nat)) i =>
    (if k / 2 ^ i % 2 = 1 then ptAdd st.1 st.2 else st.1, ptAdd st.2 st.2)) (none, q)).1

/-- The public key X ‖ Y of a private scalar. -/
def pubOf (d : Nat) : List Byte :=
  match ptMul d (some (gx256, gy256)) with
  | some (x, y) => toBytes 32 x ++ toBytes 32 y
  | none => List.replicate 64 0

/-- The signature r ‖ s of a digest with the private scalar `d` and the secret number `k`. -/
def ecdsaSign (d k : Nat) (digest : List Byte) : List Byte :=
  let r := ofBytes ((pubOf k).take 32) % n256
  toBytes 32 r ++ toBytes 32 (invMod n256 k * (ofBytes digest + r * d) % n256)

/-- The shared secret of ECDH: the X of the partner's point times the own scalar; none where the partner's key is no point. -/
def ecdh (d : Nat) (pub : List Byte) : Option (List Byte) :=
  let x := ofBytes (pub.take 32)
  let y := ofBytes ((pub.drop 32).take 32)
  if x < p256 ∧ y < p256 ∧ y * y % p256 = (x * x * x + (p256 - 3) * x + b256) % p256 then
    (ptMul d (some (x, y))).map (fun q => toBytes 32 q.1)
  else none

/-- Does the signature r ‖ s of 64 bytes stand for the digest under the public key X ‖ Y of 64 bytes? -/
def ecdsaVerify (pub digest sig : List Byte) : Bool :=
  let x := ofBytes (pub.take 32)
  let y := ofBytes ((pub.drop 32).take 32)
  let r := ofBytes (sig.take 32)
  let s := ofBytes ((sig.drop 32).take 32)
  let onCurve := decide (x < p256) && decide (y < p256) && decide (y * y % p256 = (x * x * x + (p256 - 3) * x + b256) % p256)
  if !onCurve || r = 0 || n256 ≤ r || s = 0 || n256 ≤ s then false
  else
    let w := invMod n256 s
    let u1 := ofBytes digest * w % n256
    let u2 := r * w % n256
    match ptAdd (ptMul u1 (some (gx256, gy256))) (ptMul u2 (some (x, y))) with
    | none => false
    | some (x1, _) => decide (x1 % n256 = r)

end Sys2Proof.Crypto

namespace Sys2Proof.Machine

/-- A word as its three bytes, the first in bits 23:16 (R319, R349). -/
def wordBytes (w : Word) : List (BitVec 8) := [w.extractLsb' 16 8, w.extractLsb' 8 8, w.extractLsb' 0 8]

/-- The device's public key: X then Y (R349). -/
def devicePub : List (BitVec 8) := Crypto.pubOf Config.deviceScalar

/-- Bytes packed three to a word, the last word padded with 0 (R349, R368). -/
def packWords (bs : List (BitVec 8)) : List Word :=
  (Crypto.pieces 3 (bs.length / 3 + 1) bs).map (fun q => BitVec.ofNat 24 (Crypto.ofBytes (q ++ List.replicate (3 - q.length) 0)))

/-! ## The CRC of R134 -/

/-- One byte in the CRC of R134, least significant bit first. -/
def crcByte (c : BitVec 32) (v : Nat) : BitVec 32 :=
  forN 8 (fun _ c => if c.getLsbD 0 then (c >>> 1) ^^^ 0xEDB88320#32 else c >>> 1) (c ^^^ BitVec.ofNat 32 v)

/-- A pixel's red, green and blue in the CRC. -/
def crcPixel (c : BitVec 32) (w : Word) : BitVec 32 :=
  let n := w.toNat
  crcByte (crcByte (crcByte c (n / 65536)) (n / 256 % 256)) (n % 256)

/-- The 2-word check over header and payload (R368): the CRC of R134, three bytes of each word, the most significant first. -/
def crcCheck (ws : List Word) : List Word :=
  let c := (~~~ ws.foldl crcPixel 0xFFFFFFFF#32).toNat
  [wd (c / 2 ^ 24), wd c]

end Sys2Proof.Machine
end

