-- ==== Sys2Proof/Machine/Cert.lean ====
section
/-! DEFINITION. X.509 certificates in DER (R350, R351, R372): the parts of DER that they need, the parse, the device certificate. -/
namespace Sys2Proof.Machine

abbrev Bytes : Type := List (BitVec 8)

/-! ## DER -/

/-- The octets of a length up to 65,535. -/
def derLen (n : Nat) : Bytes :=
  if n < 128 then [BitVec.ofNat 8 n]
  else if n < 256 then [0x81, BitVec.ofNat 8 n]
  else [0x82, BitVec.ofNat 8 (n / 256), BitVec.ofNat 8 n]

/-- A value with its tag and length. -/
def der (tag : BitVec 8) (bs : Bytes) : Bytes := tag :: derLen bs.length ++ bs

/-- An unsigned integer, most significant octet first, in the fewest octets. -/
def derInt (bs : Bytes) : Bytes :=
  let v := bs.dropWhile (· == 0)
  der 0x02 (if (v.headD 0).msb || v.isEmpty then 0 :: v else v)

/-- A length and what follows it. -/
def derHead : Bytes → Option (Nat × Bytes)
  | [] => none
  | l :: r =>
    if l.toNat < 128 then some (l.toNat, r)
    else match l.toNat, r with
      | 0x81, a :: r => some (a.toNat, r)
      | 0x82, a :: b :: r => some (a.toNat * 256 + b.toNat, r)
      | _, _ => none

/-- The contents of a value of this tag, and what follows it. -/
def derTake (tag : BitVec 8) (bs : Bytes) : Option (Bytes × Bytes) :=
  match bs with
  | [] => none
  | t :: r =>
    match derHead r with
    | some (n, r) => if t = tag ∧ n ≤ r.length then some (r.take n, r.drop n) else none
    | none => none

/-- The contents of a value that is all of the text. -/
def derAll (tag : BitVec 8) (bs : Bytes) : Option Bytes :=
  match derTake tag bs with
  | some (c, []) => some c
  | _ => none

/-- What follows `n` sequences. -/
def derSkip : Nat → Bytes → Option Bytes
  | 0, bs => some bs
  | n + 1, bs => (derTake 0x30 bs).bind (fun x => derSkip n x.2)

/-! ## Certificates -/

/-- A certificate: its length, its serial number, its subject public key X ‖ Y, the bytes that are signed, its signature r ‖ s. -/
structure Cert where
  len : Nat
  serial : Nat
  key : Bytes
  tbs : Bytes
  sig : Bytes
  deriving DecidableEq, Repr

/-- An unsigned integer of at most 32 octets, as 32 octets. -/
def octets32 (bs : Bytes) : Option Bytes :=
  let v := bs.dropWhile (· == 0)
  if v.length ≤ 32 then some (List.replicate (32 - v.length) 0 ++ v) else none

/-- A signature of ECDSA: a sequence of r and s in a bit string. -/
def certSig (bits : Bytes) : Option Bytes := do
  let c ← derAll 0x30 (bits.drop 1)
  let (r, c) ← derTake 0x02 c
  let s ← derAll 0x02 c
  let r ← octets32 r
  let s ← octets32 s
  some (r ++ s)

/-- The X.509 v3 certificate at the start of a text (R351): version, serial number, algorithm, issuer, validity, subject, key. -/
def certParse (bs : Bytes) : Option Cert := do
  let (c, rest) ← derTake 0x30 bs
  let (tbs, c1) ← derTake 0x30 c
  let c2 ← derSkip 1 c1
  let bits ← derAll 0x03 c2
  let sig ← certSig bits
  let (ver, t) ← derTake 0xA0 tbs
  let (serial, t) ← derTake 0x02 t
  let t ← derSkip 4 t
  let (spki, _) ← derTake 0x30 t
  let k ← derSkip 1 spki
  let point ← derAll 0x03 k
  if ver = [0x02, 0x01, 0x02] ∧ point.length = 66 ∧ point.take 2 = [0x00, 0x04] then
    some { len := bs.length - rest.length, serial := Crypto.ofBytes serial, key := point.drop 2,
           tbs := c.take (c.length - c1.length), sig := sig }
  else none

/-- Is the certificate signed by the private key of this public key, with ECDSA and SHA-256 (R350, R351)? -/
def Cert.signedBy (c : Cert) (pub : Bytes) : Bool := Crypto.ecdsaVerify pub (Crypto.sha256 c.tbs) c.sig

/-! ## The device certificate -/

/-- Up to `n` octets of a field that the implementation fixes (log entry 145). -/
def certField (k n : Nat) : Bytes := (List.range (Nat.min n (Config.certFieldLen k).val)).map (Config.certField k)

/-- The algorithm: ECDSA with SHA-256. -/
def ecdsaSha256 : Bytes := der 0x30 (der 0x06 [0x2A, 0x86, 0x48, 0xCE, 0x3D, 0x04, 0x03, 0x02])

/-- The subject: its serialNumber is the SEC_DEVID value, in hexadecimal digits, followed by the per-die serial (R350). -/
def certSubject : Bytes :=
  der 0x30 (der 0x31 (der 0x30 (der 0x06 [0x55, 0x04, 0x05] ++ der 0x13 ([0x32, 0x31, 0x36, 0x30, 0x42, 0x30] ++ certField 3 32))))

/-- The subject public key: the device key, on P-256 (R350). -/
def certKey : Bytes :=
  der 0x30 (der 0x30 (der 0x06 [0x2A, 0x86, 0x48, 0xCE, 0x3D, 0x02, 0x01] ++
    der 0x06 [0x2A, 0x86, 0x48, 0xCE, 0x3D, 0x03, 0x01, 0x07]) ++ der 0x03 ([0x00, 0x04] ++ devicePub))

/-- What the authority signs (R350). -/
def deviceTbs : Bytes :=
  der 0x30 (der 0xA0 [0x02, 0x01, 0x02] ++ derInt (certField 0 20) ++ ecdsaSha256 ++ der 0x30 (certField 1 512) ++
    der 0x30 (certField 2 64) ++ certSubject ++ certKey ++ der 0xA3 (certField 4 512))

/-- The device certificate (R350). -/
def deviceCert : Bytes :=
  let sig := Crypto.ecdsaSign Config.authorityScalar (Config.signNonce 0) (Crypto.sha256 deviceTbs)
  der 0x30 (deviceTbs ++ ecdsaSha256 ++ der 0x03 (0 :: der 0x30 (derInt (sig.take 32) ++ derInt (sig.drop 32))))

/-- The certificate serial that the device names in a JOIN, bits 23:0 (R328, R379). -/
def deviceSerial : Word := wd (Crypto.ofBytes (certField 0 20))

end Sys2Proof.Machine
end

