-- ==== Sys2Proof/Machine/LinkFrames.lean ====
section
/-! DEFINITION. Frames handed to lanes (R368, R370, R373 to R375) and to the transports of Tyskaolo (R319). -/
namespace Sys2Proof.Machine

/-- Has the device joined a system (R379)? -/
def State.joined (s : State) : Bool := s.bitAt Reg.LNK_STAT 23

/-- The device's address. -/
def State.devAddr (s : State) : Nat := s.fld Reg.LNK_ADDR Fd.LNK_ADDR_ADDR

/-- Lane `n`. -/
def State.lane (s : State) (n : Nat) : LaneSt := Tab.get {} s.lnk.lanes n

/-- Change lane `n`. -/
def State.updLane (s : State) (n : Nat) (f : LaneSt → LaneSt) : State :=
  { s with lnk := { s.lnk with lanes := Tab.put {} s.lnk.lanes n (f (Tab.get {} s.lnk.lanes n)) } }

/-- Change the link. -/
def State.updLnk (s : State) (f : LnkSt → LnkSt) : State := { s with lnk := f s.lnk }

/-- LNK_Ln_STAT.NSTATE: 0 off, 1 training, 2 switching, 3 authenticating, 4 up, 5 Ethernet search. -/
def State.nState (s : State) (n : Nat) : Nat := s.fld (Reg.LNK_L_STAT n) Fd.LNK_L_STAT_NSTATE

/-- Is lane `n` up? -/
def State.laneIsUp (s : State) (n : Nat) : Bool := s.nState n == 4

/-- The next SEQ of frames of a TYPE (R368). -/
def State.nextSeq (s : State) (ty : Nat) : Nat := Tab.get 0 s.lnk.seq ty

/-! ## Frames on a lane -/

/-- The six words of a frame's header (R368). -/
def headerWords (ty : Nat) (f : LinkFrame) : List Word :=
  [wd (ty * 2 ^ 20 + b2n f.dir * 2 ^ 19 + f.hops.toNat * 2 ^ 11 + f.src.toNat),
   wd (f.dest.toNat * 2 ^ 13 + b2n f.bc * 2 ^ 12 + f.sid.toNat), f.seq, wd (f.keyid.toNat * 2 ^ 16 + f.payload.length),
   wd (f.ctr.toNat / 2 ^ 24), wd f.ctr.toNat]

/-- The initial vector of a frame: the salt of the key followed by CTR (R368). -/
def HopKey.iv (k : HopKey) (ctr : BitVec 48) : List (BitVec 8) := k.salt ++ Crypto.toBytes 6 ctr.toNat

/-- The payload with its check: clear with the CRC, or enciphered with the tag, the header being the authenticated data (R368). -/
def sealFrame (k : HopKey) (ty : Nat) (f : LinkFrame) : LinkFrame :=
  let h := headerWords ty f
  if f.keyid = 0 then { f with check := crcCheck (h ++ f.payload) }
  else
    let ct := Crypto.gcmCrypt k.key (k.iv f.ctr) (f.payload.flatMap wordBytes)
    { f with payload := packWords ct, check := packWords (Crypto.gcmTag k.key (k.iv f.ctr) (h.flatMap wordBytes) ct) }

/-- The payload of a frame received, where its check or its tag under the key of epoch `epoch` is right, and no error block ends it (R368,
R369). -/
def openFrame (k : HopKey) (epoch ty : Nat) (f : LinkFrame) : Option (List Word) :=
  let h := headerWords ty f
  if f.cut then none
  else if f.keyid = 0 then if f.check = crcCheck (h ++ f.payload) then some f.payload else none
  else
    let ct := f.payload.flatMap wordBytes
    if f.keyid.toNat = epoch ∧ f.check = packWords (Crypto.gcmTag k.key (k.iv f.ctr) (h.flatMap wordBytes) ct) then
      some (packWords (Crypto.gcmCrypt k.key (k.iv f.ctr) ct))
    else none

/-- A frame's words on the lane. -/
def LnkFrame.words (x : LnkFrame) : List Word := headerWords x.ty x.body ++ x.body.payload ++ x.body.check

/-- The data blocks of a frame: 8 words to every 3 blocks of 8 bytes, the most significant byte first, a final partial group padded with 0
(R368). -/
def LnkFrame.blocks (x : LnkFrame) : List (BitVec 64) :=
  let ws := x.words
  let bs := (ws ++ List.replicate ((8 - ws.length % 8) % 8) 0).flatMap wordBytes
  (Crypto.pieces 8 (bs.length / 8) bs).map (fun q => BitVec.ofNat 64 (Crypto.ofBytes q))

/-- The blocks of a frame of `n` words: a start block, the data blocks, a terminate block. -/
def blockCount (n : Nat) : Nat := 2 + 3 * ((n + 7) / 8)

/-- The line rate of lane `n` as a multiple of 156.25 MHz: 1.25 GBd until a rate is agreed (R361, R363). -/
def State.laneMult (s : State) (n : Nat) : Nat :=
  match s.fld (Reg.LNK_L_STAT n) Fd.LNK_L_STAT_RATE with
  | 2 => 33
  | 3 => 66
  | _ => 8

/-- The ticks of the timebase that a frame takes at a line rate: a block of 66 bits takes 105.6 ticks at 156.25 MBd. -/
def LnkFrame.ticks (mult : Nat) (x : LnkFrame) : Nat := (1056 * blockCount x.words.length + 10 * mult - 1) / (10 * mult)

/-- Frames that leave one after the other, from instant `t` on. -/
def leaveFrom (mult : Nat) : Nat → List LnkFrame → List LnkFrame
  | _, [] => []
  | t, x :: xs => { x with start := t } :: leaveFrom mult (t + x.ticks mult) xs

/-- The instant at which the last frame of a list has left. -/
def leftAt (mult : Nat) (xs : List LnkFrame) : Nat := (xs.getLast?.map (fun x => x.start + x.ticks mult)).getD 0

/-- A frame joins those that have not begun to leave: frames passing through stand ahead of own ones (R374). -/
def LaneSt.enqueue (l : LaneSt) (now mult : Nat) (x : LnkFrame) : LaneSt :=
  let gone := l.out.takeWhile (fun y => decide (y.start ≤ now))
  let wait := l.out.drop gone.length
  let q := wait.filter (fun y => !y.own) ++ (if x.own then wait.filter (·.own) ++ [x] else x :: wait.filter (·.own))
  { l with out := gone ++ leaveFrom mult (Nat.max now (leftAt mult gone)) q }

/-- Hand a frame to lane `n`, with the lane's counter as CTR and its key (R368). -/
def State.laneSend (s : State) (n ty : Nat) (f : LinkFrame) (own : Bool := true) : State :=
  let l := s.lane n
  let x : LnkFrame := { own := own, ty := ty, body := sealFrame l.tx ty { f with ctr := BitVec.ofNat 48 l.ctr } }
  (s.updLane n (fun l => { l.enqueue s.timebase.toNat (s.laneMult n) x with ctr := l.ctr + 1 })).perf 23 (if own then 0 else 2)

/-- A frame of this device (R368): its own address as SRC, its counter as SEQ unless `seq` names another. -/
def State.ownFrame (s : State) (n hops dest sid : Nat) (dir bc : Bool) (seq : Nat) (payload : List Word) : LinkFrame :=
  { dir := dir, hops := BitVec.ofNat 8 hops, src := BitVec.ofNat 11 s.devAddr, dest := BitVec.ofNat 11 dest, bc := bc,
    sid := BitVec.ofNat 12 sid, seq := wd seq, keyid := BitVec.ofNat 8 (s.lane n).keyid, payload := payload }

/-- Count the next SEQ of a TYPE. -/
def State.stepSeq (s : State) (ty : Nat) : State :=
  s.updLnk (fun k => { k with seq := Tab.put 0 k.seq ty ((Tab.get 0 k.seq ty + 1) % 2 ^ 24) })

/-- Send a frame of a TYPE without stream on lane `n`. -/
def State.sendOwn (s : State) (n ty hops dest : Nat) (dir bc : Bool) (payload : List Word) : State :=
  (s.laneSend n ty (s.ownFrame n hops dest 0 dir bc (s.nextSeq ty) payload)).stepSeq ty

/-! ## Rings -/

/-- The east and west lanes of ring `r`: 0 the worker ring, 1 the trunk ring; none while it is not in use (R373). -/
def State.ringLanes (s : State) (r : Nat) : Option (Nat × Nat) :=
  let f (x : Fld) : Nat := s.fld Reg.LNK_RINGCFG x
  if r = 0 then
    if s.bitAt Reg.LNK_RINGCFG 17 then some (f Fd.LNK_RINGCFG_EAST, f Fd.LNK_RINGCFG_WEST) else none
  else if s.bitAt Reg.LNK_RINGCFG 9 then some (f Fd.LNK_RINGCFG_TEAST, f Fd.LNK_RINGCFG_TWEST) else none

/-- The ring that lane `n` belongs to, whether it is the west lane, and the ring's other lane. -/
def State.ringOf (s : State) (n : Nat) : Option (Nat × Bool × Nat) :=
  (List.range 2).findSome? (fun r =>
    match s.ringLanes r with
    | some (e, w) => if e = n then some (r, false, w) else if w = n then some (r, true, e) else none
    | none => none)

/-- Does ring lane `n` carry frames: up, and its beats not missed (R373)? -/
def State.ringLaneUp (s : State) (n : Nat) : Bool := s.laneIsUp n && !(s.lane n).lost

/-! ## Tyskaolo frames -/

/-- Hand a frame to the operator host or the local host: each word as 3 bytes, the most significant first (R319). -/
def State.send (s : State) (t : Transport) (f : List Word) : State :=
  { s with tyk := { s.tyk with out := s.tyk.out ++ [(t, f.flatMap wordBytes)] } }

/-- Is the Steward in recovery (R356)? -/
def State.recovery (s : State) : Bool := s.bitAt Reg.SEC_STAT 20

/-- Is this device the manager: by its ROLE, or because it has taken over address 0 (R22, R378)? -/
def State.isManager (s : State) : Bool := s.fld Reg.LNK_CTRL Fd.LNK_CTRL_ROLE == 3 || s.bitAt Reg.LNK_ADDR 22

/-- Send a frame of a TYPE from address `src` to `dest` in both directions of each ring in use, under one SEQ (R375). -/
def State.sendAround (s : State) (ty src dest : Nat) (ws : List Word) : State :=
  let q := s.nextSeq ty
  (forN 2 (fun r s =>
    match s.ringLanes r with
    | none => s
    | some (e, w) =>
      let go (n : Nat) (west : Bool) (s : State) : State :=
        if s.ringLaneUp n then
          s.laneSend n ty { s.ownFrame n (Config.ringHops r).toNat dest 0 west false q ws with src := BitVec.ofNat 11 src }
        else s
      go w true (go e false s)) s).stepSeq ty

end Sys2Proof.Machine
end

