-- ==== Sys2Proof/Machine/LinkAuth.lean ====
section
/-! DEFINITION. Authentication and keys of the link (R372): the two messages, the chain, the keys, end-to-end traffic and what waits for
its keys. -/
namespace Sys2Proof.Machine

/-- The public key of the operator root (R351). -/
def State.rootKey (s : State) : Bytes :=
  match certParse (s.sec.root.flatMap wordBytes) with
  | some c => c.key
  | none => []

/-- The operator certificate that is enrolled, empty where none is (R351). -/
def State.operatorCert (s : State) : Bytes :=
  let bs := s.sec.cert.flatMap wordBytes
  match certParse bs with
  | some c => bs.take c.len
  | none => []

/-! ## An authentication -/

/-- A new authentication: an ephemeral key pair, a random value of 16 bytes, and the first message (R372 step 1). -/
def State.authNew (s : State) (e2e : Bool) : AuthSt × State :=
  let d := 1 + Config.ephemeral s.freeCtr % (Crypto.n256 - 1)
  let rnd := Crypto.toBytes 16 (Config.ephemeral (s.freeCtr + 1))
  ({ scalar := d, mine := Config.joinText (.hello e2e deviceCert s.operatorCert (Crypto.pubOf d) rnd) },
   { s with freeCtr := s.freeCtr + 2 })

/-- The device key that a partner's certificates prove (R372 step 2): signed by the Exohild device authority or, where OPSET is 1, by the
own operator root, and then of the operator certificate alone. -/
def State.provenKey (s : State) (cert opCert : Bytes) : Option Bytes :=
  let opset := s.bitAt Reg.SEC_STAT 21
  match certParse (if opset then opCert else cert) with
  | some c => if c.signedBy (if opset then s.rootKey else Crypto.pubOf Config.authorityScalar) then some c.key else none
  | none => none

/-- The digest of both messages (R372 step 3). -/
def AuthSt.digest (a : AuthSt) : Bytes :=
  let x := a.mine.flatMap wordBytes
  let y := a.theirs.flatMap wordBytes
  Crypto.sha256 (if Config.authFirst x y then x ++ y else y ++ x)

/-- The own signature of both messages with the device key (R372 step 3). -/
def State.authSign (s : State) (a : AuthSt) : Bytes × State :=
  (Crypto.ecdsaSign Config.deviceScalar (Config.signNonce s.freeCtr) a.digest, s.useFree)

/-- Does the partner's chain hold (R372 step 2)? -/
def State.chainOk (s : State) (a : AuthSt) : Bool :=
  match Config.joinRead a.theirs with
  | some (.hello _ c oc _ _) => (s.provenKey c oc).isSome
  | _ => false

/-- The keys of the own direction and of the partner's (R372 step 4): none where the chain or the signature fails. -/
def State.authKeys (s : State) (a : AuthSt) : Option (HopKey × HopKey) :=
  match Config.joinRead a.mine, Config.joinRead a.theirs with
  | some (.hello _ _ _ myPub myRnd), some (.hello _ c oc pub rnd) =>
    match s.provenKey c oc, Crypto.ecdh a.scalar pub with
    | some key, some z =>
      if Crypto.ecdsaVerify key a.digest a.proof then
        let salt := if Config.authFirst (a.mine.flatMap wordBytes) (a.theirs.flatMap wordBytes) then myRnd ++ rnd else rnd ++ myRnd
        let make (p : Bytes) : HopKey :=
          let t := Crypto.hkdf256 salt z (Config.hkdfInfo p) 38
          { key := t.take 32, salt := t.drop 32 }
        some (make myPub, make pub)
      else none
    | _, _ => none
  | _, _ => none

/-! ## End-to-end traffic -/

/-- The partner `peer` under the own address `me`. -/
def State.e2eOf (s : State) (me peer : Nat) : Option E2eSt := s.lnk.e2e.find? (fun e => e.me == me && e.peer == peer)

/-- Keep what is known of a partner; of more than 64, the one that came first leaves (R372; log entry 148). -/
def State.putE2e (s : State) (x : E2eSt) : State :=
  let is (e : E2eSt) : Bool := e.me == x.me && e.peer == x.peer
  let es := s.lnk.e2e
  let es := if es.any is then es.map (fun e => if is e then x else e) else (es ++ [x]).drop (es.length + 1 - 64)
  s.updLnk (fun k => { k with e2e := es })

/-- Send a JOIN frame of a join, between address 0 and address 0, on lane `n` (R379). -/
def State.joinSend (s : State) (n : Nat) (ws : List Word) : State :=
  let r := s.ringOf n
  s.sendOwn n 5 (Config.ringHops (r.elim 0 (·.1))).toNat 0 ((r.map (·.2.1)).getD false) false ws

/-- Send a JOIN frame to a partner: around the rings, or on the lane by which it joins. -/
def State.e2eSend (s : State) (x : E2eSt) (ws : List Word) : State :=
  match x.lane with
  | some n => s.joinSend n ws
  | none => s.sendAround 5 x.me x.peer ws

/-- Begin the authentication with a partner: the first message is sent. -/
def State.e2eBegin (s : State) (x : E2eSt) : State :=
  let (a, s) := s.authNew true
  let x := { x with auth := a }
  (s.putE2e x).e2eSend x a.mine

/-- A Tyskaolo frame sealed under the keys of a partner: the frame counter in two words, the enciphered words, the tag in six (R372;
log entry 149). -/
def E2eSt.sealed (x : E2eSt) (ws : List Word) : List Word :=
  let c := BitVec.ofNat 48 x.ctr
  let ct := Crypto.gcmCrypt x.tx.key (x.tx.iv c) (ws.flatMap wordBytes)
  [wd (c.toNat / 2 ^ 24), wd c.toNat] ++ packWords ct ++ packWords (Crypto.gcmTag x.tx.key (x.tx.iv c) [] ct)

/-- What such a payload holds, where its tag is right. -/
def E2eSt.unsealed (x : E2eSt) (ws : List Word) : Option (List Word) :=
  let n := ws.length - 8
  let c := BitVec.ofNat 48 ((ws.getD 0 0).toNat * 2 ^ 24 + (ws.getD 1 0).toNat)
  let ct := ((ws.drop 2).take n).flatMap wordBytes
  if 8 ≤ ws.length ∧ ws.drop (2 + n) = packWords (Crypto.gcmTag x.rx.key (x.rx.iv c) [] ct) then
    some (packWords (Crypto.gcmCrypt x.rx.key (x.rx.iv c) ct))
  else none

/-- Send a Tyskaolo frame sealed to a partner whose keys stand, as CTRL frames (R370, R375). -/
def State.ctrlSealed (s : State) (x : E2eSt) (ws : List Word) : State :=
  (s.putE2e { x with ctr := x.ctr + 1 }).sendAround 4 x.me x.peer (x.sealed ws)

/-- Send a Tyskaolo frame to device `dest`: sealed end to end, and after the authentication where the device has no keys for it yet
(R372). -/
def State.ctrlSend (s : State) (dest : Nat) (ws : List Word) : State :=
  match s.lnk.e2e.find? (fun e => e.peer == dest && e.lane.isNone) with
  | some x => if x.keyed then s.ctrlSealed x ws else s.putE2e { x with wait := x.wait ++ [ws] }
  | none => s.e2eBegin { me := s.devAddr, peer := dest, wait := [ws] }

/-- Send a frame to device `dest`, 0 naming the manager (R21). What the manager sends itself is for the operator host; to any
other device itself no transport leads. -/
def State.linkDeliver (s : State) (dest : Nat) (ws : List Word) : State :=
  if (dest ≠ 0 ∧ dest = s.devAddr) ∨ (dest = 0 ∧ s.bitAt Reg.LNK_ADDR 22) then (if s.isManager then s.send .host ws else s)
  else s.ctrlSend dest ws

/-- The keys of a partner stand: what waited for them is sent. -/
def State.e2eKeyed (s : State) (x : E2eSt) (k : HopKey × HopKey) : State :=
  let x := { x with auth := {}, keyed := true, tx := k.1, rx := k.2, ctr := 0 }
  let s := s.putE2e { x with wait := [] }
  x.wait.foldl (fun s ws => match s.e2eOf x.me x.peer with
    | some y => s.ctrlSealed y ws
    | none => s) s

end Sys2Proof.Machine
end

