-- ==== Sys2Proof/Machine/Reports.lean ====
section
/-! DEFINITION. Reports of the Steward to the control holders (R18, R316, R320, R326, R328): the holder of a plot, the frame,
the queue of each plot. -/
namespace Sys2Proof.Machine

/-- Number of slots of mailbox `m` (R316). -/
def State.mbSize (s : State) (m : Nat) : Nat := 2 ^ Nat.min 4 (s.fld (Reg.STW_MB_CFG m) Fd.STW_MB_CFG_SIZE)

/-- First word address of slot `i` of mailbox `m` (R316). -/
def State.mbSlot (s : State) (m i : Nat) : Nat :=
  1024 * s.fld (Reg.STW_MB_CFG m) Fd.STW_MB_CFG_BASE + 1024 * (i % s.mbSize m)

/-- Store words at consecutive field memory words, as requester `r`. -/
def State.putWords (s : State) (r a : Nat) (ws : List Word) : State :=
  (ws.zipIdx).foldl (fun s x => if s.memReady ∧ a + x.2 < fieldWords then s.cohStore r (a + x.2) x.1 else s) s

/-- The Steward puts a frame into inbound mailbox `p` (R316); `none` where the mailbox is off or full. -/
def State.mbPut (s : State) (p : Nat) (ws : List Word) : Option State :=
  if s.bitAt (Reg.STW_MB_CFG p) 23 && decide (s.mbCount p < s.mbSize p) then
    let t := s.fld (Reg.STW_MB_TAIL p) Fd.STW_MB_TAIL_INDEX
    some (((s.putWords 16 (s.mbSlot p t) ws).setReg (Reg.STW_MB_TAIL p) (wd ((t + 1) % 32))).perf 16 3)
  else none

/-- The holder of plot `p` while the device has joined a system: 0 local agent, 1 manager, 2 standby manager, 3 segment
head, and its address. Until a delegation it is the manager (log entry 14). -/
def State.holderOf (s : State) (p : Nat) : Nat × Nat := Tab.get (1, 0) s.tyk.holder p

/-- A frame of R320. -/
def mkFrame (code kind plot dev srckind src seq : Nat) (payload : List Word) : List Word :=
  [wd (0x320000 + payload.length), wd (code * 65536 + kind * 16384 + plot * 2048 + dev % 2048),
   wd (srckind * 2 ^ 22 + src % 2048), wd seq] ++ payload

/-- Send a report of plot `p` to the plot's present holder: the local host before a join, else the mailbox of a local agent
or the link (R18, R319, R326). A mailbox without room leaves it to the next resend. -/
def State.sendReport (s : State) (p : Nat) (r : Report) : State :=
  if !s.joined then s.send .spi (mkFrame r.code 2 p s.devAddr 2 0 r.seq r.words)
  else
    let (k, a) := s.holderOf p
    let f := mkFrame r.code 2 p s.devAddr 0 a r.seq r.words
    if k = 0 then (s.mbPut p f).getD s else s.linkDeliver (if k = 1 then 0 else a) f

/-- Set the queue of reports of plot `p`. -/
def State.setReports (s : State) (p : Nat) (rs : List Report) : State :=
  { s with tyk := { s.tyk with reports := Tab.put [] s.tyk.reports p rs } }

/-- The LOST field of a SAFETY report's word 0 increases and sticks at 15 (R326); the other reports have no such field. -/
def bumpLost (r : Report) : Report :=
  match (if r.code = 0x48 then r.words else []) with
  | [] => r
  | w :: ws => { r with words := (if getF w ⟨19, 16⟩ < 15 then putF w ⟨19, 16⟩ (getF w ⟨19, 16⟩ + 1) else w) :: ws }

/-- A report for the holder of plot `p`: queued and sent, or counted as lost in the last one of a full queue (R326). -/
def State.report (s : State) (p code : Nat) (ws : List Word) : State :=
  let rs := Tab.get [] s.tyk.reports p
  if 32 ≤ rs.length then s.setReports p (rs.dropLast ++ (rs.getLast?.map bumpLost).toList)
  else
    let n := Tab.get 0 s.tyk.rseq p
    let r : Report := ⟨code, n, ws⟩
    let s := s.setReports p (rs ++ [r])
    { s with tyk := { s.tyk with rseq := Tab.put 0 s.tyk.rseq p ((n + 1) % 2 ^ 24) } }.sendReport p r

/-- The three date words of R328. -/
def State.dateWords (s : State) : List Word := [wd (s.timebase.toNat / 2 ^ 48), s.tbWord 24, s.tbWord 0]

/-- A SAFETY report to the holder of plot `p` (R137, R232, R328). -/
def State.safety (s : State) (p cause detail frame : Nat) : State :=
  s.report p 0x48 ([wd (cause * 2 ^ 20 + detail % 65536)] ++ s.dateWords ++ [wd (frame % 65536)])

/-- A LINK_REPORT to the holder of plot 0 (R328). -/
def State.linkReport (s : State) (event lane : Nat) : State :=
  s.report 0 0x72 ([wd (event * 2 ^ 20 + lane)] ++ s.dateWords)

/-- A DIR_REPORT to the holder of plot 0 (R328). -/
def State.dirReport (s : State) (event addr : Nat) (devid : Word) : State :=
  s.report 0 0x04 [wd (event * 2 ^ 21 + addr % 2048), devid]

end Sys2Proof.Machine
end

