-- ==== Sys2Proof/Machine/Fabric.lean ====
section
/-! DEFINITION. The fabric and field memory control (R27 to R61): the pace and refresh figures, bank sleep, credits, hardware
semaphores, the fabric part of a fence, handshake timeouts, snoops and writebacks. -/
namespace Sys2Proof.Machine

/-! ## Figures -/

/-- Every error of the FAB block counts in FAB_ERRCNT (R59). -/
def State.fabErr (s : State) : State := s.err 18 0

/-- At the end of each 1 µs window FAB_PACE takes the count (R27). -/
def execPaceWindow (cycles : BitVec 16) (s : State) : Out :=
  .next (s.setFld Reg.FAB_PACE Fd.FAB_PACE_CYCLES cycles.toNat)

/-- A quadrant refreshes; requests wait at most one cycle (R39), which is time only, and the counter of refresh cycles
advances (R464). -/
def execRefreshCycle (_q : Fin 4) (s : State) : Out := .next (s.perf 17 7)

/-- A quadrant's sensor above 95 °C puts it at the 32 ms rate, at or below 92 °C back; a change of HOTREF sets
FAB_EVT.HOTREF (R39). -/
def execRefreshRateChange (q : Fin 4) (temp : Int) (s : State) : Out :=
  let on : BitVec 4 := 1#4 <<< q.val
  let hot := if 95 < temp then s.fab.hot ||| on else if temp ≤ 92 then s.fab.hot &&& ~~~ on else s.fab.hot
  let was := s.bitAt Reg.FAB_STAT 4
  let now := decide (hot ≠ 0)
  let s := { s with fab := { s.fab with hot := hot } }
  .next (if was = now then s else (s.putBit Reg.FAB_STAT 4 now).setBit Reg.FAB_EVT 3)

/-- Setting FMEN locks ILV and starts the clearing of every row, with INIT at 1 (R37). -/
def State.setFmen (s : State) : State :=
  if s.bitAt Reg.FAB_CTRL 0 then s else (s.setBit Reg.FAB_CTRL 0).setBit Reg.FAB_STAT 1

def execFmenSet (req : Req) (s : State) : Out := .next (s.regCmd req.val Reg.FAB_CTRL State.setFmen)

/-- Initialisation ends: every row is 0x00_0000 and READY is 1 (R37). -/
def execFieldMemoryInitDone (s : State) : Out :=
  .next (if s.bitAt Reg.FAB_STAT 1 then
    { (s.clrBit Reg.FAB_STAT 1).setBit Reg.FAB_STAT 0 with mem := [] } else s)

/-! ## Tags in use -/

/-- The accesses that processor `c` has under way, each of which holds a tag (R40): the one that its instruction waits for and the
stores that have left its buffer. -/
def State.procTags (s : State) (c : Nat) : Nat := (s.proc c).drains.length + b2n (s.proc c).wait.isSome

/-- The tags that requester `n` holds (R40). -/
def State.tagsOf (s : State) (n : Nat) : Nat :=
  s.fab.inflight.countP (fun t => t.req == n) + (if n ≤ 16 then s.procTags n else 0)

/-- The transactions of plot `p` in flight (R56). -/
def State.tagsOfPlot (s : State) (p : Nat) : Nat :=
  s.fab.inflight.countP (fun t => t.plot == p) +
    (List.range 17).foldl (fun n c => if s.reqPlot c = p then n + s.procTags c else n) 0

/-- The tags in use. -/
def State.tagsInUse (s : State) : Nat :=
  s.fab.inflight.length + (List.range 17).foldl (fun n c => n + s.procTags c) 0

/-- PEAK is the highest INUSE since the last clear (R60). -/
def State.notePeak (s : State) (n : Nat) : State :=
  if s.fld Reg.FAB_TAGPEAK Fd.FAB_TAGPEAK_PEAK < n then s.setReg Reg.FAB_TAGPEAK (wd n) else s

/-- Every requester 0 to 25 holds tags that FAB_CUSE shows; plots show theirs in FAB_PLOTOUT; FAB_TAGUSE and its peak (R60). -/
def State.countTags (s : State) : State :=
  let t := forN 26 (fun n t => t.setReg (Reg.FAB_CUSE n) (wd (s.tagsOf n))) s
  let t := forN 8 (fun p t => t.setReg (Reg.FAB_PLOTOUT p) (wd (s.tagsOfPlot p))) t
  (t.setReg Reg.FAB_TAGUSE (wd s.tagsInUse)).notePeak s.tagsInUse

/-- The first of the numbers from `t` upward that `used` does not hold, at most `fuel` of them tried. -/
def firstFree (used : List Nat) (t : Nat) : (fuel : Nat) → Nat
  | 0 => t
  | fuel + 1 => if used.contains t then firstFree used (t + 1) fuel else t

/-- Tags that requester `n` holds; those of the Steward control reserve, 0 to 255, left aside. -/
def State.tagsHeld (s : State) (n : Nat) : Nat :=
  s.fab.inflight.countP (fun t => t.req == n && decide (256 ≤ t.tag)) + (if n < 16 then s.procTags n else 0)

/-- Guaranteed tags of requester `n` (R41). -/
def State.tagsGuar (s : State) (n : Nat) : Nat := 4 * s.fld (Reg.FAB_CRD n) Fd.FAB_CRD_GUAR

/-- Tags of the shared pool that are in use: what each requester holds above its guarantee (R41, R42). -/
def State.sharedUsed (s : State) : Nat := (List.range 26).foldl (fun a n => a + (s.tagsHeld n - s.tagsGuar n)) 0

/-- Size of the shared pool: 16,384 tags less 256 and less every guarantee (R41). -/
def State.sharedSize (s : State) : Nat := 16128 - (List.range 26).foldl (fun a n => a + s.tagsGuar n) 0

/-- The tag that requester `r` draws for a request of class `c`, or that it waits for a shared tag (R41). Which free tag of
a pool it is, the spec leaves open: the lowest (log entry 26). -/
def State.drawTag (s : State) (r : Nat) (c : ReqClass) : Option Nat :=
  let used := s.fab.inflight.map (·.tag)
  let low := firstFree used 0 256
  let h := s.tagsHeld r
  if c = .steward ∧ low < 256 then some low
  else if h < s.tagsGuar r ∨ (h < 4 * s.fld (Reg.FAB_CRD r) Fd.FAB_CRD_LIMIT ∧ s.sharedUsed < s.sharedSize) then
    let t := firstFree used 256 (used.length + 1)
    if t < 16384 then some t else none
  else none

/-- A transaction that one command carries out whole takes its tag and gives it back (R40): PEAK may rise, and Glean counts it. -/
def State.passTag (s : State) : State := (s.notePeak (s.tagsInUse + 1)).perf 17 0

/-- CLR sets PEAK to the present INUSE (R60). -/
def State.clrPeak (s : State) : State := s.setReg Reg.FAB_TAGPEAK (s.reg Reg.FAB_TAGUSE)

def execTagpeakClr (req : Req) (s : State) : Out := .next (s.regCmd req.val Reg.FAB_TAGPEAK State.clrPeak)

/-- A write to FAB_CRD_n is dropped and sets CRDERR where the sum of all GUAR would exceed 4,032 or LIMIT fall below GUAR
(R42). -/
def State.writeCrd (s : State) (n : Nat) (v : Word) : State :=
  let g := getF v Fd.FAB_CRD_GUAR
  let others := ((List.range 26).filter (· != n)).foldl (fun a m => a + s.fld (Reg.FAB_CRD m) Fd.FAB_CRD_GUAR) 0
  if 4032 < others + g ∨ getF v Fd.FAB_CRD_LIMIT < g then s.fabErr.setBit Reg.FAB_EVT 4
  else s.setReg (Reg.FAB_CRD n) v

def execCreditWrite (req : Req) (n : Fin 26) (v : Word) (s : State) : Out :=
  .next (s.regCmd req.val (Reg.FAB_CRD n.val) (fun s => s.writeCrd n.val v))

/-! ## Tolerance and bank sleep -/

/-- The wake threshold in ns (R47). -/
def State.wakeThreshold (s : State) : Nat := 150 + 4 * s.fld Reg.FAB_SLPCFG Fd.FAB_SLPCFG_GUARD

/-- Every sleeping bank starts to wake (R48). -/
def State.wakeAll (s : State) : State := forN 32 (fun k s => s.startWake k) s

/-- FAB_TOL is the smallest declared tolerance; at or below the threshold TOLLOW is 1 and every sleeping bank wakes
(R47, R48). The voltage loop's window takes note of it (R78). -/
def State.settleTol (s : State) : State :=
  let d (a : Nat) : Nat := s.fld a Fd.FAB_TOLDECL_TOL
  let t := min (d (Reg.FAB_TOLDECL 0)) (min (d (Reg.FAB_TOLDECL 1)) (d (Reg.FAB_TOLDECL 2)))
  let s := s.setReg Reg.FAB_TOL (wd t)
  let s := { s with pwr := { s.pwr with winMin := min s.pwr.winMin t } }
  let low := decide (t ≤ s.wakeThreshold)
  let s := s.putBit Reg.FAB_STAT 3 low
  if low then s.wakeAll else s

/-- Beam `b` declares a tolerance in ns (R47). -/
def State.declare (s : State) (b : Nat) (t : Nat) : State :=
  (s.setReg (Reg.FAB_TOLDECL b) (wd (min t 0xFFFF))).settleTol

/-- The bank of a transaction; `none` outside field memory. -/
def State.txnBank (s : State) (a : Nat) : Option Nat := if a < fieldWords then some (s.bank a) else none

/-- The numbers of the ports on the path of an access to `a` besides its requester's (R34): its quadrant, or its window. -/
def State.pathPort (s : State) (a : Nat) : Option Nat :=
  match regionOf a with
  | .field a => some (32 + quadrantOf s.ilv (lineNo a))
  | .window w _ => some (36 + w)
  | _ => none

/-- Does an access of requester `r` to `a` pass port `port`? -/
def State.passesPort (s : State) (r a port : Nat) : Bool := r == port || s.pathPort a == some port

/-- A request to a sleeping bank, or the tolerance at the threshold, starts the wake; a beam fetch that waits on it sets
BEAMLATE (R48). -/
def execBankWakeStart (bank : Option (BitVec 5)) (beamWaits : Bool) (s : State) : Out :=
  let ks := match bank with
    | some k => [k.toNat]
    | none => List.range 32
  let any := ks.any s.sleeps
  let s := ks.foldl State.startWake s
  .next (if any && beamWaits then s.setBit Reg.FAB_EVT 2 else s)

/-- A waking bank is awake (R48). -/
def execBankWakeDone (bank : BitVec 5) (s : State) : Out :=
  let k := bank.toNat
  .next (if s.fab.waking.getLsbD k then s.wakeDone k else s)

/-! ## Snoops and writebacks -/

/-- The directory waits no longer for an answer of core `c` about line `ln`. -/
def State.dropSnoop (s : State) (c ln : Nat) : State :=
  { s with fab := { s.fab with snoops := s.fab.snoops.filter (fun x => !(x.core == c && x.line == ln)) } }

/-- Is the snoop the one that its directory has outstanding at the core? A directory sends one at a time to each core (R46). -/
def State.outstanding (s : State) (c ln : Nat) : Bool :=
  match s.fab.snoops.find? (fun x => x.core == c && quadrantOf s.ilv x.line == quadrantOf s.ilv ln) with
  | some x => x.line == ln
  | none => false

/-- Core `c` answers the snoop: it supplies a modified line, whose data goes back to the bank, and keeps it shared or loses
it; with no copy it answers GONE, which ends the snoop unless a writeback of the line is still on its way (R49, R51). -/
def State.answerSnoop (s : State) (c ln : Nat) : State :=
  match s.fab.snoops.find? (fun x => x.core == c && x.line == ln) with
  | none => s
  | some x =>
    let s := s.perf 17 5
    match s.cached c ln with
    | some l =>
      let s := if l.st = .modified then s.putLine ln l.words else s
      let s := s.updProc c (fun p =>
        if x.inval then { p with dcache := p.dcache.filter (fun l => l.line != ln) }
        else { p with dcache := p.dcache.map (fun l => if l.line = ln then { l with st := .shared } else l) })
      s.dropSnoop c ln
    | none => if s.fab.wbs.any (fun w => w.core == c && w.line == ln) then s else s.dropSnoop c ln

def execSnoop (c : Fin 16) (line : BitVec 21) (s : State) : Out :=
  .next (if s.outstanding c.val line.toNat then s.answerSnoop c.val line.toNat else s)

/-- A directory receives a writeback: the line reaches the bank and answers an outstanding snoop (R51). -/
def State.takeWriteback (s : State) (c ln : Nat) : State :=
  match s.fab.wbs.find? (fun w => w.core == c && w.line == ln) with
  | none => s
  | some w =>
    let s := s.putLine ln w.words
    let s := { s with fab := { s.fab with wbs := s.fab.wbs.erase w } }
    (s.dropSnoop c ln).perf 17 6

def execWriteback (c : Fin 16) (line : BitVec 21) (s : State) : Out := .next (s.takeWriteback c.val line.toNat)

/-! ## Semaphores -/

/-- The holder of semaphore `n`: the plot of the view and the requester (R52). -/
def State.semHolder (s : State) (n : Nat) : Option (Nat × Nat) := Tab.get none s.fab.semHold n

/-- Set the holder. -/
def State.setHolder (s : State) (n : Nat) (h : Option (Nat × Nat)) : State :=
  { s with fab := { s.fab with semHold := Tab.put none s.fab.semHold n h } }

/-- May plot `p` use semaphore `n` (R53)? -/
def State.semMay (s : State) (p n : Nat) : Bool := s.bitAt (Reg.FAB_SEMACL n) p

/-- The notification bit of plot `p` for semaphore `n` (R55). -/
def State.semNote (s : State) (p n : Nat) : State := s.setBit (Reg.FAB_SEMNOTE p (n / 24)) (n % 24)

/-- Every registered waiter is notified and WAITERS clears (R55); the tine is published where TEN is 1 (R53). -/
def State.semNotify (s : State) (n : Nat) : State :=
  let a := Reg.FAB_SEMACL n
  let s' := forN 8 (fun p t => if s.bitAt a (16 + p) then t.semNote p n else t) s
  let s' := s'.setFld a Fd.FAB_SEMACL_WAITERS 0
  s'.publishIf (s.bitAt a 14) (s.fld a Fd.FAB_SEMACL_TINE)

/-- What a read of the view of plot `p` returns and does (R52): GRANTED 0, BUSY 1 with the holder, BROKEN 2. -/
def State.semAcquire (s : State) (r p n : Nat) : State × Resp :=
  let brk := s.bitAt (Reg.FAB_SEMACL n) 15
  if r != 25 && !s.semMay p n then (s, ⟨0, [], .error⟩)
  else match s.semHolder n with
    | some (hp, hr) => (s, ⟨wd (hr * 65536 + hp * 256 + 1), [], .ok⟩)
    | none => (if r = 25 then s else s.setHolder n (some (p, r)), ⟨wd (if brk then 2 else 0), [], .ok⟩)

def execSemaphoreAcquire (req : Req) (p : Fin 8) (n : BitVec 8) (s : State) : Out :=
  let r := req.val
  let a := Reg.FAB_SEMV p.val n.toNat
  match s.gate r (s.reqPlot r) a false with
  | some e => .next ((s.refuse r (s.reqPlot r) a e).answer r ⟨0, [], .error⟩)
  | none => let (t, x) := s.semAcquire r p.val n.toNat; .next (t.answer r x)

/-- CLRBRK by the holder clears BRK; by anyone else it is dropped and counted (R53). -/
def State.semClrbrk (s : State) (r p n : Nat) : State :=
  if s.semHolder n = some (p, r) then s.clrBit (Reg.FAB_SEMACL n) 15 else s.fabErr

/-- REL by the holder frees the semaphore; by anyone else it is dropped and counted (R53). -/
def State.semRel (s : State) (r p n : Nat) : State :=
  if s.semHolder n = some (p, r) then (s.setHolder n none).semNotify n else s.fabErr

/-- WAIT registers the plot, or sets its note at once while the semaphore is free; a plot absent from PLOTS gets an error
response and is counted (R53, R55). -/
def State.semWait (s : State) (p n : Nat) : State × BusResp :=
  if !s.semMay p n then (s.fabErr, .error)
  else if (s.semHolder n).isNone then (s.semNote p n, .ok)
  else (s.setBit (Reg.FAB_SEMACL n) (16 + p), .ok)

/-- A write of a view: CLRBRK, then REL, then WAIT, each checked on its own (R53). -/
def State.semWrite (s : State) (r p n : Nat) (v : Word) : State × BusResp :=
  let s := if bit v 2 then s.semClrbrk r p n else s
  let s := if bit v 0 then s.semRel r p n else s
  if bit v 1 then s.semWait p n else (s, .ok)

def execSemaphoreClrbrk (req : Req) (p : Fin 8) (n : BitVec 8) (s : State) : Out :=
  .next (s.regCmd req.val (Reg.FAB_SEMV p.val n.toNat) (fun s => s.semClrbrk req.val p.val n.toNat))

def execSemaphoreRel (req : Req) (p : Fin 8) (n : BitVec 8) (s : State) : Out :=
  .next (s.regCmd req.val (Reg.FAB_SEMV p.val n.toNat) (fun s => s.semRel req.val p.val n.toNat))

def execSemaphoreWait (req : Req) (p : Fin 8) (n : BitVec 8) (s : State) : Out :=
  .next (s.regCmdR req.val (Reg.FAB_SEMV p.val n.toNat) (fun s => s.semWait p.val n.toNat))

/-- A write of FAB_SEMACL_n: PLOTS, TINE and TEN; a plot removed from PLOTS loses its WAITERS bit (R53). -/
def State.writeSemacl (s : State) (n : Nat) (v : Word) : State :=
  let a := Reg.FAB_SEMACL n
  let w := s.reg a
  let w := putF w ⟨14, 0⟩ (v.toNat % 2 ^ 15)
  s.setReg a (putF w Fd.FAB_SEMACL_WAITERS (getF w Fd.FAB_SEMACL_WAITERS &&& getF v Fd.FAB_SEMACL_PLOTS))

def execSemaclWrite (req : Req) (n : BitVec 8) (v : Word) (s : State) : Out :=
  .next (s.regCmd req.val (Reg.FAB_SEMACL n.toNat) (fun s => s.writeSemacl n.toNat v))

/-- Every semaphore whose holder satisfies `mine` becomes free and broken, its waiters are notified and its tine published
(R54, R303). -/
def State.semBreak (s : State) (mine : Nat × Nat → Bool) : State :=
  let held := s.fab.semHold.filterMap (fun e => match e.2 with
    | some h => if mine h then some e.1 else none
    | none => none)
  let s := if held.isEmpty then s else s.setBit Reg.FAB_EVT 5
  held.foldl (fun s n => ((s.setHolder n none).setBit (Reg.FAB_SEMACL n) 15).semNotify n) s

/-! ## The fabric part of a fence -/

/-- FENCING shows that a fence is in progress: a REQ bit without its DONE bit. -/
def State.settleFencing (s : State) : State :=
  s.putBit Reg.FAB_STAT 2 ((List.range 8).any (fun p => s.bitAt Reg.FAB_FENCE p && !s.bitAt Reg.FAB_FENCE (8 + p)))

/-- A request that waits for a tag when the fence of its plot starts is a new one: it is refused (R56). -/
def State.refuseWaiters (s : State) (p : Nat) : State :=
  let mine := s.fab.waiters.filter (fun t => t.plot == p)
  mine.foldl (fun s t => s.answer t.req ⟨0, [], .error⟩)
    { s with fab := { s.fab with waiters := s.fab.waiters.filter (fun t => t.plot != p) } }

/-- Setting REQ bit `p` starts a fence with the time then in FAB_FENCETO (R56). -/
def State.fenceStart (s : State) (p : Nat) : State :=
  if s.bitAt Reg.FAB_FENCE p then s
  else
    let t := max 1 (s.fld Reg.FAB_FENCETO Fd.FAB_FENCETO_TIME)
    let s := (s.setBit Reg.FAB_FENCE p).refuseWaiters p
    ({ s with fab := { s.fab with fenceTo := Tab.put 0 s.fab.fenceTo p t } }).settleFencing

/-- Which words of a poisoned write were carried out: bit `i` of a free value for word `i` (R56). DESIGN CHOICE: of a write to a
register window that the fence retires, none was (log entry 115). -/
def State.poisonWrite (s : State) (t : Txn) : State :=
  match t.op, t.result with
  | .write ws, none =>
    let w := Config.freeValue s.freeCtr
    let s := s.useFree
    (ws.zipIdx).foldl (fun s x =>
      if bit w x.2 ∧ t.addr + x.2 < fieldWords then s.cohStore t.req (t.addr + x.2) x.1 else s) s
  | _, _ => s

/-- The fence time is over: each remaining transaction of plot `p` is retired with a poisoned response and its tag is free
(R56). -/
def State.fenceExpire (s : State) (p : Nat) : State :=
  if s.bitAt Reg.FAB_FENCE p && !s.bitAt Reg.FAB_FENCE (8 + p) then
    let mine := s.fab.inflight.filter (fun t => t.plot == p)
    let s := mine.foldl (fun s t => (s.poisonWrite t).answer t.req ⟨0, [], .poisoned⟩) s
    ({ s with fab := { s.fab with inflight := s.fab.inflight.filter (fun t => t.plot != p) } }).countTags
  else s

/-- FAB_PLOTOUT is 0: DONE and FENCEDONE are set, plot `p` leaves every WAITERS, and its semaphores break (R54, R56). -/
def State.fenceFinish (s : State) (p : Nat) : State :=
  if s.bitAt Reg.FAB_FENCE p && !s.bitAt Reg.FAB_FENCE (8 + p) && decide (s.reg (Reg.FAB_PLOTOUT p) = 0) then
    let s := forN 256 (fun n s => if s.bitAt (Reg.FAB_SEMACL n) (16 + p) then s.clrBit (Reg.FAB_SEMACL n) (16 + p) else s) s
    let s := s.semBreak (fun h => h.1 == p)
    ((s.setBit Reg.FAB_FENCE (8 + p)).setBit Reg.FAB_EVT 6).settleFencing
  else s

def execFenceDone (p : Fin 8) (s : State) : Out := .next (s.fenceFinish p.val)

/-- REL lifts the refusal and clears DONE and REQ where DONE is 1; else it is dropped and counted (R57). -/
def State.fenceLift (s : State) (p : Nat) : State :=
  if s.bitAt Reg.FAB_FENCE (8 + p) then ((s.clrBit Reg.FAB_FENCE p).clrBit Reg.FAB_FENCE (8 + p)).settleFencing
  else s.fabErr

def execFenceRel (req : Req) (p : Fin 8) (s : State) : Out :=
  .next (s.regCmd req.val Reg.FAB_FENCE (fun s => s.fenceLift p.val))

/-! ## Handshakes -/

/-- A port without an acknowledge: the timeout is counted with its port, HSTO is set, and the requester has an error response
(R33, R59). -/
def State.countTimeout (s : State) (port r : Nat) : State :=
  let s := (s.bump Reg.FAB_HSTO).setFld Reg.FAB_HSTO Fd.FAB_HSTO_LASTPORT port
  ((s.fabErr.setBit Reg.FAB_EVT 0).perf 17 2).answer r ⟨0, [], .error⟩

/-- The port drops the oldest transaction of requester `r` that passes it (R33). -/
def State.dropAtPort (s : State) (port r : Nat) : State :=
  match s.fab.inflight.find? (fun t => t.req == r && s.passesPort r t.addr port) with
  | none => s
  | some t => ({ s with fab := { s.fab with inflight := s.fab.inflight.erase t } }).countTags

/-- An acknowledge after the timeout is absorbed and counted again in FAB_HSTO.COUNT (R33). -/
def execLateAcknowledge (_port : BitVec 6) (s : State) : Out := .next (s.bump Reg.FAB_HSTO)

/-- A write of FAB_CTRL: SLPEN, whose clearing wakes every bank, and FMEN (R37, R48). -/
def State.writeFabCtrl (s : State) (v : Word) : State :=
  let s := s.putBit Reg.FAB_CTRL 1 (bit v 1)
  let s := if bit v 1 then s else s.wakeAll
  if bit v 0 then s.setFmen else s

end Sys2Proof.Machine
end

