-- ==== Sys2Proof/Machine/Tolerance.lean ====
section
/-! DEFINITION. The tolerances that the beams and the audio engine declare (R77, R208), with the frame grid they rest on (R64, R65,
R67, R71) and the instant of an audio index (R176). -/
namespace Sys2Proof.Machine

/-! ## The timing set and the frame grid -/

/-- BMx_TCTRL.STATE (R71): 0 OFF, 1 ACQUIRE, 2 LOCKED, 3 HOLD, 4 RELOCK. -/
def State.genState (s : State) (b : Nat) : Nat := s.fld (Reg.BM_TCTRL b) Fd.BM_TCTRL_STATE

/-- The registers of the timing set besides TCTRL.SRC, in the order of a set (R64). -/
def timingRegs (b : Nat) : List Nat :=
  [Reg.BM_HACT b, Reg.BM_HTOTAL b, Reg.BM_HSYNC b, Reg.BM_VACT b, Reg.BM_VTOTAL b, Reg.BM_VSYNC b, Reg.BM_FRNUM b,
   Reg.BM_FRDEN b, Reg.BM_PHASE b]

/-- The timing set in effect. -/
def State.timingSet (s : State) (b : Nat) : List Word :=
  (timingRegs b).map s.inEff ++ [wd (s.effFld (Reg.BM_TCTRL b) Fd.BM_TCTRL_SRC)]

/-- Element `i` of a timing set as a number. -/
def setN (ws : List Word) (i : Nat) : Nat := (ws.getD i 0).toNat

/-- Pixels of the frame Headland of a timing set (R63). -/
def headlandPixels (ws : List Word) : Nat := (setN ws 1 - setN ws 0) + (setN ws 4 - setN ws 3) * setN ws 1

/-- SRC in effect is 1, external genlock (R65). -/
def State.extLock (s : State) (b : Nat) : Bool := s.effFld (Reg.BM_TCTRL b) Fd.BM_TCTRL_SRC == 1

/-- The frame period of a set in ticks is `250,000,000 × FRDEN / FRNUM` (R65): numerator and denominator. -/
def periodOf (ws : List Word) : Nat × Nat := (250000000 * setN ws 7, Nat.max 1 (setN ws 6))

/-- The period at which the grid of beam `b` runs: in SRC 1 the last one measured (R67; that it is so between two edges of a LOCKED
generator too is DEDUCED, log entry 125), else that of the set in effect. -/
def State.gridPeriod (s : State) (b : Nat) : Nat × Nat :=
  let p := (s.reg (Reg.BM_GLKPER b)).toNat
  if s.extLock b ∧ p ≠ 0 then (p, 1) else periodOf (s.timingSet b)

/-- Pixel periods of a frame of the set in effect. -/
def State.framePixels (s : State) (b : Nat) : Nat := (s.inEff (Reg.BM_HTOTAL b)).toNat * (s.inEff (Reg.BM_VTOTAL b)).toNat

/-- Ticks that `px` pixel periods of beam `b` take, rounded down. -/
def State.pixelTicks (s : State) (b px : Nat) : Nat :=
  let (n, d) := s.gridPeriod b
  px * n / Nat.max 1 (d * s.framePixels b)

/-- The instant of the next frame start, in ticks. -/
def State.nextAt (s : State) (b : Nat) : Option Nat := (s.beam b).gen.chosen.map (·.1)

/-- The instant `px` pixel periods before the next frame start, in ticks. -/
def State.beforeStart (s : State) (b px : Nat) : Nat :=
  let (n, d) := s.gridPeriod b
  let q := Nat.max 1 (d * s.framePixels b)
  (s.nextAt b).getD 0 - (px * n + q - 1) / q

/-- The instant of pixel period `px` of the present frame, in ticks; while an acquire or a re-lock goes on, of the frame before the
chosen start. -/
def State.pixelAt (s : State) (b px : Nat) : Nat :=
  if (s.beam b).gen.acq = .none then (s.beam b).gen.startAt + s.pixelTicks b px
  else s.beforeStart b (s.framePixels b - px)

/-! ## Declared tolerances -/

/-- The instant at which the island will take the first active pixel that is not yet in the store (R77): `none` while no frame start
is chosen. -/
def State.takesAt (s : State) (b : Nat) : Option Nat :=
  let c := (s.beam b).comp
  let ht := (s.inEff (Reg.BM_HTOTAL b)).toNat
  let m := match c.line with
    | some v => v * ht + c.pixels.length
    | none => c.next * ht
  if (s.inEff (Reg.BM_VACT b)).toNat * ht ≤ m then s.nextAt b
  else if (s.beam b).gen.acq ≠ .none ∨ s.bitAt (Reg.BM_TPOS b) 22 then (s.nextAt b).map (· + s.pixelTicks b m)
  else some (s.pixelAt b m)

/-- The tolerance in ns that beam `b` declares (R77): 0xFFFF while OFF, and in ACQUIRE, of which the rule says nothing; 0xFFFE in a
re-lock while no frame start is chosen (log entry 126). -/
def State.beamTol (s : State) (b : Nat) : Nat :=
  if s.genState b = 0 ∨ s.genState b = 1 then 0xFFFF
  else match s.takesAt b with
    | none => 0xFFFE
    | some t => Nat.min 0xFFFE (4 * (t - s.timebase.toNat) - 4 * s.fld (Reg.BM_TOLCFG b) Fd.BM_TOLCFG_MARGIN)

/-- AUD_STAT.STATE: 0 OFF, 1 ACQUIRE, 2 RUN. -/
def State.audState (s : State) : Nat := s.fld Reg.AUD_STAT Fd.AUD_STAT_STATE

/-- The sample rate in Hz (R176). -/
def State.audFs (s : State) : Nat := if s.bitAt Reg.AUD_CTRL 1 then 96000 else 48000

/-- The limits of AHEAD and LNKLAT: 0 and 1 act as 2, 31 as 30 (R210). -/
def limit30 (n : Nat) : Nat := if n < 2 then 2 else min n 30

/-- AHEAD. -/
def State.audAhead (s : State) : Nat := limit30 (s.fld Reg.AUD_CTRL Fd.AUD_CTRL_AHEAD)

/-- The tolerance in ns that the engine declares (R208): in RUN the time to the instant of the first output index not yet in the
crossings, less the margin. -/
def State.audTol (s : State) : Nat :=
  if s.audState ≠ 2 then 0xFFFF
  else
    let fs := s.audFs
    let ticks : Int := (s.fld Reg.AUD_PHASE Fd.AUD_PHASE_PHASE : Int) - s.timebase.toNat
    let ns : Int := (4 * ticks * fs + s.aud.next.getD 0 * 1000000000).fdiv fs - 4 * s.fld Reg.AUD_TOLCFG Fd.AUD_TOLCFG_MARGIN
    (clampI 0 0xFFFE ns).toNat

/-- The three tolerances as they are at the present instant (R47, R77, R208). -/
def State.declareAll (s : State) : State := ((s.declare 0 (s.beamTol 0)).declare 1 (s.beamTol 1)).declare 2 s.audTol

/-- What `f` does, with the tolerances declared before it and after it: a step that moves a deadline later still leaves the smallest
value of the voltage loop's window behind (R78). -/
def State.declaring (s : State) (f : State → State) : State := (f s.declareAll).declareAll

/-- What passes while no command waits: one clock tick of the timebase (log entry 8), with which the declared tolerances fall. -/
def State.idle (s : State) : State := if s.dom 2 then s.tick.declareAll else s

/-- Bank `k` goes to sleep where SLPEN is 1, no request is in progress or queued and the tolerance exceeds the threshold
(R47). That its idle time has passed is what the command says. -/
def execBankSleep (bank : BitVec 5) (s : State) : Out :=
  let k := bank.toNat
  let s := s.declareAll
  .next (if s.bitAt Reg.FAB_CTRL 1 && !s.fab.inflight.any (fun t => s.txnBank t.addr == some k)
      && decide (s.wakeThreshold < s.fld Reg.FAB_TOL Fd.FAB_TOL_TOL) then s.setBit (slpReg k) (k % 16) else s)

end Sys2Proof.Machine
end

