-- ==== Sys2Proof/Machine/BeamRegs.lean ====
section
/-! DEFINITION. What register writes do to a beam: the timing set, TEN and TGO (R64, R71, R72, R82), GLK_IN (R67), the re-lock,
palette writes (R88, R130), the capture of a signature (R138), UNDER (R74), the Furrow pointer (R156). -/
namespace Sys2Proof.Machine

/-- Count a block error of beam `b`. -/
def State.bmErr (s : State) (b : Nat) : State := s.err (7 + b) 0

/-- Set BMx_TCTRL.STATE. -/
def State.setGenState (s : State) (b n : Nat) : State := s.setFld (Reg.BM_TCTRL b) Fd.BM_TCTRL_STATE n

/-- Change the generator of beam `b`. -/
def State.updGen (s : State) (b : Nat) (f : GenSt → GenSt) : State := s.updBeam b (fun x => { x with gen := f x.gen })

/-- Change the compositor of beam `b`. -/
def State.updComp (s : State) (b : Nat) (f : CompSt → CompSt) : State := s.updBeam b (fun x => { x with comp := f x.comp })

/-- Change the island of beam `b`. -/
def State.updOut (s : State) (b : Nat) (f : IslandSt → IslandSt) : State := s.updBeam b (fun x => { x with out := f x.out })

/-- Change the static group of beam `b`. -/
def State.updFlat (s : State) (b : Nat) (f : FlatSt → FlatSt) : State := s.updBeam b (fun x => { x with flat := f x.flat })

/-! ## The timing set -/

/-- The staged timing set: the nine registers and SRC. -/
def State.stagedSet (s : State) (b : Nat) : List Word :=
  (timingRegs b).map s.reg ++ [wd (s.fld (Reg.BM_TCTRL b) Fd.BM_TCTRL_SRC)]

/-- Is the timing set valid (R64)? -/
def timingValid (ws : List Word) : Bool :=
  let hact := setN ws 0
  let ht := setN ws 1
  let vact := setN ws 3
  let vt := setN ws 4
  let num := setN ws 6
  let den := setN ws 7
  let hsw := getF (ws.getD 2 0) Fd.BM_HSYNC_SW
  let hfp := getF (ws.getD 2 0) Fd.BM_HSYNC_FP
  let vsw := getF (ws.getD 5 0) Fd.BM_VSYNC_SW
  let vfp := getF (ws.getD 5 0) Fd.BM_VSYNC_FP
  decide (1 ≤ hact ∧ hact ≤ 8192 ∧ hact + 64 ≤ ht ∧ ht ≤ 16383) &&
  decide (hfp + hsw ≤ ht - hact ∧ 1 ≤ hsw) &&
  decide (1 ≤ vact ∧ vact ≤ 4096 ∧ vact + 2 ≤ vt ∧ vt ≤ 8191) &&
  decide (vfp + vsw ≤ vt - vact ∧ 1 ≤ vsw) &&
  decide (1 ≤ den ∧ 20 * den ≤ num ∧ num ≤ 240 * den) &&
  decide (25000000 * den ≤ ht * vt * num ∧ ht * vt * num ≤ 600000000 * den) &&
  decide (40 * ht * vt * num ≤ headlandPixels ws * den * 1000000) &&
  decide (setN ws 8 * num < 250000000 * den) &&
  decide (setN ws 9 ≤ 1)

/-- The timing set takes effect. -/
def State.applySet (s : State) (b : Nat) (ws : List Word) : State :=
  let s := ((timingRegs b).zipIdx).foldl (fun s x => s.setEff x.1 (ws.getD x.2 0)) s
  s.setEff (Reg.BM_TCTRL b) (putF 0 Fd.BM_TCTRL_SRC (setN ws 9))

/-! ## TEN and TGO -/

/-- A rejected timing set is counted and sets TSETERR (R64). -/
def State.rejectSet (s : State) (b : Nat) : State := (s.bmErr b).setBit (Reg.BM_TEVT b) 4

/-- The Furrow engine stops at once, and queued writes are discarded (R157). -/
def State.furStop (s : State) (b : Nat) : State :=
  let s := s.updFur b (fun f => { f with run := none, todo := [], loop := none, skip := 0, waitl := none,
                                         fetching := false, part := [], queue := [], late := [] })
  s.clrReg (Reg.HRW_FW_STAT b) (wd 0x900000)

/-- The section ends and the engine runs no further one in this frame, as at HALT (R149). -/
def State.furHalt (s : State) (b : Nat) : State :=
  let s := s.updFur b (fun f => { f with run := none, todo := [], fetching := false })
  s.setBit (Reg.HRW_FW_STAT b) 22

/-- Composition and sending stop: the line in progress and the store are gone, the frame cannot be a clean capture frame, and its
output copy ends without its last word. -/
def State.compStop (s : State) (b : Nat) : State :=
  let s := s.updComp b (fun _ => {})
  let s := s.updFlat b (fun f => { f with clean := false })
  let s := s.updOut b (fun o => { o with sending := none, next := 0, framed := false, under := [],
                                         blank := false, capOn := false })
  s.putBit (Reg.BM_CAPSTAT b) 23 (s.beam b).out.capEnd.isSome

/-- Setting TEN: with an invalid set it is refused, else the acquire sequence starts (R64, R71), with FCNT at 0 and, in SRC 1, the
index that equals it (R85). -/
def State.tenOn (s : State) (b : Nat) : State :=
  if s.bitAt (Reg.BM_TCTRL b) 0 then s
  else
    let ws := s.stagedSet b
    if !timingValid ws then s.rejectSet b
    else
      let s := ((s.setBit (Reg.BM_TCTRL b) 0).setGenState b 1).applySet b ws
      let s := s.setReg (Reg.BM_FCNT b) 0
      let s := if s.extLock b then s.setReg (Reg.BM_SFRAME b) 0 else s
      let i := (s.reg (Reg.BM_SFRAME b)).toNat
      s.updGen b (fun g => { acq := .pll, glkOut := g.glkOut, index := i, pllAt := s.timebase.toNat })

/-- Clearing TEN stops output at once; the generator is OFF and the beam declares 0xFFFF (R71). -/
def State.tenOff (s : State) (b : Nat) : State :=
  if !s.bitAt (Reg.BM_TCTRL b) 0 then s
  else
    let s := (s.declareAll.clrBit (Reg.BM_TCTRL b) 0).setGenState b 0
    let s := s.clrReg (Reg.BM_TSTAT b) (wd 0x30)
    let s := s.setReg (Reg.BM_TPOS b) 0
    let s := s.updGen b (fun g => { glkOut := g.glkOut })
    let s := ((s.compStop b).furStop b).updOut b (fun o => { o with capEnd := none })
    (s.clrBit (Reg.BM_CAPSTAT b) 23).declareAll

/-- A write of TGO: an invalid set is rejected; while the generator runs, a valid set is copied for the next frame Headland
(R64, R72). -/
def State.tgoWrite (s : State) (b : Nat) : State :=
  let ws := s.stagedSet b
  if !timingValid ws then s.rejectSet b
  else if s.genState b = 0 then s
  else (s.updGen b (fun g => { g with tgo := some ws })).setBit (Reg.BM_TSTAT b) 4

/-- A write of BMx_TCTRL: SRC is staged, GLKSEL set in BMA alone (R68), then TEN, then TGO. -/
def State.writeTctrl (s : State) (b : Nat) (v : Word) : State :=
  let a := Reg.BM_TCTRL b
  let s := s.setFld a Fd.BM_TCTRL_SRC (getF v Fd.BM_TCTRL_SRC)
  let s := if b = 0 then s.setFld a Fd.BM_TCTRL_GLKSEL (getF v Fd.BM_TCTRL_GLKSEL) else s
  let s := if bit v 0 then s.tenOn b else s.tenOff b
  if bit v 2 then s.tgoWrite b else s

/-- A write of TEN while the domain is off is dropped and counted (R71), besides its error response. -/
def State.tenCmd (s : State) (r b : Nat) (f : State → State) : State :=
  let t := s.regCmd r (Reg.BM_TCTRL b) f
  if s.gate r (s.reqPlot r) (Reg.BM_TCTRL b) true = some .off then t.bmErr b else t

def execTimingEnable (req : Req) (b : BeamIx) (s : State) : Out := .next (s.tenCmd req.val b.val (fun s => s.tenOn b.val))

def execTimingDisable (req : Req) (b : BeamIx) (s : State) : Out := .next (s.tenCmd req.val b.val (fun s => s.tenOff b.val))

def execTgo (req : Req) (b : BeamIx) (s : State) : Out :=
  .next (s.regCmd req.val (Reg.BM_TCTRL b.val) (fun s => s.tgoWrite b.val))

/-! ## Lock -/

/-- The least `k` with `a + k × n / d ≥ x`, and that instant rounded down. -/
def nextStart (a n d x : Nat) : Nat × Nat :=
  let k := if x ≤ a then 0 else ((x - a) * d + n - 1) / Nat.max 1 n
  (a + k * n / d, k)

/-- Ticks of the frame Headland of the set in effect, rounded up. -/
def State.headlandTicks (s : State) (b : Nat) : Nat :=
  let ws := s.timingSet b
  let (n, d) := periodOf ws
  let q := d * setN ws 1 * setN ws 4
  (headlandPixels ws * n + q - 1) / Nat.max 1 q

/-- The generator chooses the first frame start at least one frame Headland from now, on the grid that begins at `a`
(step 4 of R71); the index is `k` in SRC 0 (R65, R85). `ended` is when the step before ended. The lines of the grid are counted down
from the next line boundary. -/
def State.chooseStart (s : State) (b a ended : Nat) : State :=
  let (n, d) := periodOf (s.timingSet b)
  let c := nextStart a n d (ended + s.headlandTicks b)
  let vt := (s.inEff (Reg.BM_VTOTAL b)).toNat
  s.updGen b (fun g => { g with acq := .grid, chosen := some c, linesLeft := (c.1 - ended) * d * vt / Nat.max 1 n })

/-- The pixel PLL locks (step 2 of R71), at most 150 µs (37,500 ticks) after that step began: SRC 0 chooses its first frame start,
SRC 1 waits for a pair of edges, of which the first may lie before the lock. -/
def State.pllLock (s : State) (b : Nat) : State :=
  if (s.beam b).gen.acq = .pll then
    let s := s.setBit (Reg.BM_TSTAT b) 5
    if s.extLock b then s.updGen b (fun g => { g with acq := .edges })
    else s.chooseStart b (s.effFld (Reg.BM_PHASE b) Fd.BM_PHASE_V) (Nat.min s.timebase.toNat ((s.beam b).gen.pllAt + 37500))
  else s

def execPixelPllLock (b : BeamIx) (s : State) : Out := .next (s.declaring (fun s => s.pllLock b.val))

/-- A re-lock starts (R72): STATE 4, the RELOCK event, composition, sending and Furrow stop, and the steps of R71 follow; no line is
present until they join a line grid. -/
def State.relock (s : State) (b : Nat) : State :=
  let s := (s.setGenState b 4).setBit (Reg.BM_TEVT b) 2
  let s := (s.clrReg (Reg.BM_TSTAT b) (oneBit 5)).setReg (Reg.BM_TPOS b) 0
  let s := (s.compStop b).furStop b
  let now := s.timebase.toNat
  s.updGen b (fun g => { g with acq := .pll, slewing := false, chosen := none, trans := false, pllAt := now, relockAt := some now })

/-- Does the interval of `t` ticks differ from one frame period by at most 0.5 % (R67)? -/
def State.onePeriod (s : State) (b t : Nat) : Bool :=
  let (n, d) := periodOf (s.timingSet b)
  decide (995 * n ≤ 1000 * t * d ∧ 1000 * t * d ≤ 1005 * n)

/-- An edge is accepted: GLKPER shows the interval from the one accepted before it (R67). While LOCKED the frame start it governs falls
GLKDLY ticks after it (R65); where that frame has begun already, the one a period later is meant. While a HOLD's error is slewed out the
grid is not moved at once. -/
def State.acceptEdge (s : State) (b before : Nat) : State :=
  let t := s.timebase.toNat
  let s := (s.setReg (Reg.BM_GLKPER b) (wd (t - before))).updGen b (fun g => { g with last := some t })
  let g := (s.beam b).gen
  let at0 := t + s.fld (Reg.BM_GLKCFG b) Fd.BM_GLKCFG_GLKDLY
  let per := (s.gridPeriod b).1 / Nat.max 1 (s.gridPeriod b).2
  if s.genState b ≠ 2 ∨ g.slewing then s
  else
    let next := if at0 < g.startAt + per / 2 then at0 + per else at0
    s.updGen b (fun g => { g with chosen := some (next, g.index + 1) })

/-- The phase error in ticks × FRNUM of the running frame grid against the edge just accepted (R67). -/
def State.phaseError (s : State) (b : Nat) : Int :=
  let (n, d) := periodOf (s.timingSet b)
  let want : Int := s.timebase.toNat + s.fld (Reg.BM_GLKCFG b) Fd.BM_GLKCFG_GLKDLY
  let e := (((s.beam b).gen.startAt - want) * d).emod n
  if 2 * e < n then e else e - n

/-- A pair ends a HOLD (R67): the generator slews while LOCKED where the error is at most SLEWMAX µs, else it re-locks. -/
def State.endHold (s : State) (b : Nat) : State :=
  let e := s.phaseError b
  let lim : Int := s.fld (Reg.BM_LOCKCFG b) Fd.BM_LOCKCFG_SLEWMAX * 250 * (periodOf (s.timingSet b)).2
  if e ≤ lim ∧ -lim ≤ e then
    ((s.setGenState b 2).setBit (Reg.BM_TEVT b) 0).updGen b (fun g => { g with slewing := true, cand := none })
  else s.relock b

/-- A candidate edge in ACQUIRE, RELOCK or HOLD (R67): it completes a pair with the candidate before it, or not. -/
def State.candidate (s : State) (b : Nat) : State :=
  let t := s.timebase.toNat
  let old := (s.beam b).gen.cand
  let s := s.updGen b (fun g => { g with cand := some t })
  match old with
  | none => s
  | some c =>
    if !s.onePeriod b (t - c) then s
    else
      let s := s.acceptEdge b c
      if s.genState b = 3 then s.endHold b
      else if (s.beam b).gen.acq = .edges then s.chooseStart b (t + s.fld (Reg.BM_GLKCFG b) Fd.BM_GLKCFG_GLKDLY) t
      else s

/-- A filtered edge of GLK_IN at beam `b` (R67). While SRC is 0 or the generator is OFF it is ignored, as is the edge that
GPOL does not make active. -/
def State.glkEdge (s : State) (b : Nat) (rising : Bool) : State :=
  if s.genState b = 0 ∨ !s.extLock b ∨ rising = s.bitAt (Reg.BM_GLKCFG b) 23 then s
  else if s.genState b = 2 then
    match (s.beam b).gen.last with
    | some t => if s.onePeriod b (s.timebase.toNat - t) then s.acceptEdge b t else (s.bmErr b).setBit (Reg.BM_TEVT b) 5
    | none => s.candidate b
  else s.candidate b

/-- No edge was accepted for 2 programmed frame periods: a LOCKED generator enters HOLD and sets LOSS (R67). The command stands for the
end of those periods and brings the time to it (log entry 121). -/
def State.glkLoss (s : State) (b : Nat) : State :=
  let (n, d) := periodOf (s.timingSet b)
  if s.genState b = 2 && s.extLock b then
    let s := s.passTo ((s.beam b).gen.last.getD 0 + (2 * n + d - 1) / d)
    ((s.setGenState b 3).setBit (Reg.BM_TEVT b) 1).updGen b (fun g => { g with cand := none })
  else s

def execGlkLoss (b : BeamIx) (s : State) : Out := .next (s.glkLoss b.val)

/-! ## Palette, signature capture, UNDER -/

/-- Does the static group hold an indexed tile plane (R130)? -/
def State.groupIndexed (s : State) (b : Nat) : Bool :=
  (List.range 8).any (fun l => s.inGroup b l && s.lyKind b l == 0 && s.effFld (Reg.BM_TL_CFG b l) Fd.BM_TL_CFG_DEPTH != 3)

/-- A palette entry changes from the next composed pixel, and a group with an indexed plane is invalidated (R88, R130). -/
def State.writePal (s : State) (b i : Nat) (v : Word) : State :=
  let s := s.setReg (Reg.BM_PAL b i) v
  if s.groupIndexed b then s.updFlat b (fun f => { f with inval := true }) else s

def execPaletteWrite (req : Req) (b : BeamIx) (i : BitVec 12) (v : Word) (s : State) : Out :=
  .next (s.regCmd req.val (Reg.BM_PAL b.val i.toNat) (fun s => s.writePal b.val i.toNat v))

/-- Region `n` of beam `b`. -/
def State.region (s : State) (b n : Nat) : RegionSt := Tab.get {} (s.beam b).regions n

/-- Change region `n`. -/
def State.updRegion (s : State) (b n : Nat) (f : RegionSt → RegionSt) : State :=
  s.updBeam b (fun x => { x with regions := Tab.put {} x.regions n (f (Tab.get {} x.regions n)) })

/-- CAP copies the last completed signature and its frame index (R138). Where none was ever completed, the words copied are
free values, and VALID is 0. -/
def State.regionCapture (s : State) (b n : Nat) : State :=
  let r := s.region b n
  let (sig, fr, s) : Nat × Nat × State := match r.sig with
    | some (c, f) => (c.toNat, f, s)
    | none => ((Config.freeValue s.freeCtr).toNat * 256 + (Config.freeValue (s.freeCtr + 1)).toNat % 256,
        (Config.freeValue (s.freeCtr + 2)).toNat, { s with freeCtr := s.freeCtr + 3 })
  let s := s.setReg (Reg.BM_WR_CRC_HI b n) (wd (sig / 2 ^ 24))
  let s := s.setReg (Reg.BM_WR_CRC_LO b n) (wd sig)
  s.setReg (Reg.BM_WR_CFRM b n) (wd ((if r.fresh then 0x800000 else 0) + fr % 65536))

def execRegionCap (req : Req) (b : BeamIx) (n : Fin 16) (s : State) : Out :=
  .next (s.regCmd req.val (Reg.BM_WR_CTRL b.val n.val) (fun s => s.regionCapture b.val n.val))

/-- A write of WRn_CTRL: its fields are staged, then CAP. -/
def State.writeWrCtrl (s : State) (b n : Nat) (v : Word) : State :=
  let s := s.plainWrite (Reg.BM_WR_CTRL b n) v
  if bit v 2 then s.regionCapture b n else s

/-- A write of BMx_UNDER: substitutes sent from now on take the new colour. Up to which column of the line being sent the old
colour holds, a free value says (R74). -/
def State.writeUnder (s : State) (b : Nat) (v : Word) : State :=
  let old := s.reg (Reg.BM_UNDER b)
  let s := s.setReg (Reg.BM_UNDER b) v
  if (s.beam b).out.sending.isNone && !(s.beam b).out.blank then s
  else
    let n := (Config.freeValue s.freeCtr).toNat % 8193
    s.useFree.updOut b (fun o =>
      let from0 := (o.under.getLast?.map (·.1)).getD 0
      { o with under := o.under ++ [(Nat.max from0 n, old)] })

/-! ## The other registers of the window -/

/-- A write by software to the register at offset `o` of beam `b`'s window. A register that a Furrow program may write takes
the value at once where its field is live (R145); a staged value is no longer one of a staged-message start (R86). -/
def State.writeBeam (s : State) (b o : Nat) (v : Word) : State :=
  let a := 0x8070000 + b * 0x10000 + o
  let s := s.updBeam b (fun x => { x with byMessage := x.byMessage.filter (· != o) })
  if o = 0 then s.writeTctrl b v
  else if o = 6 then s.writeUnder b v
  else if 0x1000 ≤ o ∧ o < 0x2000 then s.writePal b (o - 0x1000) v
  else if 0x200 ≤ o ∧ o < 0x300 ∧ o % 16 = 0 then s.writeWrCtrl b ((o - 0x200) / 16) v
  else if 0x100 ≤ o ∧ o < 0x180 ∧ o % 16 = 9 then (s.plainWrite a v).dropWork a
  else s.plainWrite a v

/-- A write by software to the Furrow register at offset `j` of beam `b`: one of CTRL and BASE waits for its latch, and PEND
shows it (R156). -/
def State.writeFurrow (s : State) (b j : Nat) (v : Word) : State :=
  let a := Reg.HRW_FW_CTRL b + j
  let s := s.plainWrite a v
  if j < 2 then s.setBit (Reg.HRW_FW_STAT b) 21 else s

end Sys2Proof.Machine
end

