-- ==== Sys2Proof/Machine/HarrowRegs.lean ====
section
/-! DEFINITION. The Harrow's queues (R167, R168, R170, R171, R173, R175): submit, flush, pause, completion signals, WM events,
arbitration. Its commands and bursts stand in Machine/Harrow.lean. -/
namespace Sys2Proof.Machine

/-- The lists of queue `q`, the running one first. -/
def State.hrwQueue (s : State) (q : Nat) : List HrwList := Tab.get [] s.hrw.queues q

/-- The completions of queue `q` that wait for a WM event. -/
def State.hrwHeld (s : State) (q : Nat) : List HrwHeld := Tab.get [] s.hrw.held q

/-- HRW_STAT and HRW_Qq_STAT show the queues (R175). -/
def State.settleHrw (s : State) : State :=
  let s := s.putBit Reg.HRW_STAT 23 s.hrw.active.isSome
  let s := match s.hrw.active with
    | some q => s.setFld Reg.HRW_STAT Fd.HRW_STAT_ACTQ q
    | none => s
  forN 4 (fun q s =>
    let l := s.hrwQueue q
    let a := Reg.HRW_Q_STAT q
    let s := s.putBit a 22 ((l.head?.map (·.started)).getD false)
    let s := s.putBit a 21 (!(s.hrwHeld q).isEmpty)
    let s := s.putBit a 20 ((l.head?.map (·.wait.isSome)).getD false)
    s.setFld a Fd.HRW_Q_STAT_DEPTH l.length) s

/-- Set queue `q`. -/
def State.setQueue (s : State) (q : Nat) (l : List HrwList) : State :=
  { s with hrw := { s.hrw with queues := Tab.put [] s.hrw.queues q l } }

/-- Set the completions held of queue `q`. -/
def State.setHeld (s : State) (q : Nat) (l : List HrwHeld) : State :=
  { s with hrw := { s.hrw with held := Tab.put [] s.hrw.held q l } }

/-- Does the Harrow work: EN 1, not frozen, its domain on (R173, R463)? -/
def State.hrwRuns (s : State) : Bool := s.bitAt Reg.HRW_CTRL 0 && !s.frozen 2 && s.dom 14

/-- Has queue `q` a list ready: one that neither waits nor has ended (R168)? -/
def State.hrwReady (s : State) (q : Nat) : Bool :=
  match s.hrwQueue q with
  | [] => false
  | l :: _ => l.wait.isNone && !l.ended

/-- A decision point: the highest-numbered queue with a ready list runs (R168). -/
def State.hrwArbitrate (s : State) : State :=
  let best := [3, 2, 1, 0].find? s.hrwReady
  let was := s.hrw.active
  let s := { s with hrw := { s.hrw with active := best } }
  let s := match was, best with
    | some q, some q' => if q ≠ q' ∧ s.hrwReady q then s.perf 20 2 else s
    | _, _ => s
  match best with
  | none => s.settleHrw
  | some q =>
    match s.hrwQueue q with
    | [] => s.settleHrw
    | l :: ls => (s.setQueue q ({ l with started := true } :: ls)).settleHrw

/-- Where nothing runs, whatever became ready starts. -/
def State.hrwKick (s : State) : State := if s.hrw.active.isNone && s.hrwRuns then s.hrwArbitrate else s.settleHrw

/-- Count a Harrow error with its cause, queue and list word (R172, R175). -/
def State.hrwErr (s : State) (cause q ofs : Nat) : State :=
  ((s.err 6 cause).setFld Reg.HRW_LASTERR Fd.HRW_LASTERR_QUEUE q).setFld Reg.HRW_LASTERR Fd.HRW_LASTERR_ADDR ofs

/-- The plot of queue `q`. -/
def State.hrwPlot (s : State) (q : Nat) : Nat := s.ownerRes 12 q

/-! ## Queues -/

/-- A submit adds a list, is dropped with cause 7 at a full queue, and is dropped while the queue's plot is fenced (R167,
R173). -/
def State.hrwSubmit (s : State) (q base : Nat) : State :=
  if s.plotFenced (s.hrwPlot q) || s.refuses (s.hrwPlot q) then s
  else if 8 ≤ (s.hrwQueue q).length then (s.hrwErr 7 q 0).setBit Reg.HRW_EVT 2
  else
    let s := s.setQueue q (s.hrwQueue q ++ [{ id := s.hrw.nextId, base := base }])
    State.hrwKick { s with hrw := { s.hrw with nextId := s.hrw.nextId + 1 } }

def execHrwSubmit (req : Req) (q : Fin 4) (base : Word) (s : State) : Out :=
  .next (s.regCmd req.val (Reg.HRW_Q_SUBMIT q.val) (fun s => s.hrwSubmit q.val base.toNat))

/-- FLUSH discards the lists of queue `q`; completions that wait for a WM event stay (R173). -/
def State.hrwFlush (s : State) (q : Nat) : State :=
  let s := s.setQueue q []
  if s.hrw.active = some q then State.hrwKick { s with hrw := { s.hrw with active := none } } else s.settleHrw

def execHrwFlush (req : Req) (q : Fin 4) (s : State) : Out :=
  .next (s.regCmd req.val (Reg.HRW_Q_CFG q.val) (fun s => s.hrwFlush q.val))

/-- A fence of plot `p` flushes every queue of the plot and sets ABORT, while the Harrow's domain is on (R173). -/
def State.hrwFence (s : State) (p : Nat) : State :=
  if !s.dom 14 then s else
  let s' := forN 4 (fun q t => if t.hrwPlot q = p then t.hrwFlush q else t) s
  if (List.range 4).any (fun q => s.hrwPlot q == p) then s'.setBit Reg.HRW_EVT 1 else s'

/-- EN 0: no burst is in flight between commands, so PAUSED is 1 at once (R173). -/
def State.hrwPause (s : State) : State := (s.clrBit Reg.HRW_CTRL 0).setBit Reg.HRW_STAT 22

/-- EN 1 resumes at the same pixel (R173). -/
def State.hrwResume (s : State) : State := ((s.setBit Reg.HRW_CTRL 0).clrBit Reg.HRW_STAT 22).hrwKick

def execHarrowPause (req : Req) (s : State) : Out := .next (s.regCmd req.val Reg.HRW_CTRL State.hrwPause)

def execHarrowResume (req : Req) (s : State) : Out := .next (s.regCmd req.val Reg.HRW_CTRL State.hrwResume)

/-! ## Completion and WM events -/

/-- A list is signalled complete (R170). -/
def State.hrwSignal (s : State) (q : Nat) (tine : Option Nat) : State :=
  let n := s.reg (Reg.HRW_Q_DONECNT q)
  let s := (s.setBit (Reg.HRW_Q_STAT q) 23).setReg (Reg.HRW_Q_DONECNT q) (n + 1)
  let s := if n = 0xFFFFFF then s.setBit Reg.HRW_EVT 3 else s
  match tine with
  | some t => s.publish t
  | none => s

/-- The tine of a completion of queue `q`. -/
def State.hrwTine (s : State) (q : Nat) : Option Nat :=
  if s.bitAt (Reg.HRW_Q_CFG q) 15 then some (s.fld (Reg.HRW_Q_CFG q) Fd.HRW_Q_CFG_TINE) else none

/-- A WM event of beam `b` ends each WAITWM for it and signals the completions held for it (R170, R171). -/
def State.hrwWm (s : State) (b : Nat) : State :=
  let s := forN 4 (fun q s =>
    let s := match s.hrwQueue q with
      | l :: ls => if l.wait = some b then s.setQueue q ({ l with wait := none } :: ls) else s
      | [] => s
    let (now, later) := (s.hrwHeld q).partition (fun h => h.beam == b)
    now.foldl (fun s h => s.hrwSignal q h.tine) (s.setHeld q later)) s
  s.hrwKick

/-- The staged-message starter that waits for list `id` need wait no longer (R216 step 3). -/
def State.hrwTellStarter (s : State) (id : Nat) : State :=
  if s.sup.stg.src.isSome && s.sup.stg.wait == .harrow (some id) then
    { s with sup := { s.sup with stg := { s.sup.stg with wait := .harrowDone } } }
  else s

/-- END has executed and every write is acknowledged: the list completes (R170). -/
def State.hrwComplete (s : State) (q : Nat) : State :=
  match s.hrwQueue q with
  | [] => s
  | l :: ls =>
    if !l.ended then s
    else
      let s := (s.setQueue q ls).perf 20 1
      let s := s.hrwTellStarter l.id
      let c := Reg.HRW_Q_CFG q
      let s := if s.bitAt c 4 then s.setHeld q (s.hrwHeld q ++ [⟨b2n (s.bitAt c 5), s.hrwTine q⟩])
        else s.hrwSignal q (s.hrwTine q)
      s.hrwKick

def execListComplete (q : Fin 4) (s : State) : Out := .next (s.hrwComplete q.val)

/-- No WM event within WMTO ms: the oldest wait of queue `q`, a completion held or else its WAITWM, ends with cause 6
(R171). -/
def State.hrwTimeout (s : State) (q : Nat) : State :=
  match s.hrwHeld q with
  | h :: hs =>
    ((s.setHeld q hs).hrwErr 6 q 0).hrwSignal q h.tine |>.settleHrw
  | [] =>
    match s.hrwQueue q with
    | l :: ls =>
      if l.wait.isSome then ((s.setQueue q ({ l with wait := none } :: ls)).hrwErr 6 q l.at0).hrwKick else s
    | [] => s

def execWatermarkTimeout (q : Fin 4) (s : State) : Out := .next (s.hrwTimeout q.val)

/-! ## Registers -/

/-- A write to the Harrow register at offset `o` of the HRW window below 0x8000. -/
def State.writeHarrow (s : State) (o : Nat) (v : Word) : State :=
  let a := 0x8060000 + o
  let q := (o - 0x10) / 4
  if o = 0 then
    let s := s.plainWrite a v
    if bit v 0 then s.hrwResume else s.hrwPause
  else if 0x10 ≤ o ∧ o < 0x20 ∧ o % 4 = 0 then s.hrwSubmit q v.toNat
  else if 0x10 ≤ o ∧ o < 0x20 ∧ o % 4 = 1 then
    let s := s.plainWrite a v
    if bit v 23 then s.hrwFlush q else s
  else s.plainWrite a v

end Sys2Proof.Machine
end

