-- ==== Sys2Proof/Machine/Fixed.lean ====
section
/-! DEFINITION. Powers of ten and sines in fixed point with 64 fraction bits: the gains of R186, the trims of R206, the tones
and envelopes of R193. The error of each is far below the last bit of a sample (log entry 18). -/
namespace Sys2Proof.Fixed

/-- One, with 64 fraction bits. -/
def one : Int := 2 ^ 64

/-- ln 10. -/
def ln10 : Int := 42475197918399869019

/-- π / 2. -/
def halfPi : Int := 28976077832308491369

/-- The sum of `fuel` terms of a series whose term number `n` arises from the term before by `f n`. -/
def series (f : Nat → Int → Int) : (fuel n : Nat) → (term acc : Int) → Int
  | 0, _, _, acc => acc
  | fuel + 1, n, t, acc =>
    let t' := f n t
    series f fuel (n + 1) t' (acc + t')

/-- e^x for `x` from 0 to 2.4. -/
def expF (x : Int) : Int := series (fun n t => (t * x).fdiv (one * (n : Int))) 40 1 one one

/-- 10^(n/d), `d` positive. -/
def pow10 (n : Int) (d : Nat) : Int :=
  let q := n.fdiv d
  let r := n.fmod d
  let b := expF ((ln10 * r).fdiv d)
  if 0 ≤ q then b * 10 ^ q.toNat else b.fdiv (10 ^ (-q).toNat)

/-- sin x for `x` from 0 to π/2. -/
def sinQ (x : Int) : Int :=
  series (fun n t => -((t * x).fdiv one * x).fdiv (one * (2 * n : Int) * (2 * n + 1 : Int))) 20 1 x x

/-- The sine of 2π × p / 2^32. -/
def sin32 (p : Nat) : Int :=
  let q := p / 2 ^ 30 % 4
  let r := p % 2 ^ 30
  let at' (k : Nat) : Int := sinQ ((halfPi * (k : Int)).fdiv (2 ^ 30))
  match q with
  | 0 => at' r
  | 1 => at' (2 ^ 30 - r)
  | 2 => -at' r
  | _ => -at' (2 ^ 30 - r)

/-- The cosine of 2π × p / 2^32. -/
def cos32 (p : Nat) : Int := sin32 (p + 2 ^ 30)

/-- The largest `n` below 2^25 with `n² × b ≤ a`. -/
def rootOf (a b : Nat) : Nat :=
  ((List.range 25).reverse).foldl (fun r i => if (r + 2 ^ i) ^ 2 * b ≤ a then r + 2 ^ i else r) 0

/-- The angle of (x, y), y not negative, in 0.1°, rounded down: 0 to 1,800. -/
def argUp (x y : Int) : Nat :=
  ((List.range 11).reverse).foldl (fun r i =>
    let p := (r + 2 ^ i) * 2 ^ 32 / 3600
    if r + 2 ^ i ≤ 1800 ∧ 0 ≤ y * cos32 p - x * sin32 p then r + 2 ^ i else r) 0

/-- The angle of (x, y) in 0.1°, rounded down. -/
def arg (x y : Int) : Int := if 0 ≤ y then argUp x y else -(argUp x (-y) : Int) - 1

/-- A power `p` against the power `full` in 0.5 dB, rounded down, from −512; `p` and `full` are not 0. -/
def halfDb (p full : Nat) : Int :=
  let a := p ^ 20
  let b := full ^ 20
  if b ≤ a then ((List.range 64).countP (fun j => decide (b * 10 ^ (j + 1) ≤ a)) : Nat)
  else -((((List.range 512).find? (fun k => decide (b ≤ a * 10 ^ k))).getD 512 : Nat) : Int)

/-- A fixed-point number rounded to nearest, half upward. -/
def round (x : Int) : Int := (2 * x + one).fdiv (2 * one)

end Sys2Proof.Fixed
end

