-- ==== Sys2Proof/Machine/Irq.lean ====
section
/-! DEFINITION. The interrupt controller (R386 to R395, R401): lines, pending bits, routing, presented levels,
acknowledge, completion, hold-off, doorbells. -/
namespace Sys2Proof.Machine

/-- Count an IRQ error with its cause and source (R401). -/
def State.irqErr (s : State) (cause src : Nat) : State :=
  (s.err 2 cause).setFld Reg.IRQ_LASTERR Fd.IRQ_LASTERR_SRC src

/-- The register of a line: IRQ_SRC_n, or IRQ_MBX_p for line `p` of source 248 (R390). -/
def irqReg (n p : Nat) : Nat := if n = 248 then Reg.IRQ_MBX p else Reg.IRQ_SRC n

/-- The plot of a line (R339, R389, R390). -/
def State.linePlot (s : State) (n p : Nat) : Nat := if n = 248 then p else s.srcPlot n

/-- The lines: source number and mailbox line; sources 250 to 255 are reserved. -/
def irqLines : List (Nat × Nat) :=
  (List.range 248).map (fun n => (n, 0)) ++ (List.range 8).map (fun p => (248, p)) ++ [(249, 0)]

/-- PEND follows the filtered line of a level source, and is 0 while EN is 0 (R388). -/
def State.settlePend (s : State) (a : Nat) : State :=
  if !s.bitAt a 23 then s.clrBit a 21
  else if !s.bitAt a 22 && s.bitAt a 20 then s.setBit a 21
  else s

/-- The filtered line takes the raw line's level; a rising edge sets PEND of an edge source (R387, R388). -/
def State.irqLine (s : State) (n p : Nat) : State :=
  if 250 ≤ n then s
  else
    let a := irqReg n p
    let raw := s.rawLine n p
    let was := s.bitAt a 20
    let s := s.putBit a 20 raw
    let s := if s.bitAt a 23 && s.bitAt a 22 && raw && !was then s.setBit a 21 else s
    s.settlePend a

def execIrqLineChange (n : BitVec 8) (p : Fin 8) (s : State) : Out := .next (s.irqLine n.toNat p.val)

/-- Why a write of a source register is dropped: cause 5 for a fixed source, 1 for a TARGET above 16, 2 for a core that names
the Steward or a core its plot does not own (R389, R390). -/
def State.srcWriteErr (s : State) (r n : Nat) (mbx : Bool) (v : Word) : Option Nat :=
  let t := getF v Fd.IRQ_SRC_TARGET
  if !mbx && decide (248 ≤ n) then some 5
  else if 16 < t then some 1
  else if r < 16 ∧ (t = 16 ∨ s.corePlot t ≠ s.corePlot r) then some 2
  else none

/-- A write of IRQ_SRC_n or IRQ_MBX_p: dropped whole, or carried out for EN, EDGE, LEVEL and TARGET (R388, R389). -/
def State.writeSrc (s : State) (r n p : Nat) (v : Word) : State :=
  let mbx := decide (n = 248) && decide (p < 8)
  let a := if mbx then Reg.IRQ_MBX p else Reg.IRQ_SRC n
  match s.srcWriteErr r n mbx v with
  | some c => s.irqErr c n
  | none => (s.plainWrite a v).settlePend a

def execIrqSrcWrite (req : Req) (n : BitVec 8) (v : Word) (s : State) : Out :=
  .next (s.regCmd req.val (Reg.IRQ_SRC n.toNat) (fun s => s.writeSrc req.val n.toNat 8 v))

/-! ## Presentation -/

/-- The processor to which a line is presented: its TARGET, or the Steward for a line of plots 1 to 7 that names a core
which its plot does not own (R389). -/
def State.irqTarget (s : State) (n p : Nat) : Nat :=
  let t := s.fld (irqReg n p) Fd.IRQ_SRC_TARGET
  let q := s.linePlot n p
  if q ≠ 0 ∧ t < 16 ∧ s.corePlot t ≠ q then 16 else t

/-- LEVEL of a line. -/
def State.irqLevel (s : State) (n p : Nat) : Nat := s.fld (irqReg n p) Fd.IRQ_SRC_LEVEL

/-- Is the line pending and routed to `t`? -/
def State.pendsOn (s : State) (t : Nat) (l : Nat × Nat) : Bool :=
  s.bitAt (irqReg l.1 l.2) 21 && s.irqTarget l.1 l.2 == t

/-- Does the line meet the conditions of R391 for `t`? -/
def State.presents (s : State) (t : Nat) (l : Nat × Nat) : Bool :=
  s.bitAt (irqReg l.1 l.2) 23 && s.pendsOn t l && !s.irqHeld.getLsbD (l.1 / 16)
    && !(decide (t < 16) && s.plotFenced (s.linePlot l.1 l.2))

/-- The presented level of processor `t`, 0 for none (R391). -/
def State.presLevel (s : State) (t : Nat) : Nat :=
  irqLines.foldl (fun m l => if s.presents t l then max m (s.irqLevel l.1 l.2) else m) 0

/-- The highest bit set of an ACTIVE word, 0 for none. -/
def topBit (w : Word) : Nat := (List.range 16).foldl (fun m i => if bit w i then i else m) 0

/-- The running level of processor `t` (R392). -/
def State.runLevel (s : State) (t : Nat) : Nat := topBit (s.reg (Reg.IRQ_RUN t) &&& 0xFFFE)

/-- Does processor `t` receive a request (R391)? -/
def State.irqRequest (s : State) (t : Nat) : Bool :=
  let l := s.presLevel t
  decide (s.fld (Reg.IRQ_THR t) Fd.IRQ_THR_THR < l) && decide (s.runLevel t < l)

/-- IRQ_PRES_t (R391). -/
def State.presWord (s : State) (t : Nat) : Word := wd (s.presLevel t) ||| (if s.irqRequest t then oneBit 23 else 0)

/-- IRQ_PEND_t_w (R390, R401). -/
def State.pendWord (s : State) (t w : Nat) : Word :=
  irqLines.foldl (fun m l => if l.1 / 24 = w ∧ s.pendsOn t l then m ||| oneBit (l.1 % 24) else m) 0

/-- Set the ACTIVE bits of processor `t`; RUN shows the highest. -/
def State.setActive (s : State) (t : Nat) (w : Word) : State :=
  s.setReg (Reg.IRQ_RUN t) (putF w Fd.IRQ_RUN_RUN (topBit w))

/-- The acknowledge of step 4 of R285: the presented level, whose ACTIVE bit is set, or 0 (R392). -/
def State.irqAck (s : State) (t : Nat) : State × Nat :=
  if s.irqRequest t then
    let l := s.presLevel t
    (s.setActive t ((s.reg (Reg.IRQ_RUN t) &&& 0xFFFE) ||| oneBit l), l)
  else (s, 0)

/-! ## Completion -/

/-- A line completes: an edge source clears PEND, a level line samples its raw line (R393). -/
def State.completeLine (s : State) (n p : Nat) : State :=
  let a := irqReg n p
  if n ≠ 248 ∧ s.bitAt a 22 then s.clrBit a 21 else s.putBit a 21 (s.rawLine n p)

/-- A completion starts the hold-off of its group where HOLD is not 0 (R394). -/
def State.startHold (s : State) (n : Nat) : State :=
  let g := n / 16
  let h := s.fld (Reg.IRQ_GRP g) Fd.IRQ_GRP_HOLD
  if h = 0 then s
  else { s with irqHeld := s.irqHeld ||| (1#16 <<< g), irqUntil := Tab.put 0 s.irqUntil g (s.timebase.toNat + 250 * h) }

/-- CMP of source `n` on processor `t` (R393). -/
def State.irqComplete (s : State) (t n : Nat) : State :=
  let ls := irqLines.filter (fun l => l.1 == n && s.pendsOn t l)
  if ls.isEmpty then s.irqErr 3 n
  else (ls.foldl (fun s l => s.completeLine l.1 l.2) s).startHold n

/-- END on processor `t` (R393). -/
def State.irqEndLevel (s : State) (t : Nat) : State :=
  let w := s.reg (Reg.IRQ_RUN t) &&& 0xFFFE
  if w = 0 then s.err 2 4 else s.setActive t (w &&& ~~~ oneBit (topBit w))

/-- A write of IRQ_DONE_t: CMP, then END. -/
def State.writeDone (s : State) (t : Nat) (v : Word) : State :=
  let s := if bit v 23 then s.irqComplete t (getF v Fd.IRQ_DONE_SRC) else s
  if bit v 22 then s.irqEndLevel t else s

def execIrqCmp (req : Req) (t : Proc) (src : BitVec 8) (s : State) : Out :=
  .next (s.regCmd req.val (Reg.IRQ_DONE t.val) (fun s => s.irqComplete t.val src.toNat))

def execIrqEnd (req : Req) (t : Proc) (s : State) : Out :=
  .next (s.regCmd req.val (Reg.IRQ_DONE t.val) (fun s => s.irqEndLevel t.val))

/-- A group's hold-off time is over, not before that instant (R394; log entry 121). -/
def execHoldoffEnd (g : Fin 16) (s : State) : Out :=
  let s := if s.irqHeld.getLsbD g.val then s.passTo (Tab.get 0 s.irqUntil g.val) else s
  .next { s with irqHeld := s.irqHeld &&& ~~~ (1#16 <<< g.val), irqUntil := Tab.put 0 s.irqUntil g.val 0 }

/-! ## Doorbells -/

/-- A write of IRQ_BELL_c: CLR, then RING (R401). -/
def State.writeBell (s : State) (c : Nat) (v : Word) : State :=
  let s := if bit v 1 then s.clrBit (Reg.IRQ_BELL c) 0 else s
  if bit v 0 then s.setBit (Reg.IRQ_BELL c) 0 else s

def execBellRing (req : Req) (c : Fin 16) (s : State) : Out :=
  .next (s.regCmd req.val (Reg.IRQ_BELL c.val) (fun s => s.writeBell c.val 1))

def execBellClr (req : Req) (c : Fin 16) (s : State) : Out :=
  .next (s.regCmd req.val (Reg.IRQ_BELL c.val) (fun s => s.writeBell c.val 2))

end Sys2Proof.Machine
end

