-- ==== Sys2Proof/Machine/Tines.lean ====
section
/-! DEFINITION. Publishing on tines and the entry stage (R396 to R400). Delivery to the consumers stands in
Machine/Units.lean. -/
namespace Sys2Proof.Machine

/-- A write of TIN_PUB_p with GO: the event is published where plot `p` may, else it is dropped with cause 2 (R400). -/
def State.tinPubWrite (s : State) (p t : Nat) : State :=
  if s.bitAt (Reg.TIN_ACL t) p then s.publish t
  else (s.err 3 2).setFld Reg.TIN_LASTERR Fd.TIN_LASTERR_PLOT p

def execTinPub (req : Req) (p : Fin 8) (tine : Tine) (s : State) : Out :=
  .next (s.regCmd req.val (Reg.TIN_PUB p.val) (fun s => s.tinPubWrite p.val tine.toNat))

/-- The entry stage of a tine accepts what has reached it as one event; where more than one has, the tine's TIN_MRG bit is
set (R398). The event counts as published by gate units where all its parts were (R399). -/
def State.tineEnter (s : State) (t : Nat) : State :=
  let mine := s.tin.waiting.filter (fun e => e.tine == t)
  if mine.isEmpty then s
  else
    let s := { s with tin := { waiting := s.tin.waiting.filter (fun e => e.tine != t),
                               transit := s.tin.transit ++ [⟨t, mine.all (·.fromGate)⟩] } }
    if 1 < mine.length then s.setBit (Reg.TIN_MRG (t / 24)) (t % 24) else s

def execTineEntry (tine : Tine) (s : State) : Out := .next (s.tineEnter tine.toNat)

end Sys2Proof.Machine
end

