-- ==== Sys2Proof/Machine/Timers.lean ====
section
/-! DEFINITION. The timebase and the timers (R403 to R411, R421). Count events of a timer with CLK 0 are timebase ticks: a
START, CAP or LOAD of such a timer takes effect at the tick that its command ends with (log entry 11). -/
namespace Sys2Proof.Machine

/-! ## The timebase -/

/-- The timebase wraps to 0 and TBWRAP is set (R403). -/
def execTimebaseWrap (s : State) : Out :=
  .next ({ s with timebase := 0, tmr := { s.tmr with busy := 0 } }.setBit Reg.TMR_EVT 0)

/-- GO copies the 64 bits at one tick into the capture set of plot `p` (R404). -/
def State.tbCapture (s : State) (p : Nat) : State :=
  let s := s.setBit (Reg.TMR_TBCMD p) 22
  let s := s.setReg (Reg.TMR_TB2 p) (wd (s.timebase.toNat / 2 ^ 48))
  let s := s.setReg (Reg.TMR_TB1 p) (s.tbWord 24)
  s.setReg (Reg.TMR_TB0 p) (s.tbWord 0)

def execTbCapture (req : Req) (p : Fin 8) (s : State) : Out :=
  .next (s.regCmd req.val (Reg.TMR_TBCMD p.val) (fun s => s.tbCapture p.val))

/-! ## Counters -/

/-- Count a TMR error with its cause and timer. -/
def State.tmrErr (s : State) (cause t : Nat) : State := (s.err 4 cause).setFld Reg.TMR_LASTERR Fd.TMR_LASTERR_TIMER t

/-- The counter of timer `t`. -/
def State.tmrCnt (s : State) (t : Nat) : BitVec 48 := Tab.get 0 s.tmr.cnt t

/-- Set the counter of timer `t`. -/
def State.setTmr (s : State) (t : Nat) (v : BitVec 48) : State :=
  { s with tmr := { s.tmr with cnt := Tab.put 0 s.tmr.cnt t v } }

/-- A 48-bit value from its high and low words. -/
def wide (hi lo : Word) : BitVec 48 := hi ++ lo

/-- MATCH in effect (R408). -/
def State.tmrMatch (s : State) (t : Nat) : BitVec 48 := wide (s.inEff (Reg.TMR_T_MATCHHI t)) (s.inEff (Reg.TMR_T_MATCHLO t))

/-- The staged MATCH latches (R408). -/
def State.latchMatch (s : State) (t : Nat) : State := (s.latch (Reg.TMR_T_MATCHHI t)).latch (Reg.TMR_T_MATCHLO t)

/-- Is timer `t` running? -/
def State.tmrRun (s : State) (t : Nat) : Bool := s.bitAt (Reg.TMR_T_CTRL t) 19

/-- MODE of timer `t`; 3 acts as 0 (R405). -/
def State.tmrMode (s : State) (t : Nat) : Nat := s.fld (Reg.TMR_T_CTRL t) Fd.TMR_T_CTRL_MODE % 3

/-- MATCH and OVF set their event bits and are published on MTINE, one event for both together (R405). -/
def State.tmrRaise (s : State) (t : Nat) (hit ovf : Bool) : State :=
  let s := if hit then s.setBit (Reg.TMR_T_EVT t) 0 else s
  let s := if ovf then s.setBit (Reg.TMR_T_EVT t) 1 else s
  let c := Reg.TMR_T_CFG t
  s.publishIf ((hit && s.bitAt c 15) || (ovf && s.bitAt c 14)) (s.fld c Fd.TMR_T_CFG_MTINE)

/-- The counter advances once: it counts up and wraps, or in MODE 1 and 2 goes from MATCH to 0; reaching MATCH raises MATCH,
latches the staged MATCH and in MODE 2 clears RUN; a wrap raises OVF (R405, R408). -/
def State.tmrStep (s : State) (t : Nat) : State :=
  let c := s.tmrCnt t
  let m := s.tmrMatch t
  let mode := s.tmrMode t
  let ovf := decide (c = BitVec.allOnes 48)
  let n : BitVec 48 := if mode ≠ 0 ∧ c = m then 0 else c + 1
  let hit := decide (n = m)
  let s := (s.setTmr t n).tmrRaise t hit ovf
  let s := if hit then s.latchMatch t else s
  if hit && decide (mode = 2) then s.clrBit (Reg.TMR_T_CTRL t) 19 else s

/-- A start: PHASE is loaded, RUN is 1 and the staged MATCH latches (R406). -/
def State.tmrLoadPhase (s : State) (t : Nat) : State :=
  let s := s.setTmr t (wide (s.reg (Reg.TMR_T_PHASEHI t)) (s.reg (Reg.TMR_T_PHASELO t)))
  let s := { s with tmr := { s.tmr with pre := Tab.put 0 s.tmr.pre t 0 } }
  (s.latchMatch t).setBit (Reg.TMR_T_CTRL t) 19

/-- CAP copies the counter (R409). -/
def State.tmrCapture (s : State) (t : Nat) : State :=
  let c := s.tmrCnt t
  (s.setReg (Reg.TMR_T_CAPHI t) (c.extractLsb' 24 24)).setReg (Reg.TMR_T_CAPLO t) (c.extractLsb' 0 24)

/-- LOAD sets the counter (R409). -/
def State.tmrSetLd (s : State) (t : Nat) : State :=
  s.setTmr t (wide (s.reg (Reg.TMR_T_LDHI t)) (s.reg (Reg.TMR_T_LDLO t)))

/-- A count event of timer `t`: a waiting start takes it; otherwise every (DIV + 1)th advances the running counter; then a
waiting CAP copies the counter and a waiting LOAD replaces it (R405, R406, R409). -/
def State.countEvent (s : State) (t : Nat) : State :=
  let st := s.tmr.start.getLsbD t
  let cp := s.tmr.cap.getLsbD t
  let ld := s.tmr.load.getLsbD t
  let off := ~~~ (1#16 <<< t)
  let s := { s with tmr := { s.tmr with start := s.tmr.start &&& off, cap := s.tmr.cap &&& off, load := s.tmr.load &&& off } }
  let s :=
    if st then s.tmrLoadPhase t
    else if s.tmrRun t then
      let n := Tab.get 0 s.tmr.pre t + 1
      if s.fld (Reg.TMR_T_CTRL t) Fd.TMR_T_CTRL_DIV < n then
        { s with tmr := { s.tmr with pre := Tab.put 0 s.tmr.pre t 0 } }.tmrStep t
      else { s with tmr := { s.tmr with pre := Tab.put 0 s.tmr.pre t n } }
    else s
  let s := if cp then s.tmrCapture t else s
  if ld then (if st then s.tmrErr 3 t else s.tmrSetLd t) else s

/-- Does timer `t` count tine events (CLK 1)? -/
def State.tmrTine (s : State) (t : Nat) : Bool := s.bitAt (Reg.TMR_T_CTRL t) 15

/-- A start is asked for: at once with CLK 0, at the next event on CTINE with CLK 1 (R406). -/
def State.askStart (s : State) (t : Nat) : State :=
  if s.tmrTine t then { s with tmr := { s.tmr with start := s.tmr.start ||| (1#16 <<< t) } } else s.tmrLoadPhase t

/-- A CAP is asked for. -/
def State.askCap (s : State) (t : Nat) : State :=
  if s.tmrTine t then { s with tmr := { s.tmr with cap := s.tmr.cap ||| (1#16 <<< t) } } else s.tmrCapture t

/-- A LOAD is asked for. -/
def State.askLoad (s : State) (t : Nat) : State :=
  if s.tmrTine t then { s with tmr := { s.tmr with load := s.tmr.load ||| (1#16 <<< t) } } else s.tmrSetLd t

/-- STOP clears RUN (R406). -/
def State.tmrStop (s : State) (t : Nat) : State := s.clrBit (Reg.TMR_T_CTRL t) 19

/-- A write of TMR_Tt_CTRL: its fields, then STOP, START, CAP and LOAD. START together with LOAD wins, and LOAD is dropped
with cause 3 (R409). -/
def State.writeTmrCtrl (s : State) (t : Nat) (v : Word) : State :=
  let s := s.plainWrite (Reg.TMR_T_CTRL t) v
  let s := if bit v 22 then s.tmrStop t else s
  let s := if bit v 23 then s.askStart t else s
  let s := if bit v 21 then s.askCap t else s
  if bit v 20 then (if bit v 23 && !s.tmrTine t then s.tmrErr 3 t else s.askLoad t) else s

def execTimerStart (req : Req) (t : Fin 16) (s : State) : Out :=
  .next (s.regCmd req.val (Reg.TMR_T_CTRL t.val) (fun s => s.askStart t.val))

def execTimerStop (req : Req) (t : Fin 16) (s : State) : Out :=
  .next (s.regCmd req.val (Reg.TMR_T_CTRL t.val) (fun s => s.tmrStop t.val))

def execTimerCap (req : Req) (t : Fin 16) (s : State) : Out :=
  .next (s.regCmd req.val (Reg.TMR_T_CTRL t.val) (fun s => s.askCap t.val))

def execTimerLoad (req : Req) (t : Fin 16) (s : State) : Out :=
  .next (s.regCmd req.val (Reg.TMR_T_CTRL t.val) (fun s => s.askLoad t.val))

/-- DIV + 1 ticks have passed for a running timer with CLK 0: the counter advances (R405). While the timers are frozen the
counters hold (R463). -/
def execTimerAdvance (t : Fin 16) (s : State) : Out :=
  .next (if s.tmrRun t.val && !s.tmrTine t.val && !s.frozen 0 then s.tmrStep t.val else s)

/-! ## Group start -/

/-- The lowest timer named that makes the group start fail: not owned by plot `p`, CLK 1, or another DIV than the lowest
timer named (R407). -/
def State.gstartBad (s : State) (p mask : Nat) : Option Nat :=
  let ts := (List.range 16).filter (fun t => mask / 2 ^ t % 2 == 1)
  match ts with
  | [] => none
  | t0 :: _ =>
    let div (t : Nat) : Nat := s.fld (Reg.TMR_T_CTRL t) Fd.TMR_T_CTRL_DIV
    ts.find? (fun t => s.ownerRes 6 t != p || s.tmrTine t || div t != div t0)

/-- A write of TMR_GSTART_p with GO: the timers in MASK start on the same count event, or the whole write is dropped with
cause 2 (R407). -/
def State.gstart (s : State) (p mask : Nat) : State :=
  match s.gstartBad p mask with
  | some t => s.tmrErr 2 t
  | none => forN 16 (fun t s => if mask / 2 ^ t % 2 = 1 then s.tmrLoadPhase t else s) s

def execGstart (req : Req) (p : Fin 8) (mask : BitVec 16) (s : State) : Out :=
  .next (s.regCmd req.val (Reg.TMR_GSTART p.val) (fun s => s.gstart p.val mask.toNat))

/-! ## Tine events -/

/-- An event on STINE of timer `t`: a start, or OVR while RUN is 1 (R406). -/
def State.tmrStartTine (s : State) (t c : Nat) : State :=
  let g := Reg.TMR_T_CFG t
  if s.bitAt g 23 && s.fld g Fd.TMR_T_CFG_STINE == c then
    if s.tmrRun t then s.setBit (Reg.TMR_T_EVT t) 2 else s.askStart t
  else s

/-- An event on CTINE of timer `t`: it counts, or, within the handshake of the event before it, sets OVR and is not counted (R410).
The handshake of the input is over with the next tick of the timebase (DESIGN CHOICE, log entry 119). -/
def State.tmrCountTine (s : State) (t : Nat) : State :=
  if s.tmr.busy.getLsbD t then s.setBit (Reg.TMR_T_EVT t) 2
  else State.countEvent { s with tmr := { s.tmr with busy := s.tmr.busy ||| (1#16 <<< t) } } t

/-- An event on tine `c` reaches the timers: it counts for those with CLK 1 on CTINE, and starts those with STEN on STINE
(R405, R406). While the timers are frozen, counters and events hold (R463). -/
def State.tmrTineEvent (s : State) (c : Nat) : State :=
  if s.frozen 0 then s
  else forN 16 (fun t s =>
    let s' := if s.tmrTine t && s.fld (Reg.TMR_T_CTRL t) Fd.TMR_T_CTRL_CTINE == c then s.tmrCountTine t else s
    s'.tmrStartTine t c) s

end Sys2Proof.Machine
end

