-- ==== Sys2Proof/Machine/Drill.lean ====
section
/-! DEFINITION. The Drill's channels (R412 to R420, R422): GO, blocks, grants, disable. The burst itself moves words over
the bus and stands in Machine/Bursts.lean. -/
namespace Sys2Proof.Machine

/-- Count a Drill error with its cause and channel (R422). -/
def State.drlErr (s : State) (cause c : Nat) : State := (s.err 5 cause).setFld Reg.DRL_LASTERR Fd.DRL_LASTERR_CHAN c

/-- Whether the source and the destination of channel `c` have gone past the address space (R473). -/
def State.drlPast (s : State) (c : Nat) (src dst : Bool) : State :=
  let b := 1#32 <<< c
  { s with drl := { s.drl with srcPast := if src then s.drl.srcPast ||| b else s.drl.srcPast &&& ~~~ b,
                               dstPast := if dst then s.drl.dstPast ||| b else s.drl.dstPast &&& ~~~ b } }

/-- The staged block becomes the active block (R416). -/
def State.drlLatch (s : State) (c : Nat) : State :=
  let s := ((s.latch (Reg.DRL_CH_SRC c)).latch (Reg.DRL_CH_DST c)).latch (Reg.DRL_CH_COUNT c)
  let s := s.setEff (Reg.DRL_CH_XCFG c) (s.reg (Reg.DRL_CH_XCFG c))
  let s := s.setReg (Reg.DRL_CH_ASRC c) (s.reg (Reg.DRL_CH_SRC c))
  let s := s.setReg (Reg.DRL_CH_ADST c) (s.reg (Reg.DRL_CH_DST c))
  let s := s.drlPast c false false
  (s.setReg (Reg.DRL_CH_ACNT c) (s.reg (Reg.DRL_CH_COUNT c))).setBit (Reg.DRL_CH_CTRL c) 21

/-- A staged 28-bit address: its segment and its word. -/
def State.drlAddr (s : State) (a seg : Nat) : Nat := seg * 2 ^ 24 + (s.reg a).toNat

/-- Do the staged ranges overlap, both incrementing and both in field memory (R417)? -/
def State.drlOverlaps (s : State) (c : Nat) : Bool :=
  let src := s.drlAddr (Reg.DRL_CH_SRC c) (s.fld (Reg.DRL_CH_XCFG c) Fd.DRL_CH_XCFG_SSEG)
  let dst := s.drlAddr (Reg.DRL_CH_DST c) (s.fld (Reg.DRL_CH_XCFG c) Fd.DRL_CH_XCFG_DSEG)
  let n := (s.reg (Reg.DRL_CH_COUNT c)).toNat
  s.bitAt (Reg.DRL_CH_CFG c) 6 && s.bitAt (Reg.DRL_CH_CFG c) 5 && decide (src + n ≤ fieldWords)
    && decide (dst + n ≤ fieldWords) && decide (src < dst + n) && decide (dst < src + n)

/-- GO: with COUNT 0 it is dropped with cause 1, while PEND is 1 with cause 2; an idle channel latches the staged block at
once, an active one sets PEND; overlapping ranges are counted (R416, R417, R422). -/
def State.drlGo (s : State) (c : Nat) : State :=
  if s.reg (Reg.DRL_CH_COUNT c) = 0 then s.drlErr 1 c
  else if s.bitAt (Reg.DRL_CH_CTRL c) 20 then s.drlErr 2 c
  else
    let s := if s.drlOverlaps c then (s.bump Reg.DRL_OVLCNT).setBit (Reg.DRL_CH_EVT c) 2 else s
    if s.bitAt (Reg.DRL_CH_CTRL c) 21 then s.setBit (Reg.DRL_CH_CTRL c) 20 else s.drlLatch c

def execDrillGo (req : Req) (c : Fin 32) (s : State) : Out :=
  .next (s.regCmd req.val (Reg.DRL_CH_CTRL c.val) (fun s => s.drlGo c.val))

/-- Take or drop the tine grant of channel `c`. -/
def State.drlGrant (s : State) (c : Nat) (on : Bool) : State :=
  let b := 1#32 <<< c
  { s with drl := { s.drl with grant := if on then s.drl.grant ||| b else s.drl.grant &&& ~~~ b } }

/-- The channel stops: EN is 0, its block, its staged GO and its grants are discarded; ACNT, ASRC and ADST become free
values (R419). -/
def State.drlStop (s : State) (c : Nat) : State :=
  let s := s.clrReg (Reg.DRL_CH_CTRL c) (wd 0xB00000)
  let s := s.drlGrant c false
  let s := (s.setReg (Reg.DRL_CH_ASRC c) (Config.freeValue s.freeCtr)).useFree
  let s := (s.setReg (Reg.DRL_CH_ADST c) (Config.freeValue s.freeCtr)).useFree
  (s.setReg (Reg.DRL_CH_ACNT c) (Config.freeValue s.freeCtr)).useFree

def execDrillDisable (req : Req) (c : Fin 32) (s : State) : Out :=
  .next (s.regCmd req.val (Reg.DRL_CH_CTRL c.val) (fun s => s.drlStop c.val))

/-- A write of DRL_CHc_CTRL: EN and PRI, then GO (R416, R419). -/
def State.writeDrlCtrl (s : State) (c : Nat) (v : Word) : State :=
  if !bit v 23 then
    let s := s.setFld (Reg.DRL_CH_CTRL c) Fd.DRL_CH_CTRL_PRI (getF v Fd.DRL_CH_CTRL_PRI)
    s.drlStop c
  else
    let s := s.plainWrite (Reg.DRL_CH_CTRL c) v
    if bit v 22 then s.drlGo c else s

/-- The last write of the active block is acknowledged: BLKCNT counts, DONE is set and published, a grant for the block is
used up, and the staged block latches where PEND is 1 (R415, R416). -/
def State.drlBlockDone (s : State) (c : Nat) : State :=
  if s.bitAt (Reg.DRL_CH_CTRL c) 21 && decide (s.reg (Reg.DRL_CH_ACNT c) = 0) then
    let n := s.reg (Reg.DRL_CH_BLKCNT c)
    let s := s.setReg (Reg.DRL_CH_BLKCNT c) (n + 1)
    let s := if n = 0xFFFFFF then s.setBit (Reg.DRL_CH_EVT c) 3 else s
    let s := (s.setBit (Reg.DRL_CH_EVT c) 0).perf 21 1
    let g := Reg.DRL_CH_CFG c
    let s := s.publishIf (s.bitAt g 15) (s.fld g Fd.DRL_CH_CFG_ETINE)
    let s := if s.bitAt g 7 then s.drlGrant c false else s
    if s.bitAt (Reg.DRL_CH_CTRL c) 20 then (s.clrBit (Reg.DRL_CH_CTRL c) 20).drlLatch c
    else s.clrBit (Reg.DRL_CH_CTRL c) 21
  else s

def execDrillBlockDone (c : Fin 32) (s : State) : Out := .next (s.drlBlockDone c.val)

/-- An event on tine `t` grants the channels that it paces; one that arrives while a grant is unused sets OVR (R415). -/
def State.drlTineEvent (s : State) (t : Nat) : State :=
  forN 32 (fun c s =>
    let g := Reg.DRL_CH_CFG c
    if s.bitAt (Reg.DRL_CH_CTRL c) 23 && s.bitAt g 23 && s.fld g Fd.DRL_CH_CFG_TTINE == t then
      if s.drl.grant.getLsbD c then (s.setBit (Reg.DRL_CH_EVT c) 1).perf 21 3 else s.drlGrant c true
    else s) s

end Sys2Proof.Machine
end

