-- ==== Sys2Proof/Machine/Reset.lean ====
section
/-! DEFINITION. What the resets of R447 leave, the loss of a domain (R445), and the wake sources (R448). -/
namespace Sys2Proof.Machine

/-! ## Scopes -/

/-- Registers that only a power-on reset returns to their reset values: those in PD0 (R24, R305, R450, R451). -/
def inPD0 (a : Nat) : Bool :=
  (decide (Reg.PWR_STATECMD ≤ a) && decide (a ≤ Reg.PWR_STATECMD + 4)) ||
  (decide (Reg.DBG_CTRL ≤ a) && decide (a ≤ Reg.DBG_CTRL + 3)) ||
  (decide (Reg.STW_MCHK ≤ a) && decide (a ≤ Reg.STW_MCHKCNT)) ||
  (decide (0x8130000 ≤ a) && decide (a < 0x8140000))

/-- Registers that no reset changes: they show the identity store and the image selection (R351, R352, R355, R360). -/
def neverReset (a : Nat) : Bool :=
  a == Reg.SEC_CTRL || a == Reg.SEC_ARB || a == Reg.GRN_IMGSEL ||
  (decide (Reg.SEC_PKGEN 0 ≤ a) && decide (a ≤ Reg.SEC_PKGEN 7)) ||
  (decide (Reg.SEC_PUBKEY 0 ≤ a) && decide (a ≤ Reg.SEC_PUBKEY 21)) ||
  (decide (Reg.SEC_OPROOT 0 ≤ a) && decide (a ≤ Reg.SEC_OPROOT 10))

/-- A page write cut by a loss of power or by a reset leaves all of the old words or all of the new ones: which, a free
value says (R12, R347). -/
def State.cutGranary (s : State) : State :=
  match s.grn with
  | [] => s
  | j :: _ =>
    let done := bit (Config.freeValue s.freeCtr) 0
    let s := { s.useFree with grn := [] }
    if done then (j.words.zipIdx).foldl (fun s x => s.setGran (256 * j.page + x.2) x.1) s else s

/-- SEC_STAT after a reset: OPSET is kept with the identity store (R351). -/
def State.keptStat (s : State) : Word := s.reg Reg.SEC_STAT &&& oneBit 21

/-- Everything except what PD0 keeps and the nonvolatile stores returns to its reset value (R447, "External"); RSTCAUSE
records kind `k` (bit of R450). A debug session ends, since the scope covers PD1 (R451). -/
def State.externalScope (s0 : State) (k : Nat) : State :=
  let s := s0.cutGranary
  let stat := s.keptStat
  let off := s.reg Reg.STW_UCSTAT &&& oneBit 17
  let was := s.bitAt Reg.DBG_CTRL 23
  let s : State :=
    { pending := s.pending, regs := s.regs.keep (fun a => inPD0 a || neverReset a),
      eff := s.eff.keep (fun a => decide (0x8130000 ≤ a) && decide (a < 0x8140000)),
      gran := s.gran, freeCtr := s.freeCtr, resp := s.resp, pads := s.pads, acw := s.acw, sec := s.sec, uc := s.uc.keptChecks,
      pwr := { pd0Runs := s.pwr.pd0Runs, tripped := s.pwr.tripped, hot := s.pwr.hot } }
  let s := s.setReg Reg.SEC_STAT stat
  let s := s.setReg Reg.STW_UCSTAT off
  let s := s.setReg Reg.PWR_RSTCAUSE (oneBit k)
  let s := s.clrReg Reg.PWR_STAT (wd 0xE00000)
  if was then (s.clrBit Reg.DBG_CTRL 23).setBit Reg.DBG_EVT 1 else s

/-- A power-on reset: everything but the nonvolatile stores (R447). -/
def State.powerOnScope (s0 : State) : State :=
  let s := s0.cutGranary
  let stat := s.keptStat
  let s : State :=
    { pending := s.pending, regs := s.regs.keep neverReset, gran := s.gran, freeCtr := s.freeCtr, resp := s.resp,
      pads := { level := s.pads.level }, sec := s.sec }
  s.setReg Reg.SEC_STAT stat

/-! ## Loss of a domain -/

/-- Is the register at `a` one of domain `d`? PWR_DOMSTAT and PWR_DOMCTRL are PD0's. -/
def ofDomain (d a : Nat) : Bool :=
  match regionOf a with
  | .window w o => domOfReg w o == d
  | _ => false

/-- The registers of domain `d` are lost (R445). -/
def State.loseRegs (s : State) (d : Nat) : State := s.resetRegs (ofDomain d)

/-! ## Wake sources -/

/-- What the override inputs keep in Dormant and over the wake (R24, R222): all but the instants of the channels' changes, of a timebase
that is gone. -/
def State.keptFilters (s : State) : Tab OvSt :=
  s.sup.ov.foldl (fun t e => Tab.put {} t e.1 { e.2 with ta := 0, tb := 0 }) []

/-- A wake source fires (R448): WAKE and WAKECAUSE are set; in Dormant a wake starts, which is a reset of its own kind; during
a Dormant entry after its commit the firing is held. -/
def State.wakeFire (s : State) (cause : Nat) : State :=
  if s.pwr.dormant then
    let s := s.setFld Reg.PWR_STAT Fd.PWR_STAT_WAKECAUSE cause
    { s.externalScope 17 with sup := { ov := s.keptFilters } }
  else
    let s := (s.setBit Reg.PWR_EVT 0).setFld Reg.PWR_STAT Fd.PWR_STAT_WAKECAUSE cause
    match s.pwr.target with
    | some (2, _) => { s with pwr := { s.pwr with wakeHeld := some cause } }
    | _ => s

end Sys2Proof.Machine
end

