-- ==== Sys2Proof/Machine/Pins.lean ====
section
/-! DEFINITION. The GPIO bank (R425 to R431, R439): pad levels, owners bit by bit, outputs, the pin filter. -/
namespace Sys2Proof.Machine

/-- Count a GPO error with its cause and pin (R439). -/
def State.gpoErr (s : State) (cause n : Nat) : State := (s.err 14 cause).setFld Reg.GPO_LASTERR Fd.GPO_LASTERR_PIN n

/-- The level at the pad of Gn: GPO_OUT where the pin drives as GPIO, else the level from outside (R430). -/
def State.padLevel (s : State) (n : Nat) : Bool :=
  let c := Reg.GPO_PIN_CFG n
  if s.bitAt c 22 && !s.bitAt c 23 && s.dom 19 then s.bitAt (Reg.GPO_OUT (n / 24)) (n % 24)
  else s.pads.level.getLsbD n

/-- May requester `r` read (or write) the bit of pin `n` in a shared word (R429, R430)? A pin of the security unit has no
owner; a pin handed to a core is written by its own port only. -/
def State.pinMay (s : State) (r n : Nat) (write : Bool) : Bool :=
  !s.secPin n && !(write && s.pinToCore n) &&
    (decide (16 ≤ r) || (if s.pinToCore n then s.coreOwnsPin r n else s.ownerRes 7 n == s.corePlot r))

/-- The bits of word `k` that requester `r` may touch. -/
def State.pinMask (s : State) (r k : Nat) (write : Bool) : Word :=
  forN 24 (fun i m => if s.pinMay r (24 * k + i) write then m ||| oneBit i else m) 0

/-- GPO_IN_k as requester `r` reads it (R430). -/
def State.gpoIn (s : State) (r k : Nat) : Word :=
  (forN 24 (fun i m => if s.padLevel (24 * k + i) then m ||| oneBit i else m) 0) &&& s.pinMask r k false

/-- A write of shared bits: `bits` are the bits concerned, and bits that the writer may not write are dropped, the write
counting once with cause 2 (R430). -/
def State.sharedBits (s : State) (r k : Nat) (bits : Word) (f : State → Word → State) : State :=
  let may := s.pinMask r k true
  let bad := bits &&& ~~~ may
  let s := f s (bits &&& may)
  if bad = 0 then s
  else s.gpoErr 2 (24 * k + ((List.range 24).find? (fun i => bit bad i)).getD 0)

/-- A write of GPO_OUT_k: the bits whose level it changes. -/
def State.writeOut (s : State) (r k : Nat) (v : Word) : State :=
  s.sharedBits r k (v ^^^ s.reg (Reg.GPO_OUT k)) (fun s b => s.setReg (Reg.GPO_OUT k) (s.reg (Reg.GPO_OUT k) ^^^ b))

/-- A write of GPO_OUTSET_k (R430). -/
def State.writeOutset (s : State) (r k : Nat) (v : Word) : State :=
  s.sharedBits r k v (fun s b => s.orReg (Reg.GPO_OUT k) b)

/-- A write of GPO_OUTCLR_k (R430). -/
def State.writeOutclr (s : State) (r k : Nat) (v : Word) : State :=
  s.sharedBits r k v (fun s b => s.clrReg (Reg.GPO_OUT k) b)

/-- A write of GPO_EVT_k (R431, R439). -/
def State.writePinEvt (s : State) (r k : Nat) (v : Word) : State :=
  s.sharedBits r k v (fun s b => s.clrReg (Reg.GPO_EVT k) b)

def execGpoOutset (req : Req) (k : Fin 2) (v : Word) (s : State) : Out :=
  .next (s.regCmd req.val (Reg.GPO_OUTSET k.val) (fun s => s.writeOutset req.val k.val v))

def execGpoOutclr (req : Req) (k : Fin 2) (v : Word) (s : State) : Out :=
  .next (s.regCmd req.val (Reg.GPO_OUTCLR k.val) (fun s => s.writeOutclr req.val k.val v))

/-- Has pin `n` an alternate function (R426)? -/
def hasAlternate (n : Nat) : Bool := decide (n ≤ 22) || (decide (40 ≤ n) && decide (n ≤ 42))

/-- Does the alternate function of pin `n` require plot 0 as owner (R426)? -/
def alternateOfPlot0 (n : Nat) : Bool := decide (n ≤ 10)

/-- A write of GPO_PINn_CFG is dropped with cause 1 for FUNC 1 without an alternate, with cause 2 for a CORE that the pin's
plot does not own or an alternate that another plot must own (R426, R429). -/
def State.writePinCfg (s : State) (n : Nat) (v : Word) : State :=
  let a := Reg.GPO_PIN_CFG n
  if bit v 23 && !hasAlternate n then s.gpoErr 1 n
  else if bit v 23 && alternateOfPlot0 n && s.ownerRes 7 n != 0 then s.gpoErr 2 n
  else if bit v 18 && s.corePlot (getF v Fd.GPO_PIN_CFG_CORE) != s.ownerRes 7 n then s.gpoErr 2 n
  else s.plainWrite a v

/-- The pad of pin `n` works: G40 to G47 always, the others while PD19 is on (R425). -/
def State.padOn (s : State) (n : Nat) : Bool := decide (40 ≤ n) || s.dom 19

/-- Does the edge to `level` make an event under IRQM (R431)? -/
def irqmTakes (m : Nat) (level : Bool) : Bool := m == 3 || (m == 1 && level) || (m == 2 && !level)

/-- A pin change has held for its filter time (R431): the filtered level changes; an edge that IRQM selects sets GPO_EVT; a
pin of the security unit sets SEC_EVT (R429: which of its bits, a free value says); an enabled pin of G40 to G47 with FUNC 0
wakes (R448). -/
def State.pinFiltered (s : State) (n : Nat) (level : Bool) : State :=
  let b := 1#48 <<< n
  let put (w : BitVec 48) : BitVec 48 := if level then w ||| b else w &&& ~~~ b
  let old := s.pads.filt.getLsbD n
  if !s.padOn n || old == level then s
  else
    let s := { s with pads := { s.pads with level := put s.pads.level, filt := put s.pads.filt } }
    let c := Reg.GPO_PIN_CFG n
    let s := if s.dom 19 && irqmTakes (s.fld c Fd.GPO_PIN_CFG_IRQM) level then s.setBit (Reg.GPO_EVT (n / 24)) (n % 24) else s
    let s := if s.secPin n then (s.orReg Reg.SEC_EVT (Config.freeValue s.freeCtr &&& 7)).useFree else s
    if decide (40 ≤ n) && !s.bitAt c 23 && s.bitAt Reg.PWR_WAKECFG (n - 40) then s.wakeFire 5 else s

def execPinFilter (n : Fin 48) (level : Bool) (s : State) : Out := .next (s.pinFiltered n.val level)

end Sys2Proof.Machine
end

