-- ==== Sys2Proof/Machine/Granary.lean ====
section
/-! DEFINITION. The Granary control block (R346 to R348, R360): the page buffer, GO, the two ports, programming. -/
namespace Sys2Proof.Machine

/-- STAT shows the Steward port: BUSY while its page is programmed, QUEUED while it waits for the other port (R360). -/
def State.settleGrn (s : State) : State :=
  let busy := (s.grn.head?.map (fun j => !j.sup)).getD false
  let queued := (s.grn.drop 1).any (fun j => !j.sup)
  (s.putBit Reg.GRN_STAT 23 busy).putBit Reg.GRN_STAT 22 queued

/-- Has the Steward port a page write queued or programming? -/
def State.grnPortBusy (s : State) : Bool := s.grn.any (fun j => !j.sup)

/-- Is the page in GRN_PROT: in the slot named by ACT or in the slot that booted (R348)? -/
def State.grnProtected (s : State) (page : Nat) : Bool :=
  decide (page < 0x2000) && (decide (page / 0x1000 = s.fld Reg.GRN_IMGSEL Fd.GRN_IMGSEL_ACT)
    || decide (page / 0x1000 = s.fld Reg.SEC_STAT Fd.SEC_STAT_BOOTSLOT))

/-- A write to GRN_BUF, dropped with cause 2 from GO until the port's write has completed (R347). -/
def State.writeGrnBuf (s : State) (i : Nat) (v : Word) : State :=
  if s.grnPortBusy then s.err 13 2 else s.setReg (Reg.GRN_BUF i) v

def execGrnBufWrite (req : Req) (i : BitVec 8) (v : Word) (s : State) : Out :=
  .next (s.regCmd req.val (Reg.GRN_BUF i.toNat) (fun s => s.writeGrnBuf i.toNat v))

/-- GO for a page: dropped with cause 1 while the port is busy, refused with cause 3 for a protected page, else queued with
the buffer's words (R347). -/
def State.grnGo (s : State) (page : Nat) : State :=
  if s.grnPortBusy then s.err 13 1
  else if s.grnProtected page then s.err 13 3
  else
    let ws := (List.range 256).map (fun i => s.reg (Reg.GRN_BUF i))
    let s := s.setReg Reg.GRN_CMD (wd page)
    State.settleGrn { s with grn := s.grn ++ [⟨false, page, ws⟩] }

/-- A write of GRN_CMD: with GO as above, without it PAGE alone. -/
def State.writeGrnCmd (s : State) (v : Word) : State :=
  let page := getF v Fd.GRN_CMD_PAGE
  if bit v 23 then s.grnGo page else s.setReg Reg.GRN_CMD (wd page)

def execGrnGo (req : Req) (v : Word) (s : State) : Out :=
  .next (s.regCmd req.val Reg.GRN_CMD (fun s => s.grnGo (getF v Fd.GRN_CMD_PAGE)))

/-- The words of a page job reach the Granary's array. -/
def State.programPage (s : State) (j : GrnJob) : State :=
  (j.words.zipIdx).foldl (fun s x => s.setGran (256 * j.page + x.2) x.1) s

/-- Programming of the page at the head ends, for the port that `sup` names (R347). -/
def State.endProgram (s : State) (sup ok : Bool) : State :=
  match s.grn with
  | [] => s
  | j :: js =>
    if j.sup != sup then s
    else
      let s := if ok then s.programPage j else s.err 13 4
      { s with grn := js }.settleGrn

/-- The Steward port's page is programmed: DONE, or ERR with cause 4 (R347). -/
def State.grnProgrammed (s : State) (ok : Bool) : State :=
  if ok then (s.endProgram false ok).setBit Reg.GRN_EVT 0 else s.endProgram false ok

end Sys2Proof.Machine
end

