-- ==== Sys2Proof/Machine/NightRound.lean ====
section
/-! DEFINITION. The night round (R223 to R232): start, steps, results, abort, outcome and log page. -/
namespace Sys2Proof.Machine

/-- Count an error of the supervision unit with its cause and its offset or slot (R240). -/
def State.supErr (s : State) (cause ofs : Nat) : State := (s.err 10 cause).setFld Reg.SUP_LASTERR Fd.SUP_LASTERR_OFS ofs

/-- The plot that owns SUP_EVT (R232). -/
def State.supPlot (s : State) : Nat := s.ownerRes 14 0

/-- SUP_NRSTAT.STATE. -/
def State.nrState (s : State) : Nat := s.fld Reg.SUP_NRSTAT Fd.SUP_NRSTAT_STATE

/-- Set SUP_NRSTAT.STATE. -/
def State.setNrState (s : State) (n : Nat) : State := s.setFld Reg.SUP_NRSTAT Fd.SUP_NRSTAT_STATE n

/-- Change the night round. -/
def State.updNr (s : State) (f : NrSt → NrSt) : State := { s with sup := { s.sup with nr := f s.sup.nr } }

/-- The registers that a round reads at its start (R240). -/
def nrRegs : List Nat :=
  [Reg.SUP_NRMASK0, Reg.SUP_NRMASK1, Reg.SUP_NRTIME, Reg.SUP_NRAC, Reg.SUP_LOGBASE, Reg.SUP_LOGCFG]

/-- The registers that a step of channel `c` reads at its start (R240). -/
def chRegs (c : Nat) : List Nat :=
  [Reg.SUP_CH_CFG c, Reg.SUP_CH_KZ c, Reg.SUP_CH_ZMIN c, Reg.SUP_CH_ZMAX c, Reg.SUP_CH_PHWIN c, Reg.SUP_CH_ACCFG c]

/-- The fail bit of channel `c` lies in this register at this bit. -/
def nrFailReg (c : Nat) : Nat := if c < 24 then Reg.SUP_NRFAIL0 else Reg.SUP_NRFAIL1

/-- A failing result of channel `c` is known: its bit and CHFAIL are set and the holder is told, once in a round (R230, R232). -/
def State.chFail (s : State) (c : Nat) : State :=
  if s.bitAt (nrFailReg c) (c % 24) then s
  else ((s.setBit (nrFailReg c) (c % 24)).setBit Reg.SUP_EVT 11).safety s.supPlot 4 c 0

/-- The outcome of the round (R230): 1 PASS, 2 FAIL, 3 ABORTED. -/
def State.nrOutcome (s : State) (aborted : Bool) : Nat :=
  if aborted then 3 else if s.reg Reg.SUP_NRFAIL0 = 0 ∧ s.reg Reg.SUP_NRFAIL1 = 0 then 1 else 2

/-- The log page of the round (R231). -/
def State.logPage (s : State) : List Word :=
  let nr := s.sup.nr
  let ms := (s.timebase.toNat - nr.start) / 250000
  let head : List Word :=
    [wd (0x100000 + s.fld Reg.SUP_NRSTAT Fd.SUP_NRSTAT_OUTCOME * 2 ^ 18 + s.fld Reg.SUP_NRNUM Fd.SUP_NRNUM_NUM),
     wd (nr.start / 2 ^ 48), wd (nr.start / 2 ^ 24), wd nr.start, wd ms, nr.set.getD 0 0, nr.set.getD 1 0, 0]
  let chans := (List.range 32).flatMap (fun c =>
    [s.reg (Reg.SUP_CH_ZMAG c), s.reg (Reg.SUP_CH_RES c), s.reg (Reg.SUP_CH_ACRES c), 0])
  head ++ chans ++ List.replicate 120 0

/-- The round ends: OUTCOME, NRDONE, the report of a FAIL or an ABORTED, and the log page where logging is on (R230 to
R232). -/
def State.nrEnd (s : State) (aborted : Bool) : State :=
  let o := s.nrOutcome aborted
  let s := (s.setFld Reg.SUP_NRSTAT Fd.SUP_NRSTAT_OUTCOME o).setBit Reg.SUP_EVT 10
  let s := if o = 1 then s else s.safety s.supPlot (o + 4) (s.fld Reg.SUP_NRNUM Fd.SUP_NRNUM_NUM) 0
  let cfg := s.sup.nr.set.getD 5 0
  let len := getF cfg Fd.SUP_LOGCFG_LEN
  let s := if bit cfg 23 then
      let page := ((s.sup.nr.set.getD 4 0).toNat + s.fld Reg.SUP_NRNUM Fd.SUP_NRNUM_NUM % max 1 len) % 2 ^ 14
      (State.settleGrn { s with grn := s.grn ++ [⟨true, page, s.logPage⟩] }).setNrState 3
    else s.setNrState 0
  s.updNr (fun n => { n with imp := [], ac := [], phase := 0 })

/-! ## The pilot and the test tone -/

/-- Samples of the audio engine in a millisecond. -/
def State.msSamples (s : State) : Nat := s.audFs / 1000

/-- The samples from the start of the present step to the end of each of its four phases (R226, R228). -/
def State.nrEnds (s : State) : List Nat :=
  let ms := s.msSamples
  let time := s.sup.nr.set.getD 2 0
  if s.nrState = 1 then
    let settle := 10 + getF time Fd.SUP_NRTIME_SETTLE
    let int := Nat.min 10 (Nat.max 1 (getF time Fd.SUP_NRTIME_INT))
    [10 * ms, settle * ms, (settle + 100 * int) * ms, (settle + 100 * int + 10) * ms]
  else
    let d := 10 * getF (s.sup.nr.set.getD 3 0) Fd.SUP_NRAC_ACDUR
    [d * ms, (d + 60) * ms, (2 * d + 60) * ms, (2 * d + 70) * ms]

/-- The pilot or test tone of the present step, which begins at index `k`: the pilot at −40 dBFS peak through all four phases, and none at
48 kHz (R226); the 21.0 kHz tone from the end of the first phase (R228). -/
def State.nrToneOf (s : State) (c k : Nat) : Option NrTone :=
  let e := s.nrEnds
  if s.nrState = 2 then
    some { chan := c, freq := 21000, amp := 8388607 * Fixed.pow10 (-(getF (s.sup.nr.set.getD 3 0) Fd.SUP_NRAC_ACLVL : Int)) 40,
           rise := k + e.getD 0 0, fall := k + e.getD 2 0 }
  else if s.bitAt Reg.AUD_CTRL 1 then
    some { chan := c, freq := 10 * getF (s.sup.nr.cfg.getD 0 0) Fd.SUP_CH_CFG_PF, amp := (8388607 * Fixed.one).fdiv 100,
           rise := k, fall := k + e.getD 2 0 }
  else none

/-- The level of a tone at index `k`, as a fraction: it rises and falls over `n` samples, by a raised cosine (R226). -/
def NrTone.level (t : NrTone) (n k : Nat) : Int :=
  let c (i : Nat) : Int := Fixed.cos32 (i * 2 ^ 31 / Nat.max 1 n)
  if k < t.rise ∨ t.fall + n ≤ k then 0
  else if t.fall ≤ k then (t.top * (Fixed.one + c (k - t.fall))).fdiv (2 * Fixed.one)
  else if k < t.rise + n then (Fixed.one - c (k - t.rise)).fdiv 2
  else Fixed.one

/-- The sample of a tone at index `k`, rounded down or up by a free value. -/
def State.toneSample (s : State) (t : NrTone) (k : Nat) : Int × State :=
  let l := t.level (10 * s.msSamples) k
  if l = 0 then (0, s)
  else
    let p := t.freq * (k - t.rise) % s.audFs * 2 ^ 32 / s.audFs + Config.pilotPhase.toNat
    let y := ((t.amp * l).fdiv Fixed.one * Fixed.sin32 p).fdiv (Fixed.one * Fixed.one)
    let (d, s) := s.freeIn 0 1
    (y + d, s)

/-- Is the pilot or tone of output `o` on at index `k`, or falling? -/
def State.nrToneOn (s : State) (o k : Nat) : Option NrTone :=
  match s.sup.nr.tone with
  | none => none
  | some t => if t.chan = o ∧ k < t.fall + 10 * s.msSamples then some t else none

/-! ## The sums (R227, R228) -/

/-- The input or analog source that a sense field names: TDM input slots 0 to 31, then SNS0 to SNS3. -/
def senseOf (xs sns : List Int) (j : Nat) : Int := if j < 32 then xs.getD (64 + j) 0 else sns.getD (j - 32) 0

/-- `x` times e^(−j2πp / 2^32) is added to a sum. -/
def sumStep (x : Int) (p : Nat) (re im : Int) : Int × Int := (re + x * Fixed.cos32 p, im - x * Fixed.sin32 p)

/-- The inputs of index `k` enter the sums of the present step. A TDM input of index `k` was taken in frame k − AHEAD, as was the SNS
sample beside it (R179, R227). -/
def State.nrTake (s : State) (k : Nat) (xs sns : List Int) : State :=
  let nr := s.sup.nr
  let e := s.nrEnds
  let (a, b, c, d) := nr.acc
  if s.nrState = 1 then
    let m := k - s.audAhead
    let lo := nr.at0 + e.getD 1 0
    if !s.bitAt Reg.AUD_CTRL 1 ∨ m < lo ∨ nr.at0 + e.getD 2 0 ≤ m then s
    else
      let cfg := nr.cfg.getD 0 0
      let p := 10 * getF cfg Fd.SUP_CH_CFG_PF * (m - lo) % s.audFs * 2 ^ 32 / s.audFs
      let v := sumStep (senseOf xs sns (getF cfg Fd.SUP_CH_CFG_VSRC)) p a b
      let i := sumStep (senseOf xs sns (getF cfg Fd.SUP_CH_CFG_ISRC)) p c d
      s.updNr (fun n => { n with acc := (v.1, v.2, i.1, i.2) })
  else if s.nrState = 2 then
    let i := k - nr.at0
    let x := xs.getD (getF (nr.cfg.getD 5 0) Fd.SUP_CH_ACCFG_MIC) 0
    let p := 21000 * i % s.audFs * 2 ^ 32 / s.audFs
    if k < nr.at0 then s
    else if i < e.getD 0 0 then
      let t := sumStep x p a b
      s.updNr (fun n => { n with acc := (t.1, t.2, c, d) })
    else if e.getD 1 0 ≤ i ∧ i < e.getD 2 0 then
      let t := sumStep x p c d
      s.updNr (fun n => { n with acc := (a, b, t.1, t.2) })
    else s
  else s

/-- The square of a sum's magnitude. -/
def sumPower (re im : Int) : Nat := (re * re + im * im).toNat

/-- A level in 0.5 dB of a power `p` against `full`: rounded down or up by a free value, and free where there is no power, whose logarithm
does not exist. -/
def State.levelOf (s : State) (p full : Nat) : Int × State :=
  if p = 0 then (signed 24 (Config.freeValue s.freeCtr).toNat, s.useFree)
  else
    let n := Fixed.halfDb p full
    let (d, s) := s.freeIn 0 1
    (n + d, s)

/-! ## Steps in order -/

/-- The step of channel `c` of kind `st` begins: at the next output index, but not before the step before it has ended. -/
def State.nrStep (s : State) (st c : Nat) : State :=
  let k := Nat.max (s.aud.next.getD 0) (s.sup.nr.at0 + (if s.sup.nr.cfg.isEmpty then 0 else s.nrEnds.getD 3 0))
  let s := ((s.setNrState st).setFld Reg.SUP_NRSTAT Fd.SUP_NRSTAT_CH c).updNr
    (fun n => { n with phase := 0, cfg := (chRegs c).map s.reg, at0 := k, acc := (0, 0, 0, 0) })
  let t := s.nrToneOf c k
  s.updNr (fun n => { n with tone := t })

/-- The next step of the round, or its end (R225): impedance steps in ascending order, then acoustic steps of the channels
with ACEN 1. -/
def State.nrNext (s : State) : State :=
  match s.sup.nr.imp with
  | c :: _ => s.nrStep 1 c
  | [] =>
    let left := s.sup.nr.ac.dropWhile (fun c => !s.bitAt (Reg.SUP_CH_ACCFG c) 23)
    match left with
    | c :: _ => (s.updNr (fun n => { n with ac := left })).nrStep 2 c
    | [] => s.nrEnd false

/-- The pilot or tone in progress falls from its present level over 10 ms (R229). -/
def State.toneFalls (s : State) : State :=
  let k := s.aud.next.getD 0
  match s.sup.nr.tone with
  | none => s
  | some t =>
    if t.fall ≤ k then s
    else
      let l := t.level (10 * s.msSamples) k
      s.updNr (fun n => { n with tone := if l = 0 then none else some { t with fall := k, top := l } })

/-- The round in progress is aborted: the channel in progress and every channel not yet measured report ABORTED, and the pilot or
tone falls over 10 ms (R229). -/
def State.nrAbort (s : State) : State :=
  if s.nrState = 1 ∨ s.nrState = 2 then
    let s := s.toneFalls
    let nr := s.sup.nr
    let imp := if s.nrState = 1 ∧ nr.phase = 3 then nr.imp.drop 1 else nr.imp
    let ac := (if s.nrState = 2 ∧ nr.phase = 3 then nr.ac.drop 1 else nr.ac).filter (fun c => s.bitAt (Reg.SUP_CH_ACCFG c) 23)
    let s := imp.foldl (fun s c => (s.setFld (Reg.SUP_CH_RES c) Fd.SUP_CH_RES_ZST 7).chFail c) s
    let s := ac.foldl (fun s c => (s.setFld (Reg.SUP_CH_RES c) Fd.SUP_CH_RES_ACST 7).chFail c) s
    s.nrEnd true
  else s

/-- Is every override input IDLE, no staged message playing and the audio engine running (R224)? -/
def State.nrMayRun (s : State) : Bool :=
  (List.range 8).all (fun n => s.fld (Reg.SUP_OV_STAT n) Fd.SUP_OV_STAT_STATE == 0) &&
    s.fld Reg.SUP_STGSTAT Fd.SUP_STGSTAT_PLAYING == 15 && s.fld Reg.AUD_STAT Fd.AUD_STAT_STATE == 2

/-- A start: dropped with cause 3 while a round runs; else the next round begins, or ends at once as ABORTED (R223, R224). -/
def State.nrStart (s : State) : State :=
  if s.nrState ≠ 0 then s.supErr 3 8
  else
    let n := s.fld Reg.SUP_NRNUM Fd.SUP_NRNUM_NUM
    let s := s.setReg Reg.SUP_NRNUM (wd ((n + 1) % 65536))
    let s := if n = 65535 then s.setBit Reg.SUP_EVT 13 else s
    let s := (s.setReg Reg.SUP_NRFAIL0 0).setReg Reg.SUP_NRFAIL1 0
    let cs := (List.range 32).filter (fun c => s.bitAt (if c < 24 then Reg.SUP_NRMASK0 else Reg.SUP_NRMASK1) (c % 24))
    let ok := s.nrMayRun
    let s := (s.setNrState 1).updNr
      (fun n => { imp := cs, ac := cs, set := nrRegs.map s.reg, start := s.timebase.toNat, tone := n.tone })
    if ok then s.nrNext else s.nrAbort

/-- An event on tine `t` starts a round where TEN is 1 and it is STINE (R223). -/
def State.nrTine (s : State) (t : Nat) : State :=
  if s.bitAt Reg.SUP_NRCTRL 7 && s.fld Reg.SUP_NRCTRL Fd.SUP_NRCTRL_STINE == t && s.dom 16 then s.nrStart else s

/-- A round starts by a write of START, or by an event on a tine, if it is STINE and TEN is 1 (R223). -/
def execNightRoundStart (tine : Option Tine) (req : Req) (s : State) : Out :=
  match tine with
  | some t => .next (s.nrTine t.toNat)
  | none => .next (s.regCmd req.val Reg.SUP_NRCTRL State.nrStart)

def execNightRoundAbort (req : Req) (s : State) : Out := .next (s.regCmd req.val Reg.SUP_NRCTRL State.nrAbort)

/-! ## Results -/

/-- A sum of `n` samples with the power `p` stands for an amplitude of (2 / n) × √p: is it below `e` × −10 dBFS (R227)? -/
def belowDb (p n e : Nat) : Bool := decide (4 * p * 10 ^ e < 2 ^ 46 * n ^ 2 * 2 ^ 128)

/-- The status of an impedance step (R227), the first that applies: `noV` and `noI` say that |V| and |I| lie below −70 dBFS. -/
def zStatus (fast noV noI : Bool) (cfg : List Word) (z : Nat) (ph : Int) : Nat :=
  let win := (cfg.getD 4 0).toNat
  if !fast then 8 else if noV then 6 else if noI then 5
  else if z < (cfg.getD 2 0).toNat then 2 else if (cfg.getD 3 0).toNat < z then 3
  else if ph < signed 12 (win / 4096) ∨ signed 12 win < ph then 4 else 1

/-- ZMAG in 0.01 Ω and ZPH in 0.1° (R227, R240): free values within 1 % and 0.5° of KZ × |V / I| and arg(V / I) where |V| and |I| lie
above −60 dBFS, and free ones where the rule gives no bound. -/
def State.zValues (s : State) (kz n : Nat) : (Nat × Int) × State :=
  let (vr, vi, ir, ii) := s.sup.nr.acc
  let v2 := sumPower vr vi
  let i2 := sumPower ir ii
  let (x, s) := s.freeIn 0 0xFFFFFF
  let y := (Config.freeValue s.freeCtr).toNat
  let s := s.useFree
  if belowDb v2 n 6 ∨ belowDb i2 n 6 then ((x, (y % 3601 : Nat) - 1800), s)
  else
    let z := Fixed.rootOf (kz ^ 2 * v2) i2
    let lo := (99 * z + 99) / 100
    let ph : Int := Fixed.arg (vr * ir + vi * ii) (vi * ir - vr * ii) + (y % 10 : Nat) - 4
    ((Nat.min 0xFFFFFF (lo + x % (101 * z / 100 - lo + 1)), if 1800 < ph then ph - 3600 else if ph < -1800 then ph + 3600 else ph), s)

/-- The result registers of channel `c` (R227, R230). At 48 kHz nothing was sent, and ZST alone is written. -/
def State.zWrite (s : State) (c : Nat) (fast : Bool) (st z : Nat) (ph : Int) : State :=
  let s := if !fast then s
    else
      let s := s.setReg (Reg.SUP_CH_ZMAG c) (wd (if st = 5 then 0xFFFFFF else z))
      s.setFld (Reg.SUP_CH_RES c) Fd.SUP_CH_RES_ZPH (if st = 5 then 0 else (wdI ph).toNat % 4096)
  let s := s.setFld (Reg.SUP_CH_RES c) Fd.SUP_CH_RES_ZST st
  if st = 1 then s else s.chFail c

/-- The integration of an impedance step ends (R226, R227, R230). -/
def State.zResult (s : State) (c : Nat) : State :=
  let fast := s.bitAt Reg.AUD_CTRL 1
  let cfg := s.sup.nr.cfg
  let n := s.nrEnds.getD 2 0 - s.nrEnds.getD 1 0
  let (vr, vi, ir, ii) := s.sup.nr.acc
  let r := s.zValues (cfg.getD 1 0).toNat n
  r.2.zWrite c fast (zStatus fast (belowDb (sumPower vr vi) n 7) (belowDb (sumPower ir ii) n 7) cfg r.1.1 r.1.2) r.1.1 r.1.2

/-- Have all the samples of the step's first `n` come: of its inputs, which a TDM port brings AHEAD frames later, or of its outputs? -/
def State.nrHas (s : State) (n : Nat) : Bool :=
  let k := s.aud.next.getD 0
  decide (s.sup.nr.at0 + n ≤ (if s.nrState = 1 then k - s.audAhead else k))

/-- A timed phase of an impedance step ends, once its samples have come: the third yields the result, the fourth ends the step
(R226). -/
def State.impedancePhase (s : State) : State :=
  if s.nrState ≠ 1 ∨ !s.nrHas (s.nrEnds.getD s.sup.nr.phase 0) then s
  else match s.sup.nr.imp with
    | [] => s
    | c :: cs =>
      let k := s.sup.nr.phase
      let s := if k = 2 then s.zResult c else s
      if k = 3 then (s.updNr (fun n => { n with imp := cs })).nrNext
      else s.updNr (fun n => { n with phase := k + 1 })

def execImpedancePhaseEnd (s : State) : Out := .next s.impedancePhase

/-- The status of an acoustic step from L, B in 0.5 dB and the snapshots (R228). -/
def acStatus (nrac accfg : Word) (l b : Int) : Nat :=
  if l < -(getF accfg Fd.SUP_CH_ACCFG_ACMIN : Int) then 2
  else if l - b < (getF nrac Fd.SUP_NRAC_ACSNR : Int) then 3 else 1

/-- The measurement of an acoustic step ends with L in 0.5 dBFS (R228, R230). -/
def State.acResult (s : State) (c : Nat) (l : Int) : State :=
  let nr := s.sup.nr
  let st := acStatus (nr.set.getD 3 0) (nr.cfg.getD 5 0) l nr.bg
  let s := s.setReg (Reg.SUP_CH_ACRES c)
    (wd ((clampI 0 255 (-l)).toNat * 256 + (clampI 0 255 (l - nr.bg)).toNat))
  let s := s.setFld (Reg.SUP_CH_RES c) Fd.SUP_CH_RES_ACST st
  if st = 1 then s else s.chFail c

/-- The level at 21.0 kHz of a measurement of an acoustic step, in 0.5 dBFS: of the background or of the tone. -/
def State.acLevel (s : State) (tone : Bool) : Int × State :=
  let (br, bi, lr, li) := s.sup.nr.acc
  let n := s.nrEnds.getD 0 0
  s.levelOf (4 * (if tone then sumPower lr li else sumPower br bi)) (2 ^ 46 * n ^ 2 * 2 ^ 128)

/-- A timed phase of an acoustic step ends, once its samples have come: the first yields B, the third L, the fourth ends the step
(R228). -/
def State.acousticPhase (s : State) : State :=
  if s.nrState ≠ 2 ∨ !s.nrHas (s.nrEnds.getD s.sup.nr.phase 0) then s
  else match s.sup.nr.ac with
    | [] => s
    | c :: cs =>
      let k := s.sup.nr.phase
      let s := if k = 0 then
          let (b, s) := s.acLevel false
          s.updNr (fun n => { n with bg := b })
        else if k = 2 then
          let (l, s) := s.acLevel true
          s.acResult c l
        else s
      if k = 3 then (s.updNr (fun n => { n with ac := cs })).nrNext
      else s.updNr (fun n => { n with phase := k + 1 })

def execAcousticPhaseEnd (s : State) : Out := .next s.acousticPhase

/-- The round's log page is written, or the write fails with LOGERR and cause 9 (R231, R232), and the failed programming counts at the
Granary with cause 4 (R347). -/
def execLogWriteDone (ok : Bool) (s : State) : Out :=
  .next (match s.grn.head? with
    | some j =>
      if !j.sup then s
      else
        let s := (if ok then s.programPage j else s)
        let s := (State.settleGrn { s with grn := s.grn.drop 1 }).setNrState 0
        if ok then s else (((s.err 13 4).supErr 9 9).setBit Reg.SUP_EVT 12).safety s.supPlot 5 0 0
    | none => s)

/-! ## Registers -/

/-- Is the value of a write to offset `o` of the SUP window out of its field's range, so that it is dropped with cause 1
(R240)? -/
def State.supRange (s : State) (o : Nat) (v : Word) : Bool :=
  if o = 3 then decide (16320 < getF v Fd.SUP_STGBASE_PAGE)
  else if o = 0xD then
    let l := getF v Fd.SUP_NRAC_ACLVL
    let d := getF v Fd.SUP_NRAC_ACDUR
    decide (l < 40 ∨ 120 < l ∨ d < 5 ∨ 100 < d)
  else if o = 0x11 then
    decide (16384 < getF v Fd.SUP_LOGBASE_PAGE + max 1 (s.fld Reg.SUP_LOGCFG Fd.SUP_LOGCFG_LEN))
  else if 0x40 ≤ o ∧ o < 0x80 ∧ o % 8 = 0 then
    let d := getF v Fd.SUP_OV_CFG_DISC
    decide (d < 1 ∨ 2000 < d)
  else if 0x100 ≤ o ∧ o < 0x300 ∧ o % 16 = 0 then
    let f := getF v Fd.SUP_CH_CFG_PF
    decide (35 < getF v Fd.SUP_CH_CFG_VSRC ∨ 35 < getF v Fd.SUP_CH_CFG_ISRC ∨ f < 2400 ∨ 3200 < f)
  else if 0x100 ≤ o ∧ o < 0x300 ∧ o % 16 = 5 then
    let m := getF v Fd.SUP_CH_ACCFG_MIC
    decide (m < 64 ∨ 115 < m)
  else false

/-- A write of SUP_NRCTRL: TEN and STINE, then START, then ABORT (R223, R229). -/
def State.writeNrCtrl (s : State) (v : Word) : State :=
  let s := s.plainWrite Reg.SUP_NRCTRL v
  let s := if bit v 23 then s.nrStart else s
  if bit v 22 then s.nrAbort else s

end Sys2Proof.Machine
end

