-- ==== Sys2Proof/Machine/Proc.lean ====
section
/-! DEFINITION. The registers of a processor (R244 to R246, R294), halts (R458 to R461), and the ring of an interrupt of a
debug comparator (R462). -/
namespace Sys2Proof.Machine

/-! ## Registers -/

/-- Register W`n`. -/
def ProcSt.reg (p : ProcSt) (n : Nat) : Word := Tab.get 0 p.w n

/-- Set register W`n`. -/
def ProcSt.setW (p : ProcSt) (n : Nat) (v : Word) : ProcSt := { p with w := Tab.put 0 p.w n v }

/-- STATUS bits that exist: N, Z, C, V and the mode bits (R246). -/
def statusMask : Word := 0xF000F0

/-- A STATUS value as processor `p` holds it: no reserved bit, and SUP 1 at the Steward (R246, R293). -/
def statusOf (p : Nat) (v : Word) : Word := (v &&& statusMask) ||| (if p = 16 then 0x80 else 0)

/-- Is the processor in supervisor mode? -/
def ProcSt.sup (x : ProcSt) : Bool := bit x.status 7

/-- The accumulator. -/
def ProcSt.mh (x : ProcSt) : Word := x.acc.extractLsb' 24 24

/-- Its lower word. -/
def ProcSt.ml (x : ProcSt) : Word := x.acc.extractLsb' 0 24

/-- COREID (R246): core number, cluster, owning plot. What it reads at the Steward, R293 does not say: there it is a free
constant (log entry 23). -/
def State.coreId (s : State) (p : Nat) : Word :=
  if p < 16 then wd (p + 16 * (p / 4) + 256 * s.corePlot p) else Config.stewardCoreId

/-- Special register `n` of processor `p`, none for a reserved number (R246, R294). -/
def State.special (s : State) (p n : Nat) : Option Word :=
  let x := s.proc p
  match n with
  | 0 => some x.status
  | 1 => some x.epc
  | 2 => some x.estatus
  | 3 => some x.ecause
  | 4 => some x.eaddr
  | 5 => some x.lc
  | 6 => some x.lsa
  | 7 => some x.lea
  | 8 => some x.evec
  | 9 => some (s.coreId p)
  | 10 => some x.scr0
  | 11 => some x.scr1
  | 12 => if p = 16 then some x.dseg else none
  | 13 => if p = 16 then some x.cseg else none
  | _ => none

/-- Set special register `n`, STATUS at once; COREID, CSEG and reserved numbers are not written. ESTATUS keeps the bits of
STATUS and DS. -/
def ProcSt.setSpecial (x : ProcSt) (p n : Nat) (v : Word) : ProcSt :=
  match n with
  | 0 => { x with status := statusOf p v }
  | 1 => { x with epc := v }
  | 2 => { x with estatus := v &&& 0xF001F0 }
  | 3 => { x with ecause := v &&& 0xFFFF }
  | 4 => { x with eaddr := v }
  | 5 => { x with lc := v }
  | 6 => { x with lsa := v }
  | 7 => { x with lea := v }
  | 8 => { x with evec := v }
  | 10 => { x with scr0 := v }
  | 11 => { x with scr1 := v }
  | 12 => if p = 16 then { x with dseg := v &&& 0xF } else x
  | _ => x

/-! ## Halts -/

/-- Is processor `p` halted by the debugger? -/
def State.halted (s : State) (p : Nat) : Bool := s.bitAt Reg.DBG_HALTED p

/-- What begins to be frozen aborts a running night round (R463). -/
def State.settleFreeze (s : State) : State := if s.frozen 6 then s.nrAbort else s

/-- Processor `p` halts (R458): HALTED, the event, and why. `why`: 1 request, 2 comparator `cmp`, 3 BRK, 4 step, 5 catch; `ds`
at a branch whose slot matched. -/
def State.halt (s : State) (p why cmp : Nat) (ds : Bool) : State :=
  let s := ((s.setBit Reg.DBG_HALTED p).setBit Reg.DBG_EVT 0).clrBit Reg.DBG_HALT p
  let s := s.setReg (Reg.DBG_PR_PC p) (s.proc p).pc
  let s := s.setReg (Reg.DBG_PR_STAT p) (wd (why * 2 ^ 20 + cmp * 2 ^ 17 + b2n ds * 2 ^ 16))
  let s : State := if p = 16 then { s with uc := { s.uc with haltAt := some s.timebase.toNat } } else s
  (s.updProc p (fun x => { x with stepping := false, atBrk := why == 3 })).settleFreeze

/-- Release the halt of processor `p` (R458, R460): after a BRK it goes on behind it. -/
def State.unhalt (s : State) (p : Nat) : State :=
  if !s.halted p then s
  else
    (s.clrBit Reg.DBG_HALTED p).updProc p (fun x => { x with pc := if x.atBrk then x.pc + 1 else x.pc, atBrk := false })

/-! ## Comparators -/

/-- Does comparator `k` of processor `p` match an access of kind `kind` (0 fetch, 1 load, 2 store) at the address `a` in mode
`sup` (R462)? The Steward compares physical addresses. -/
def State.cmpMatch (s : State) (p k kind a : Nat) (sup : Bool) : Bool :=
  let c := s.reg (Reg.DBG_CMP_CFG p k)
  let want := getF c Fd.DBG_CMP_CFG_KIND
  let m := (s.reg (Reg.DBG_CMP_MASK p k)).toNat
  let ref := (s.reg (Reg.DBG_CMP_ADDR p k)).toNat
  bit c 23 && (want == kind || (want == 3 && kind != 0)) && !(bit c 18 && sup) &&
    (a % 2 ^ 24 ^^^ ref) &&& (2 ^ 24 - 1 - m) == 0 && (p != 16 || getF c Fd.DBG_CMP_CFG_ASEG == a / 2 ^ 24)

/-- Comparators of processor `p`: four at a core, eight at the Steward (R462). -/
def cmpsOf (p : Nat) : Nat := if p = 16 then 8 else 4

/-- Count an access at every comparator that matches it (R462). Those that fire publish, and the first one that halts is
named. -/
def State.cmpHit (s : State) (p kind a : Nat) (sup : Bool) : State × Option Nat :=
  if !s.dom 1 then (s, none)
  else
    (List.range (cmpsOf p)).foldl (fun (x : State × Option Nat) k =>
      let (s, h) := x
      if !s.cmpMatch p k kind a sup then x
      else
        let c := s.reg (Reg.DBG_CMP_CFG p k)
        let n := Tab.get 0 s.dbg.hits (8 * p + k) + 1
        let fires := decide (Nat.max 1 (getF c Fd.DBG_CMP_CFG_COUNT) ≤ n)
        let s := { s with dbg := { s.dbg with hits := Tab.put 0 s.dbg.hits (8 * p + k) (if fires then 0 else n) } }
        if !fires then (s, h)
        else
          let act := getF c Fd.DBG_CMP_CFG_ACTION
          let s := s.publishIf (act != 0) (getF c Fd.DBG_CMP_CFG_TINE)
          (s, if (act == 0 || act == 2) && h.isNone then some k else h)) (s, none)

end Sys2Proof.Machine
end

