-- ==== Sys2Proof/Machine/Security.lean ====
section
/-! DEFINITION. Identity and security (R349 to R353, R357, R359): the plot keys, the operation slots, the generation of a
plot key, OPFW. The end of an operation moves words over the bus and stands in Machine/Units.lean. -/
namespace Sys2Proof.Machine

/-- Word `i` of SEC_PUBKEY (R349). -/
def pubkeyWord (i : Nat) : Word := (packWords devicePub).getD i 0

/-- Plot key `p`: HMAC-SHA-256(d, "YL-PLOT" ‖ p ‖ GEN_p) (R352). -/
def State.plotKey (s : State) (p : Nat) : List (BitVec 8) :=
  Crypto.hmac256 (Crypto.toBytes 32 Config.deviceScalar)
    ([0x59, 0x4C, 0x2D, 0x50, 0x4C, 0x4F, 0x54, BitVec.ofNat 8 p] ++
      Crypto.toBytes 2 (s.fld (Reg.SEC_PKGEN p) Fd.SEC_PKGEN_GEN))

/-- Every refused action of the SEC block counts in SEC_ERRCNT. -/
def State.secErr (s : State) : State := s.err 12 0

/-- May operation `op` run in slot `p` with the present LEN (R353)? -/
def State.secMay (s : State) (p op : Nat) : Bool :=
  let n := s.fld (Reg.SEC_OP_LEN p) Fd.SEC_OP_LEN_LEN
  if op = 1 then decide (1 ≤ n ∧ n ≤ 49152)
  else if op = 2 then decide (29 ≤ n ∧ n ≤ 49180)
  else decide (op = 3 ∧ p = 0)

/-- GO in slot `p` for operation `op`: dropped and counted while BUSY, for other OP values, for SIGN outside slot 0 and for a
length out of range; else BUSY (R353). -/
def State.secGo (s : State) (p op : Nat) : State :=
  let a := Reg.SEC_OP_CTRL p
  if s.bitAt a 22 || !s.secMay p op then s.secErr
  else (s.setFld a Fd.SEC_OP_CTRL_OP op).setBit a 22

/-- A write of SEC_OPp_CTRL (R353). -/
def State.writeSecCtrl (s : State) (p : Nat) (v : Word) : State :=
  if bit v 23 then s.secGo p (getF v Fd.SEC_OP_CTRL_OP) else s.plainWrite (Reg.SEC_OP_CTRL p) v

def execSecSeal (req : Req) (p : Fin 8) (s : State) : Out :=
  .next (s.regCmd req.val (Reg.SEC_OP_CTRL p.val) (fun s => s.secGo p.val 1))

def execSecOpen (req : Req) (p : Fin 8) (s : State) : Out :=
  .next (s.regCmd req.val (Reg.SEC_OP_CTRL p.val) (fun s => s.secGo p.val 2))

def execSecSign (req : Req) (p : Fin 8) (s : State) : Out :=
  .next (s.regCmd req.val (Reg.SEC_OP_CTRL p.val) (fun s => s.secGo p.val 3))

/-- A fence of plot `p` abandons its running operation with RES 2 (R353). -/
def State.secAbandon (s : State) (p : Nat) : State :=
  let a := Reg.SEC_OP_CTRL p
  if s.bitAt a 22 then (s.clrBit a 22).setFld a Fd.SEC_OP_CTRL_RES 2 else s

/-- What an operation makes of its input bytes: its output, or `none` where the tag fails (R353). -/
def State.secCompute (s : State) (p op : Nat) (bs : List (BitVec 8)) : State × Option (List (BitVec 8)) :=
  if op = 1 then
    let iv := Tab.get 0 s.sec.iv p
    ({ s with sec := { s.sec with iv := Tab.put 0 s.sec.iv p (iv + 1) } },
      some (Crypto.gcmSeal (s.plotKey p) (Crypto.toBytes 12 iv) bs))
  else if op = 2 then (s, Crypto.gcmOpen (s.plotKey p) bs)
  else
    (s.useFree, some (Crypto.ecdsaSign Config.deviceScalar (Config.signNonce s.freeCtr) bs))

/-- INC raises GEN by 1; at 0xFFFF it is dropped and counted (R352). -/
def State.pkgenInc (s : State) (p : Nat) : State :=
  let g := s.fld (Reg.SEC_PKGEN p) Fd.SEC_PKGEN_GEN
  if g = 0xFFFF then s.secErr else s.setFld (Reg.SEC_PKGEN p) Fd.SEC_PKGEN_GEN (g + 1)

def execPkgenInc (req : Req) (p : Fin 8) (s : State) : Out :=
  .next (s.regCmd req.val (Reg.SEC_PKGEN p.val) (fun s => s.pkgenInc p.val))

/-- OPFW is set for good (R357). -/
def execOpfwSet (req : Req) (s : State) : Out :=
  .next (s.regCmd req.val Reg.SEC_CTRL (fun s => s.setBit Reg.SEC_CTRL 0))

end Sys2Proof.Machine
end

