-- ==== Sys2Proof/Machine/Stew.lean ====
section
/-! DEFINITION. The Steward's registers: control store, banks, parity (R296, R302, R312, R315), machine check, watchdog and
Steward reset (R303 to R305, R308), the boot chain (R306, R307, R354, R355), mailboxes (R316). -/
namespace Sys2Proof.Machine

/-- Change the sequencer. -/
def State.updUc (s : State) (f : UcSt → UcSt) : State := { s with uc := f s.uc }

/-- The active bank. -/
def State.ucBank (s : State) : Nat := s.fld Reg.STW_UCSTAT Fd.STW_UCSTAT_ACTIVE

/-- Is a legacy store loaded (R311)? -/
def State.ucLegacy (s : State) : Bool := s.bitAt Reg.STW_UCSTAT 22

/-- Store address of an offset of the inactive bank (R296). -/
def State.ucInactive (s : State) (o : Nat) : Nat := (1 - s.ucBank) * 0x2000 + o

/-- The microword at a store address: as loaded or written, else base microcode in bank 0, and in the customer region of either bank
the stub (R297, R306). -/
def State.ucWord (s : State) (a : Nat) : Word :=
  (Tab.get none s.uc.store a).getD
    (if 0x1800 ≤ a % 0x2000 then Config.stubMicrocode (a % 0x2000)
      else if a < 0x2000 then Config.baseMicrocode a else Config.coldMicrocode a)

/-- Write a microword, or the word that nothing has loaded over, with right parity, or with parity bit 0 inverted (R302, R315). -/
def State.ucLoad (s : State) (a : Nat) (v : Option Word) (bad : Bool) : State :=
  s.updUc (fun u => { u with store := Tab.put none u.store a v,
                             bad := (if bad then [a] else []) ++ u.bad.filter (· != a) })

/-- Write a microword (R302, R315). -/
def State.ucPut (s : State) (a : Nat) (v : Word) (bad : Bool) : State := s.ucLoad a (some v) bad

/-- Count in STW_ERRCNT. -/
def State.stwErr (s : State) : State := s.err 0 0

/-! ## The inactive bank -/

/-- A write to the inactive bank clears READY and abandons a scan (R312). -/
def State.ucTouched (s : State) : State := (s.clrBit Reg.STW_UCSTAT 21).clrBit Reg.STW_UCSTAT 20

/-- The next offset after a UCDATA access: 8,191 wraps to 0 (R315). -/
def State.ucNext (s : State) : State :=
  s.setReg Reg.STW_UCADDR (wd (((s.reg Reg.STW_UCADDR).toNat + 1) % 0x2000))

/-- A write of STW_UCDATA (R312, R315). -/
def State.writeUcdata (s : State) (v : Word) : State :=
  if s.ucLegacy then s.stwErr
  else
    let o := (s.reg Reg.STW_UCADDR).toNat
    let s := s.ucPut (s.ucInactive o) v (s.bitAt Reg.STW_UCCTRL 21)
    ((s.clrBit Reg.STW_UCCTRL 21).ucTouched).ucNext

/-- A read of STW_UCDATA (R315). -/
def State.readUcdata (s : State) : State × Word := (s.ucNext, s.ucWord (s.ucInactive (s.reg Reg.STW_UCADDR).toNat))

/-- COPY begins (R312). -/
def State.ucCopy (s : State) : State := if s.ucLegacy then s.stwErr else s.ucTouched.setBit Reg.STW_UCSTAT 19

/-- SEAL begins a scan; during COPYING it is dropped and counted (R312). -/
def State.ucSeal (s : State) : State :=
  if s.ucLegacy ∨ s.bitAt Reg.STW_UCSTAT 19 then s.stwErr else s.setBit Reg.STW_UCSTAT 20

/-- A write of STW_UCCTRL (R312, R315). -/
def State.writeUcctrl (s : State) (v : Word) : State :=
  if s.ucLegacy then s.stwErr
  else
    let s := s.putBit Reg.STW_UCCTRL 21 (bit v 21)
    let s := if bit v 23 then s.ucCopy else s
    if bit v 22 then s.ucSeal else s

def execUcCopy (req : Req) (s : State) : Out := .next (s.regCmd req.val Reg.STW_UCCTRL State.ucCopy)

def execUcSeal (req : Req) (s : State) : Out := .next (s.regCmd req.val Reg.STW_UCCTRL State.ucSeal)

def execUcdataWrite (req : Req) (v : Word) (s : State) : Out :=
  .next (s.regCmd req.val Reg.STW_UCDATA (fun s => s.writeUcdata v))

/-- The read gives the word and advances ADDR (R315). -/
def execUcdataRead (req : Req) (s : State) : Out :=
  let r := req.val
  match s.gate r (s.reqPlot r) Reg.STW_UCDATA false with
  | some e => .next ((s.refuse r (s.reqPlot r) Reg.STW_UCDATA e).answer r ⟨0, [], .error⟩)
  | none => let (t, w) := s.readUcdata; .next (t.answer r ⟨w, [], .ok⟩)

/-- The active base microcode stands in the inactive bank (R312). -/
def execUcCopyDone (s : State) : Out :=
  .next (if s.bitAt Reg.STW_UCSTAT 19 then
    let act := s.ucBank * 0x2000
    (forN 0x1800 (fun o s => s.ucPut (s.ucInactive o) (s.ucWord (act + o)) false) s).clrBit Reg.STW_UCSTAT 19
  else s)

/-- Is the microword at store address `a` in the bank that runs? In legacy mode all of the store is. -/
def State.ucActiveAt (s : State) (a : Nat) : Bool := s.ucLegacy || a / 0x2000 == s.ucBank

/-- The scan ends: READY where it is clean, else INACTERR (R312). -/
def execUcScanDone (s : State) : Out :=
  .next (if s.bitAt Reg.STW_UCSTAT 20 then
    let s := s.clrBit Reg.STW_UCSTAT 20
    if s.uc.bad.any (fun a => !s.ucActiveAt a) then (s.setBit Reg.STW_UCSTAT 18).clrBit Reg.STW_UCSTAT 21
    else s.setBit Reg.STW_UCSTAT 21
  else s)

/-- The banks and their versions exchange, and READY clears (R313). -/
def State.ucExchange (s : State) : State :=
  let v := s.reg Reg.STW_UCVER
  let s := (s.setReg Reg.STW_UCVER (s.reg Reg.STW_UCVERI)).setReg Reg.STW_UCVERI v
  (s.putBit Reg.STW_UCSTAT 23 (s.ucBank == 0)).clrBit Reg.STW_UCSTAT 21

/-! ## Machine check and Steward reset -/

/-- Did the third of three machine checks come within 10 s of the first (R308)? Across a loss of the timebase the time between them
is not known: a free value decides (log entry 122). -/
def thirdWithin (now : Nat) (checks : List (Option Nat)) (free : Bool) : Bool :=
  match checks with
  | _ :: some c :: _ => decide (now - c ≤ 2500000000)
  | _ :: none :: _ => free
  | _ => false

/-- A machine check stops the sequencer and is recorded (R303 steps 1 and 2); `a` is a store address. PC is that of the
instruction, also where a custom instruction has moved it on. -/
def State.machineCheck (s : State) (cause a : Nat) : State :=
  let x := s.proc 16
  let pc := match s.uc.custom with
    | some (_, c, _, _) => c
    | none => x.pc
  let s := s.setReg Reg.STW_MCHK
    (wd (2 ^ 23 + cause * 2 ^ 19 + s.ucBank * 2 ^ 18 + x.cseg.toNat % 16 * 2 ^ 14 + a % 2 ^ 14))
  let s := (s.setReg Reg.STW_MCHKPC pc).bump Reg.STW_MCHKCNT
  let now := s.timebase.toNat
  let third := thirdWithin now s.uc.checks (bit (Config.freeValue s.freeCtr) 0)
  s.useFree.updUc (fun u =>
    { u with stopped := true, stopAt := now, mid := false, checks := (some now :: u.checks).take 2, third := u.third || third })

/-- Page writes that the Steward started complete or roll back: which, a free value says (R12, R305). -/
def State.endStewardPages (s : State) : State :=
  let jobs := s.grn.filter (fun j => !j.sup)
  let s := State.settleGrn { s with grn := s.grn.filter (·.sup) }
  jobs.foldl (fun s j => if bit (Config.freeValue s.freeCtr) 0 then s.useFree.programPage j else s.useFree) s

/-- The Steward reset (R303 step 4, R305, R326): Steward, control store and mailboxes return to reset, its transactions are
gone with their tags, its semaphores break, and the firmware begins anew; the holders of the plots stay (log entry 25). -/
def State.stewReset (s : State) : State :=
  let off := s.reg Reg.STW_UCSTAT &&& oneBit 17
  let keep (a : Nat) : Bool := decide (Reg.STW_UCVER ≤ a ∧ a < Reg.STW_MCHK) || decide (0x8000100 ≤ a ∧ a < 0x8000140)
  let s := (s.resetRegs keep).setReg Reg.STW_UCSTAT off
  let now := s.timebase.toNat
  let s := (s.setProc 16 {}).updUc (fun u => { checks := u.checks, third := u.third, wdogAt := now })
  let s := State.countTags { s with fab := { s.fab with inflight := s.fab.inflight.filter (fun t => t.req != 16),
                                                        waiters := s.fab.waiters.filter (fun t => t.req != 16) } }
  let s := (s.semBreak (fun h => h.2 == 16)).endStewardPages
  { s with tyk := { holder := s.tyk.holder, out := s.tyk.out } }

/-- The watchdog begins to count anew (R304). -/
def State.wdRestart (s : State) : State := s.updUc (fun u => { u with wdogAt := s.timebase.toNat })

/-- The Steward is no longer halted: the watchdog, which has not counted meanwhile, counts on (R304). -/
def State.wdRelease (s : State) : State :=
  s.updUc (fun u => { u with haltAt := none, wdogAt := u.wdogAt + (match u.haltAt with
    | some h => s.timebase.toNat - h
    | none => 0) })

/-- The instant at which the watchdog expires: TIME ms after its restart, where 0 acts as 1 and more than 1,000 as 1,000 (R315), and
at most 100 µs after a machine check (R304). -/
def State.wdogDue (s : State) : Nat :=
  let ms := Nat.min 1000 (Nat.max 1 (s.fld Reg.STW_WDOG Fd.STW_WDOG_TIME))
  let t := s.uc.wdogAt + 250000 * ms
  if s.uc.stopped then Nat.min t (s.uc.stopAt + 25000) else t

/-- The watchdog or the machine-check timeout expires, which is not before its instant (log entry 121); not while the Steward is
halted (R303, R304). -/
def execWatchdogExpiry (s : State) : Out :=
  .next (if s.halted 16 || !s.dom 2 then s
    else
      let s := s.passTo s.wdogDue
      if s.uc.stopped then s.stewReset
      else (s.machineCheck 6 s.uc.upc).stewReset)

/-- The scrubber reads a word (R302), whose bits may have been upset since it was written: wrong parity is a machine check with
cause 2 in the active bank, else INACTERR. -/
def execScrubberRead (a : BitVec 14) (upset : Bool) (s : State) : Out :=
  let s := if upset && !s.uc.bad.contains a.toNat then s.updUc (fun u => { u with bad := a.toNat :: u.bad }) else s
  .next (if s.uc.stopped || !s.uc.bad.contains a.toNat then s
    else if s.ucActiveAt a.toNat then s.machineCheck 2 a.toNat
    else (s.setBit Reg.STW_UCSTAT 18).clrBit Reg.STW_UCSTAT 21)

/-- A write of STW_WDOG sets TIME and restarts the watchdog (R304, R315). -/
def State.writeWdog (s : State) (v : Word) : State := (s.plainWrite Reg.STW_WDOG v).wdRestart

def execWdogWrite (req : Req) (v : Word) (s : State) : Out :=
  .next (s.regCmd req.val Reg.STW_WDOG (fun s => s.writeWdog v))

/-! ## The boot chain -/

/-- Word `i` of image slot `k` (R346, R354). -/
def State.imgWord (s : State) (k i : Nat) : Word := s.granAt (k * 0x100000 + i)

/-- LEN of the image in slot `k`. -/
def State.imgLen (s : State) (k : Nat) : Nat := (s.imgWord k 3).toNat

/-- Section `i` of an image: type, offset, length. -/
def State.imgSec (s : State) (k i : Nat) : Nat × Nat × Nat :=
  (getF (s.imgWord k (4 + 3 * i)) ⟨3, 0⟩, (s.imgWord k (5 + 3 * i)).toNat, (s.imgWord k (6 + 3 * i)).toNat)

/-- The sections of an image. -/
def State.imgSecs (s : State) (k : Nat) : List (Nat × Nat × Nat) :=
  (List.range (getF (s.imgWord k 0) ⟨3, 0⟩)).map (s.imgSec k)

/-- Does the image in slot `k` keep the layout of R354, with an ARB of at least SEC_ARB (R355)? -/
def State.imgShape (s : State) (k : Nat) : Bool :=
  let n := getF (s.imgWord k 0) ⟨3, 0⟩
  let ts := (s.imgSecs k).map (·.1)
  getF (s.imgWord k 0) ⟨23, 16⟩ == 1 && decide (1 ≤ n) && decide (64 ≤ s.imgLen k ∧ s.imgLen k ≤ 1048576) &&
    ts.all (fun t => decide (1 ≤ t ∧ t ≤ 4)) && ts.count 3 == 1 && decide (ts.count 1 + ts.count 2 ≤ 1) &&
    decide (s.fld Reg.SEC_ARB Fd.SEC_ARB_ARB ≤ getF (s.imgWord k 2) ⟨15, 0⟩)

/-- The key that must have signed the image: the Exohild key, or the operator root where SIGNER, OPFW and OPSET are 1; none
where the signer is not allowed (R355). -/
def State.imgKey (s : State) (k : Nat) : Option (List (BitVec 8)) :=
  if !bit (s.imgWord k (s.imgLen k - 23)) 0 then some Config.exohildKey
  else if s.bitAt Reg.SEC_CTRL 0 && s.bitAt Reg.SEC_STAT 21 then some s.rootKey else none

/-- Is the image in slot `k` right: layout and signature (R354, R355)? -/
def State.imgOk (s : State) (k : Nat) : Bool :=
  s.imgShape k &&
  match s.imgKey k with
  | none => false
  | some key =>
    let n := s.imgLen k
    let digest := Crypto.sha256 (((List.range (n - 22)).map (s.imgWord k)).flatMap wordBytes)
    let sig := (((List.range 22).map (fun i => s.imgWord k (n - 22 + i))).flatMap wordBytes).take 64
    Crypto.ecdsaVerify key digest sig

/-- Load a microcode section (R306 step 3, R307, R311): a bad one is counted and left out. -/
def State.loadSection (s : State) (k ofs : Nat) : State :=
  let w (i : Nat) : Word := s.imgWord k (ofs + i)
  let kind := (w 0).toNat
  let len := (w 2).toNat
  if kind = 1 ∧ len = 2048 then
    let s := forN 2048 (fun i s => s.ucPut (0x1800 + i) (s.imgWord k (ofs + 4 + i)) false) s
    s.setFld Reg.STW_UCVER Fd.STW_UCVER_CUST (getF (w 1) ⟨15, 0⟩)
  else if kind = 2 ∧ len = 16384 then
    let s := forN 16384 (fun i s => s.ucPut i (s.imgWord k (ofs + 4 + i)) false) s
    (s.setBit Reg.STW_UCSTAT 22).setReg Reg.STW_UCVER (wd (getF (w 1) ⟨15, 0⟩))
  else s.stwErr

/-- Slot `k` boots (R355 steps 4 and 5): BOOTSLOT, SEC_ARB, the microcode section unless CUSTOFF withholds it (R308). -/
def State.bootFrom (s : State) (k : Nat) : State :=
  let s := s.putBit Reg.SEC_STAT 23 (k == 1)
  let arb := getF (s.imgWord k 2) ⟨15, 0⟩
  let s := if s.fld Reg.SEC_ARB Fd.SEC_ARB_ARB < arb then s.setReg Reg.SEC_ARB (wd arb) else s
  if s.bitAt Reg.STW_UCSTAT 17 then s
  else (s.imgSecs k).foldl (fun s x => if x.1 = 1 ∨ x.1 = 2 then s.loadSection k x.2.1 else s) s

/-- The Steward jumps to the TYPE 3 section of slot `k`, which runs in place in the Granary data window (R355 step 5). -/
def State.jumpTo (s : State) (k : Nat) : State :=
  match (s.imgSecs k).find? (fun x => x.1 == 3) with
  | some x => s.updProc 16 (fun p => { p with pc := wd (k * 0x100000 + x.2.1), cseg := 0xC })
  | none => s

/-- The boot chain (R355): the slot of ACT, else with BOOTALT the other one, else recovery. -/
def State.bootChain (s : State) : State :=
  let k := s.fld Reg.GRN_IMGSEL Fd.GRN_IMGSEL_ACT
  let s := s.clrReg Reg.SEC_STAT (wd 0x500000)
  if s.imgOk k then (s.bootFrom k).jumpTo k
  else
    let s := s.setBit Reg.SEC_STAT 22
    if s.imgOk (1 - k) then (s.bootFrom (1 - k)).jumpTo (1 - k)
    else ((s.setBit Reg.SEC_STAT 20).setFld Reg.LNK_CTRL Fd.LNK_CTRL_ROLE 0).setBit Reg.SEC_EVT 1

/-- The loader has filled bank 0, and the Steward starts at the boot ROM (R306): UCVER, the boot chain with what it leaves in
registers and store, BOOT at the first run after a reset (R447), CUSTOFF after three machine checks (R308). A catch under reset
then halts it before its first instruction and opens a session (R457). -/
def State.stewStart (s : State) : State :=
  if !s.dom 2 || !(s.proc 16).parked then s
  else
    let s := (s.updProc 16 (fun x => { x with parked := false })).wdRestart
    let s := s.setReg Reg.STW_UCVER (wd 0x320000)
    let s := if s.uc.third then (s.setBit Reg.STW_UCSTAT 17).updUc (fun u => { u with third := false }) else s
    let s := s.bootChain
    let s := if s.pwr.booted then s else { s.setBit Reg.PWR_EVT 7 with pwr := { s.pwr with booted := true } }
    if s.bitAt Reg.DBG_CTRL 2 && s.fld Reg.DBG_CTRL Fd.DBG_CTRL_LOCK == 0 then
      let s := ((s.clrBit Reg.DBG_CTRL 2).setBit Reg.DBG_CTRL 23).setBit Reg.DBG_EVT 1
      (s.setBit Reg.PWR_DOMSTAT 1).halt 16 5 0 false
    else s

def execBaseMicrocodeLoaded (s : State) : Out := .next s.stewStart

/-! ## Mailboxes -/

/-- A write of STW_MBm_CFG; clearing EN sets HEAD and TAIL to 0 (R318). -/
def State.writeMbCfg (s : State) (m : Nat) (v : Word) : State :=
  let s := s.plainWrite (Reg.STW_MB_CFG m) v
  if bit v 23 then s else (s.setReg (Reg.STW_MB_HEAD m) 0).setReg (Reg.STW_MB_TAIL m) 0

/-- Frames between two indices modulo 32. -/
def ringCount (head tail : Nat) : Nat := (tail + 32 - head % 32) % 32

/-- A producer's TAIL write (R316): dropped and counted where the ring would overfill. -/
def State.writeMbTail (s : State) (m : Nat) (v : Word) : State :=
  let t := getF v Fd.STW_MB_TAIL_INDEX
  let old := (s.reg (Reg.STW_MB_TAIL m)).toNat
  if s.mbSize m < ringCount (s.reg (Reg.STW_MB_HEAD m)).toNat t then s.stwErr
  else (s.setReg (Reg.STW_MB_TAIL m) (wd t)).perf 16 (if m < 8 then 3 else 4) (ringCount old t)

/-- A consumer's HEAD write (R316): dropped and counted where it would pass TAIL. -/
def State.writeMbHead (s : State) (m : Nat) (v : Word) : State :=
  let h := getF v Fd.STW_MB_HEAD_INDEX
  if s.mbCount m < ringCount (s.reg (Reg.STW_MB_HEAD m)).toNat h then s.stwErr
  else s.setReg (Reg.STW_MB_HEAD m) (wd h)

def execMailboxTailWrite (req : Req) (m : Fin 16) (v : Word) (s : State) : Out :=
  .next (s.regCmd req.val (Reg.STW_MB_TAIL m.val) (fun s => s.writeMbTail m.val v))

def execMailboxHeadWrite (req : Req) (m : Fin 16) (v : Word) (s : State) : Out :=
  .next (s.regCmd req.val (Reg.STW_MB_HEAD m.val) (fun s => s.writeMbHead m.val v))

/-- STW_MBm_STAT (R318). -/
def State.mbStat (s : State) (m : Nat) : Word :=
  wd (s.mbCount m) ||| (if s.mbCount m = s.mbSize m then oneBit 23 else 0)

/-- A write to offset `o` of the STW window. -/
def State.writeStw (s : State) (o : Nat) (v : Word) : State :=
  if o = 3 then s.writeUcctrl v
  else if o = 4 then (if s.ucLegacy then s.stwErr else s.plainWrite Reg.STW_UCADDR v)
  else if o = 5 then s.writeUcdata v
  else if o = 6 then s.writeWdog v
  else if o = 9 then (if bit v 23 then s.setReg Reg.STW_MCHK 0 else s)
  else if 0x100 ≤ o ∧ o < 0x140 then
    match o % 4 with
    | 0 => s.writeMbCfg ((o - 0x100) / 4) v
    | 1 => s.writeMbHead ((o - 0x100) / 4) v
    | 2 => s.writeMbTail ((o - 0x100) / 4) v
    | _ => s.plainWrite (0x8000000 + o) v
  else s.plainWrite (0x8000000 + o) v

end Sys2Proof.Machine
end

