-- ==== Sys2Proof/Machine/DebugRegs.lean ====
section
/-! DEFINITION. The debug registers (R451, R456, R458 to R460, R470): sessions, halt, resume, step, RDATA. -/
namespace Sys2Proof.Machine

/-- Count a debug error (R470). -/
def State.dbgErr (s : State) (cause : Nat) : State := s.err 16 cause

/-- The access level (R456). -/
def State.lock (s : State) : Nat := s.fld Reg.DBG_CTRL Fd.DBG_CTRL_LOCK

/-- Is a debug session open (R451)? -/
def State.session (s : State) : Bool := s.bitAt Reg.DBG_CTRL 23

/-- A session opens (R451): PD1 is on. -/
def State.openSession (s : State) : State :=
  if s.session then s else ((s.setBit Reg.DBG_CTRL 23).setBit Reg.DBG_EVT 1).setBit Reg.PWR_DOMSTAT 1

/-- Processor `p` goes on at its PC (R460); a halted Steward with a machine check resets (R304, R461), and blocks that its halt
froze go on (R463). -/
def State.resume (s : State) (p : Nat) : State :=
  if !s.halted p then s
  else
    let s := (s.unhalt p).hrwKick
    let s := if p = 16 then s.wdRelease else s
    if p = 16 ∧ s.uc.stopped then s.stewReset else s

/-- The session closes (R451): halts and freezes are released, comparators disabled, PD1 switches off. -/
def State.closeSession (s : State) : State :=
  if !s.session then s
  else
    let s := forN 17 (fun p s => s.resume p) s
    let s := (s.loseRegs 1).clrBit Reg.PWR_DOMSTAT 1
    { (s.clrBit Reg.DBG_CTRL 23).setBit Reg.DBG_EVT 1 with dbg := {} }

/-- Execute one instruction and halt again (R460). -/
def State.stepOne (s : State) (p : Nat) : State :=
  if s.halted p then (s.resume p).updProc p (fun x => { x with stepping := true }) else s

/-- Ask processor `p` to halt, by requester `r`; the Steward cannot halt itself (R458, R461). -/
def State.askHalt (s : State) (r p : Nat) : State :=
  if r = 16 ∧ p = 16 then s.dbgErr 1 else if s.halted p then s else s.setBit Reg.DBG_HALT p

/-! ## RDATA -/

/-- What RSEL selects of processor `p`; a number that names nothing reads 0 (R459). -/
def State.rdata (s : State) (p : Nat) : Word :=
  let x := s.proc p
  let n := s.fld (Reg.DBG_PR_RSEL p) Fd.DBG_PR_RSEL_SEL
  if n < 16 then x.reg n
  else if n = 16 then x.pc
  else if n = 17 then x.mh
  else if n = 18 then x.ml
  else if 0x100 ≤ n then (s.special p (n - 0x100)).getD 0
  else 0

/-- A read of RDATA; while the processor runs it reads 0 and counts with cause 2 (R459). -/
def State.readRdata (s : State) (p : Nat) : State × Word :=
  if s.halted p then (s, s.rdata p) else (s.dbgErr 2, 0)

/-- A write of RDATA (R459). A new PC is where the processor goes on. -/
def State.writeRdata (s : State) (p : Nat) (v : Word) : State :=
  if !s.halted p then s.dbgErr 2
  else
    let n := s.fld (Reg.DBG_PR_RSEL p) Fd.DBG_PR_RSEL_SEL
    let s := if n = 16 then s.setReg (Reg.DBG_PR_PC p) v else s
    s.updProc p (fun x =>
      if n < 16 then x.setW n v
      else if n = 16 then { x with pc := v, atBrk := false, cmpDone := false }
      else if n = 17 then { x with acc := v ++ x.ml }
      else if n = 18 then { x with acc := x.mh ++ v }
      else if 0x100 ≤ n then x.setSpecial p (n - 0x100) v
      else x)

/-! ## Writes -/

/-- A write of DBG_CTRL: CUR, and LOCK, which no write lowers (R456, R470). -/
def State.writeDbgCtrl (s : State) (v : Word) : State :=
  let s := s.putBit Reg.DBG_CTRL 2 (bit v 2)
  let n := getF v Fd.DBG_CTRL_LOCK
  if n < s.lock then s.dbgErr 1 else s.setFld Reg.DBG_CTRL Fd.DBG_CTRL_LOCK n

/-- A write of a comparator register of processor `p`: ASEG exists at the Steward alone; a new CFG starts its count again. -/
def State.writeCmp (s : State) (p k j : Nat) (v : Word) : State :=
  if cmpsOf p ≤ k then s.dropWrite 16 (0x200 + 0x20 * p + 3 * k + j)
  else if j = 0 then
    let v := if p = 16 then v else v &&& ~~~ maskF Fd.DBG_CMP_CFG_ASEG
    let s := s.plainWrite (Reg.DBG_CMP_CFG p k) v
    { s with dbg := { s.dbg with hits := Tab.put 0 s.dbg.hits (8 * p + k) 0 } }
  else s.plainWrite (Reg.DBG_CMP_CFG p k + j) v

/-- A write by requester `r` to offset `o` of the DBG window. -/
def State.writeDebug (s : State) (r o : Nat) (v : Word) : State :=
  let a := 0x8100000 + o
  if o = 0 then s.writeDbgCtrl v
  else if o < 4 then s.plainWrite a v
  else if !s.dom 1 then s.dbgErr 3
  else if o = 4 then forN 17 (fun p s => if bit v p then s.askHalt r p else s) s
  else if o = 5 then forN 17 (fun p s => if bit v p then s.resume p else s) s
  else if o = 9 then (if bit v 23 then s.externalScope 18 else s)
  else if o = 7 ∨ o = 8 then (s.plainWrite a v).settleFreeze.hrwKick
  else if 0x10 ≤ o ∧ o < 0x98 ∧ o % 8 = 0 then
    let s := s.putBit a 1 (bit v 1)
    if bit v 0 then s.stepOne ((o - 0x10) / 8) else s
  else if 0x10 ≤ o ∧ o < 0x98 ∧ o % 8 = 4 then s.writeRdata ((o - 0x10) / 8) v
  else if 0x200 ≤ o ∧ o < 0x420 then s.writeCmp ((o - 0x200) / 32) (o % 32 / 3) (o % 32 % 3) v
  else s.plainWrite a v

/-- Is a write of `v` by the debug requester to address `a` refused by the lock: at level 2 every write, at level 1 every one but
to a comparator with ACTION 1, at every level one to the SEC and GRN windows (R456)? -/
def State.lockRefuses (s : State) (a : Nat) (v : Word) : Bool :=
  let cmp := decide (0x8100200 ≤ a ∧ a < 0x8100420)
  let cfg := if a % 32 % 3 = 0 then v else s.reg (a - a % 32 % 3)
  let act1 := getF cfg Fd.DBG_CMP_CFG_ACTION == 1 || getF cfg Fd.DBG_CMP_CFG_ACTION == 3
  decide (0x80C0000 ≤ a ∧ a < 0x80E0000) || s.lock == 2 || s.lock == 3 || (s.lock == 1 && !(cmp && act1))

/-- A write to the debug registers by requester `r`, which the lock may refuse with cause 6 (R456). -/
def State.dbgCmd (s : State) (r a : Nat) (v : Word) (f : State → State) : State :=
  s.regCmdR r a (fun s =>
    if r = 25 ∧ s.lockRefuses a v then (s.dbgErr 6, .error)
    else if !s.dom 1 then (s.dbgErr 3, .ok)
    else (f s, .ok))

def execDbgHalt (req : Req) (mask : BitVec 17) (s : State) : Out :=
  .next (s.dbgCmd req.val Reg.DBG_HALT (wd mask.toNat) (fun s =>
    forN 17 (fun p s => if mask.getLsbD p then s.askHalt req.val p else s) s))

def execDbgResume (req : Req) (mask : BitVec 17) (s : State) : Out :=
  .next (s.dbgCmd req.val Reg.DBG_RESUME (wd mask.toNat) (fun s =>
    forN 17 (fun p s => if mask.getLsbD p then s.resume p else s) s))

def execDbgStep (req : Req) (p : Proc) (s : State) : Out :=
  .next (s.dbgCmd req.val (Reg.DBG_PR_CTRL p.val) 1 (fun s => s.stepOne p.val))

def execDebugReset (req : Req) (s : State) : Out :=
  .next (s.dbgCmd req.val Reg.DBG_SYSRST (oneBit 23) (fun s => s.externalScope 18))

/-- An access of RDATA: a read where `w` is none (R459). -/
def execRdataAccess (req : Req) (p : Proc) (w : Option Word) (s : State) : Out :=
  let r := req.val
  let a := Reg.DBG_PR_RDATA p.val
  match w with
  | some v => .next (s.dbgCmd r a v (fun s => s.writeRdata p.val v))
  | none =>
    match s.gate r (s.reqPlot r) a false with
    | some e => .next ((s.refuse r (s.reqPlot r) a e).answer r ⟨0, [], .error⟩)
    | none =>
      if !s.dom 1 then .next (s.answer r ⟨0, [], .ok⟩)
      else if r = 25 ∧ 2 ≤ s.lock then .next ((s.dbgErr 6).answer r ⟨0, [], .error⟩)
      else let (t, v) := s.readRdata p.val; .next (t.answer r ⟨v, [], .ok⟩)

end Sys2Proof.Machine
end

