-- ==== Sys2Proof/Machine/GleanRegs.lean ====
section
/-! DEFINITION. Glean (R464 to R468, R471): capture, snapshots, the sample buffers. -/
namespace Sys2Proof.Machine

/-- Count a Glean error with its cause and unit (R471). -/
def State.glnErr (s : State) (cause u : Nat) : State := (s.err 17 cause).setFld Reg.GLN_LASTERR Fd.GLN_LASTERR_UNIT u

/-- GO copies the four counters of a unit at one instant (R465). -/
def State.glnCapture (s : State) (u : Nat) : State :=
  if u < 24 then forN 4 (fun k s => s.setReg (Reg.GLN_CCAP u k) (s.reg (Reg.GLN_CNT u k))) s else s

/-- A capture asked for by requester `r`: of a unit of another plot it is dropped with cause 2 (R471). -/
def State.glnCaptureBy (s : State) (r u : Nat) : State :=
  if r < 16 ∧ s.gleanPlot u ≠ s.corePlot r then s.glnErr 2 u else s.glnCapture u

def execGleanCapture (req : Req) (u : BitVec 5) (s : State) : Out :=
  .next (s.regCmd req.val Reg.GLN_CAPCMD (fun s => s.glnCaptureBy req.val u.toNat))

/-- The units of UMASK, in ascending order (R466). -/
def State.glnUnits (s : State) : List Nat := (List.range 24).filter (fun u => s.bitAt Reg.GLN_UMASK u)

/-- A snapshot falls due (R466): the record's words, or SKIP while the record before it is being written. -/
def State.glnSnapshot (s : State) : State :=
  if !s.bitAt Reg.GLN_CTRL 23 || s.frozen 7 || !s.dom 2 then s
  else if s.gln.isSome then (s.bump Reg.GLN_SKIPCNT).setBit Reg.GLN_EVT 2
  else
    let us := s.glnUnits
    let n := s.fld Reg.GLN_STAT Fd.GLN_STAT_SEQ
    let size := 4 + 4 * us.length
    let base := 16 * (s.reg Reg.GLN_BASE).toNat + n % Nat.max 1 (s.fld Reg.GLN_LEN Fd.GLN_LEN_LEN) * size
    let part := us.any (fun u => !s.unitOn u)
    let cnt (u k : Nat) : Word := if s.unitOn u then s.reg (Reg.GLN_CNT u k) else 0
    let head := wd (b2n part * 2 ^ 23 + n) :: [wd (s.timebase.toNat / 2 ^ 48), s.tbWord 24, s.tbWord 0]
    let body := us.flatMap (fun u => (List.range 4).map (cnt u))
    { s.setBit Reg.GLN_STAT 23 with gln := some (base, head ++ body) }

def execGleanSnapshot (s : State) : Out := .next s.glnSnapshot

/-- The oldest record of a sample buffer gives its next word; an empty buffer gives 0 and counts with cause 1 (R467). -/
def State.readSample (s : State) (c : Nat) : State × Word :=
  match (s.proc c).samples with
  | [] => (s.glnErr 1 c, 0)
  | r :: rs =>
    let i := (s.proc c).smpWord
    if i < 2 then (s.updProc c (fun x => { x with smpWord := i + 1 }), r.getD i 0)
    else
      ((s.updProc c (fun x => { x with smpWord := 0, samples := rs })).setFld (Reg.GLN_SMP_STAT c) Fd.GLN_SMP_STAT_FILL
        rs.length, r.getD i 0)

/-- Is an access of core `r` to offset `o` of the GLN window refused because of its mode: a write in user mode, or a user-mode
read of a counter, a captured value or a sample without the UREAD bit of its plot (R468)? -/
def State.glnUserRefuses (s : State) (r o : Nat) (write : Bool) : Bool :=
  decide (r < 16) && !(s.proc r).sup &&
    (write || ((decide (0x100 ≤ o ∧ o < 0x160) || decide (0x200 ≤ o ∧ o < 0x260) || decide (0x300 ≤ o ∧ o < 0x340)) &&
      !s.bitAt Reg.GLN_UREAD (s.corePlot r)))

/-- The unit that offset `o` of the GLN window concerns. -/
def glnUnitOf (o : Nat) : Nat :=
  if 0x300 ≤ o then (o - 0x300) / 4 else if 0x200 ≤ o then (o - 0x200) / 4 else if 0x180 ≤ o then (o - 0x180) / 4
  else (o - 0x100) / 4

/-- The refusal of a user-mode access: an error response, and for a read a count with cause 3 (R468). -/
def State.glnUserErr (s : State) (o : Nat) (write : Bool) : State := if write then s else s.glnErr 3 (glnUnitOf o)

/-- A read of GLN_SMPc_DATA. -/
def execSampleRead (req : Req) (c : Fin 16) (s : State) : Out :=
  let r := req.val
  let a := Reg.GLN_SMP_DATA c.val
  match s.gate r (s.reqPlot r) a false with
  | some e => .next ((s.refuse r (s.reqPlot r) a e).answer r ⟨0, [], .error⟩)
  | none =>
    if s.glnUserRefuses r (a - 0x8110000) false then
      .next ((s.glnUserErr (a - 0x8110000) false).answer r ⟨0, [], .error⟩)
    else let (t, v) := s.readSample c.val; .next (t.answer r ⟨v, [], .ok⟩)

/-- A write by requester `r` to offset `o` of the GLN window. EN of a sample buffer written 1 clears LOST (R471). -/
def State.writeGlean (s : State) (r o : Nat) (v : Word) : State :=
  let a := 0x8110000 + o
  if o = 0xB then (if bit v 23 then s.glnCaptureBy r (getF v Fd.GLN_CAPCMD_UNIT) else s)
  else if 0x300 ≤ o ∧ o < 0x340 ∧ o % 4 = 0 then
    let s := s.plainWrite a v
    if bit v 23 then s.setFld (a + 1) Fd.GLN_SMP_STAT_LOST 0 else s
  else s.plainWrite a v

end Sys2Proof.Machine
end

