-- ==== Sys2Proof/Machine/TykCore.lean ====
section
/-! DEFINITION. Replies of the Steward to Tyskaolo requests (R320 to R322, R325): their frames, the pair table, and the replies
that a fence, a plot command or a Sheaf brings. -/
namespace Sys2Proof.Machine

/-! ## Frames -/

/-- LEN, CODE, KIND, PLOT, DEV, SRCKIND, SRC and SEQ of a frame (R320). -/
def tykLen (f : List Word) : Nat := getF (f.getD 0 0) ⟨15, 0⟩
def tykCode (f : List Word) : Nat := getF (f.getD 1 0) ⟨23, 16⟩
def tykKind (f : List Word) : Nat := getF (f.getD 1 0) ⟨15, 14⟩
def tykPlot (f : List Word) : Nat := getF (f.getD 1 0) ⟨13, 11⟩
def tykDev (f : List Word) : Nat := getF (f.getD 1 0) ⟨10, 0⟩
def tykSrcKind (f : List Word) : Nat := getF (f.getD 2 0) ⟨23, 22⟩
def tykSrc (f : List Word) : Nat := getF (f.getD 2 0) ⟨10, 0⟩
def tykSeq (f : List Word) : Nat := (f.getD 3 0).toNat

/-- The status word of R321. -/
def statusWord (st detail : Nat) : Word := wd (st * 65536 + detail % 65536)

/-- The reply of this device to request `f` with a payload (R320, R321). -/
def State.replyFrame (s : State) (f : List Word) (ws : List Word) : List Word :=
  mkFrame (tykCode f) 1 (tykPlot f) s.devAddr (tykSrcKind f) (tykSrc f) (tykSeq f) ws

/-- Send a frame back the way that request `f` came by: on the link to the device that sent it, or to the manager that relays an
operator host's request (R319). -/
def State.sendBack (s : State) (t : Transport) (f r : List Word) : State :=
  match t with
  | .link => s.linkDeliver (if tykSrcKind f = 1 then 0 else tykSrc f) r
  | t => s.send t r

/-- Change what the firmware keeps. -/
def State.updTyk (s : State) (f : TykSt → TykSt) : State := { s with tyk := f s.tyk }

/-! ## The pair table -/

/-- Is this the pair of the sender and PLOT of frame `f`? -/
def TykPair.is (p : TykPair) (f : List Word) : Bool := p.kind == tykSrcKind f && p.src == tykSrc f && p.plot == tykPlot f

/-- The pair of frame `f`. -/
def State.pairOf (s : State) (f : List Word) : Option TykPair := s.tyk.pairs.find? (·.is f)

/-- Put a pair first; the least recently used one of 64 leaves (R322). -/
def State.putPair (s : State) (f : List Word) (p : TykPair) : State :=
  s.updTyk (fun t => { t with pairs := (p :: t.pairs.filter (fun q => !q.is f)).take 64 })

/-- Request `f` is accepted: its SEQ is the last one of its pair (R322). -/
def State.acceptPair (s : State) (f : List Word) : State :=
  s.putPair f { kind := tykSrcKind f, src := tykSrc f, plot := tykPlot f, last := tykSeq f }

/-- Keep a reply of at most 8 payload words for a resend of its request (R322). -/
def State.keepReply (s : State) (f r : List Word) : State :=
  match s.pairOf f with
  | some p => if p.last = tykSeq f ∧ r.length ≤ 12 then s.putPair f { p with reply := some r } else s
  | none => s

/-- Send frame `r` as the reply to the accepted request `f`. -/
def State.tykFinishWith (s : State) (t : Transport) (f r : List Word) : State := (s.keepReply f r).sendBack t f r

/-- Reply to the accepted request `f` with a status; payload words follow where it is OK (R321, R328). -/
def State.tykFinish (s : State) (t : Transport) (f : List Word) (st detail : Nat) (ws : List Word := []) : State :=
  s.tykFinishWith t f (s.replyFrame f (statusWord st detail :: ws))

/-- The same with a DETAIL that the spec does not give: a free value (log entry 5). -/
def State.tykFinishFree (s : State) (t : Transport) (f : List Word) (st : Nat) : State :=
  s.useFree.tykFinish t f st (Config.freeValue s.freeCtr).toNat

/-! ## Requests that wait -/

/-- The time T of a request in ms (R327); the manager that relays a PLOT_CTRL takes its own FAB_FENCETO (log entry 143). -/
def State.tykTime (s : State) (f : List Word) : Nat :=
  match tykCode f with
  | 0x01 | 0x20 | 0x21 | 0x40 | 0x42 | 0x52 | 0x53 | 0x70 => 50
  | 0x13 => getF (f.getD 4 0) ⟨13, 0⟩
  | 0x30 | 0x61 | 0x62 => 500
  | 0x31 => 200
  | 0x51 => 200 + (s.fld Reg.FAB_FENCETO Fd.FAB_FENCETO_TIME + 999) / 1000
  | 0x63 => 2000
  | _ => 100

/-- The number of items that a request applies: writes, or words of a list or of memory; of an AGENT request only its agent knows
(R325, R328). -/
def tykItems (f : List Word) : Nat :=
  match tykCode f with
  | 0x10 => getF (f.getD 5 0) ⟨7, 0⟩
  | 0x11 => tykLen f - 2
  | 0x20 => tykLen f - 3
  | 0x13 => 65535
  | _ => 0

/-- Let request `f` wait. -/
def State.tykHold (s : State) (t : Transport) (f : List Word) (op : TykOp) : State :=
  s.updTyk (fun k => { k with waits := k.waits ++ [⟨t, f.take 4, op⟩] })

/-- The requests that `sel` picks wait no more, and each is answered by `act`. -/
def State.tykEnd (s : State) (sel : TykWait → Bool) (act : TykWait → State → State) : State :=
  let done := s.tyk.waits.filter sel
  let s := s.updTyk (fun k => { k with waits := k.waits.filter (fun w => !sel w) })
  done.foldl (fun s w => act w s) s

/-- A fence of plot `p` begins (R325, R342): the requests in progress for it are answered FENCED with the items applied. How many
items an agent has applied, the spec gives no sign of: a free value up to the number of items (log entry 90). -/
def State.tykFence (s : State) (p : Nat) : State :=
  s.tykEnd (fun w => tykPlot w.head == p) (fun w s =>
    match w.op with
    | .agent _ items =>
      let (n, s) := s.freeIn 0 items
      s.tykFinish w.via w.head 7 n
    | .pages _ n => s.tykFinish w.via w.head 7 n
    | _ => s.tykFinish w.via w.head 7 0)

/-- The fence, or the reset, of plot `p` is complete (R333). -/
def State.tykPlotDone (s : State) (op : TykOp) : State := s.tykEnd (fun w => w.op == op) (fun w s => s.tykFinish w.via w.head 0 0)

/-- Sheaf slot `p` has left LOADING (R331): the reply carries AUD_SHFp_STAT bits 23:16, or HWREJ with cause 4 where the Sheaf was
rejected. -/
def State.tykSheafLeft (s : State) (p : Nat) (rejected : Bool) : State :=
  let st := s.reg (Reg.AUD_SHF_STAT p)
  s.tykEnd (fun w => w.op == .sheaf && tykPlot w.head == p) (fun w s =>
    if rejected then s.tykFinish w.via w.head 13 4 else s.tykFinish w.via w.head 0 0 [wd (getF st ⟨23, 16⟩ * 65536)])

end Sys2Proof.Machine
end

