-- ==== Sys2Proof/Machine/AudioRegs.lean ====
section
/-! DEFINITION. What register writes do to the audio engine (R176, R178, R182 to R184, R188, R190, R195, R197, R203, R207,
R210): start and stop, node gains, voice commands, Sheaf slots, record rings, range checks. -/
namespace Sys2Proof.Machine

/-- Count an AUD error with its cause and offset (R209, R210). -/
def State.audErr (s : State) (cause ofs : Nat) : State := (s.err 9 cause).setFld Reg.AUD_LASTERR Fd.AUD_LASTERR_OFS ofs

/-- Count in a counter of the AUD block that sets an event, and ERRSAT where it reaches 0xFFFF (R209). -/
def State.audCount (s : State) (a n : Nat) (evt : Option Nat) : State :=
  let was := s.bitAt a 23
  let s := s.bumpBy a n
  let s := if s.bitAt a 23 && !was then s.setBit Reg.AUD_EVT 9 else s
  match evt with
  | some e => if n = 0 then s else s.setBit Reg.AUD_EVT e
  | none => s

/-- Change the engine. -/
def State.updAud (s : State) (f : AudSt → AudSt) : State := { s with aud := f s.aud }

/-- LNKLAT. -/
def State.audLnklat (s : State) : Nat := limit30 (s.fld Reg.AUD_CTRL Fd.AUD_CTRL_LNKLAT)

/-- The index of the latest instant passed (R176). -/
def State.audIndex (s : State) : Nat :=
  (s.timebase.toNat - s.fld Reg.AUD_PHASE Fd.AUD_PHASE_PHASE) * s.audFs / 250000000

/-! ## Voices -/

/-- Voice `v`. -/
def State.voice (s : State) (v : Nat) : VoiceSt := Tab.get {} s.aud.voices v

/-- Change voice `v`. -/
def State.updVoice (s : State) (v : Nat) (f : VoiceSt → VoiceSt) : State :=
  s.updAud (fun a => { a with voices := Tab.put {} a.voices v (f (Tab.get {} a.voices v)) })

/-- AUD_Vv_STAT.STATE: 0 idle, 1 playing, 2 looping, 3 releasing. -/
def State.voiceState (s : State) (v : Nat) : Nat := s.fld (Reg.AUD_V_STAT v) Fd.AUD_V_STAT_STATE

/-- Set AUD_Vv_STAT.STATE. -/
def State.setVoiceState (s : State) (v n : Nat) : State := s.setFld (Reg.AUD_V_STAT v) Fd.AUD_V_STAT_STATE n

/-- A start at the next output index (R188); one that an event has made pending for a later index stays. -/
def State.voiceGo (s : State) (v : Nat) : State := s.updVoice v (fun x => { x with go := true })

/-- Is a start pending? -/
def VoiceSt.pending (x : VoiceSt) : Bool := x.go || x.start.isSome

/-- The voice ends at the next index (R190), and a start that is pending with it; an idle one has nothing to end. -/
def State.voiceStop (s : State) (v : Nat) : State :=
  if s.voiceState v = 0 ∧ !(s.voice v).pending then s
  else s.updVoice v (fun x => { x with stop := true, go := false, start := none })

/-- REL: a looping voice, a tone or a chime starts its end and reads 3 (R190). -/
def State.voiceRel (s : State) (v : Nat) : State :=
  let x := s.voice v
  let st := s.voiceState v
  if st = 2 ∨ (st = 1 ∧ 2 ≤ x.mode) then
    (s.updVoice v (fun x => { x with rel := true, relAt := x.relAt.orElse (fun _ => some x.count), rem := 0 })).setVoiceState v 3
  else s

def execVoiceGo (req : Req) (v : BitVec 6) (s : State) : Out :=
  .next (s.regCmd req.val (Reg.AUD_V_CTRL v.toNat) (fun s => s.voiceGo v.toNat))

def execVoiceStop (req : Req) (v : BitVec 6) (s : State) : Out :=
  .next (s.regCmd req.val (Reg.AUD_V_CTRL v.toNat) (fun s => s.voiceStop v.toNat))

def execVoiceRel (req : Req) (v : BitVec 6) (s : State) : Out :=
  .next (s.regCmd req.val (Reg.AUD_V_CTRL v.toNat) (fun s => s.voiceRel v.toNat))

/-- A write of AUD_Vv_CTRL: GO, STOP, REL. -/
def State.writeVoiceCtrl (s : State) (v : Nat) (w : Word) : State :=
  let s := if bit w 0 then s.voiceGo v else s
  let s := if bit w 1 then s.voiceStop v else s
  if bit w 2 then s.voiceRel v else s

/-- An event on tine `t` starts the voices that it triggers, at the index after the next one computed; one that finds a
start pending sets OVR (R188). -/
def State.voiceTine (s : State) (t : Nat) : State :=
  forN 64 (fun v s =>
    let g := Reg.AUD_V_TRIG v
    if s.bitAt g 15 && s.fld g Fd.AUD_V_TRIG_TINE == t then
      if (s.voice v).pending then s.setBit (Reg.AUD_V_STAT v) 20
      else s.updVoice v (fun x => { x with start := some ((s.aud.next.getD 0) + 1) })
    else s) s

/-! ## Nodes -/

/-- A node write: the code becomes pending; the timeout starts where none runs, and with ZCTO 0 the gain takes effect at the
next index (R182 to R184). -/
def State.writeNode (s : State) (j : Nat) (w : Word) : State :=
  if 280 < getF w Fd.AUD_NODE_GAIN then s.audErr 1 (0x2000 + j)
  else
    let a := Reg.AUD_NODE 0 0 + j
    let z := min 100 (s.fld Reg.AUD_CTRL Fd.AUD_CTRL_ZCTO)
    let now := s.timebase.toNat
    let t := if z = 0 then now else (Tab.get none s.aud.nodeTo j).getD (now + 250000 * z)
    ((s.setFld a Fd.AUD_NODE_GAIN (getF w Fd.AUD_NODE_GAIN)).setBit a 23).updAud
      (fun x => { x with nodeTo := Tab.put none x.nodeTo j (some t) })

def execNodeWrite (req : Req) (i : BitVec 7) (o : BitVec 6) (v : Word) (s : State) : Out :=
  .next (s.regCmd req.val (Reg.AUD_NODE i.toNat o.toNat) (fun s => s.writeNode (64 * i.toNat + o.toNat) v))

/-- The pending gain of a node takes effect, or the node keeps its gain: PEND clears (R184, R178). -/
def State.endNode (s : State) (j : Nat) (take : Bool) : State :=
  let a := Reg.AUD_NODE 0 0 + j
  let s := if take then s.setEff a (wd (s.fld a Fd.AUD_NODE_GAIN))
    else s.setFld a Fd.AUD_NODE_GAIN (s.effFld a Fd.AUD_NODE_GAIN)
  (s.clrBit a 23).updAud (fun x => { x with nodeTo := Tab.put none x.nodeTo j none })

/-! ## Sheaf slots -/

/-- STATE of slot `p`: 0 IDLE, 1 LOADING, 2 WAITING, 3 APPLYING. -/
def State.shfState (s : State) (p : Nat) : Nat := s.fld (Reg.AUD_SHF_STAT p) Fd.AUD_SHF_STAT_STATE

/-- Set STATE of slot `p`; a SHEAF request that waits for the end of loading has its reply, which says whether the Sheaf was rejected
(R331). -/
def State.setShfState (s : State) (p n : Nat) (rejected : Bool := false) : State :=
  let t := s.setFld (Reg.AUD_SHF_STAT p) Fd.AUD_SHF_STAT_STATE n
  if s.shfState p = 1 ∧ n ≠ 1 then t.tykSheafLeft p rejected else t

/-- The Sheaf of slot `p`. -/
def State.sheafOf (s : State) (p : Nat) : SheafSt := Tab.get {} s.aud.slots p

/-- Set the Sheaf of slot `p`. -/
def State.setSheaf (s : State) (p : Nat) (x : SheafSt) : State := s.updAud (fun a => { a with slots := Tab.put {} a.slots p x })

/-- GO: an idle slot begins to load, a busy one drops it with cause 2 (R195). -/
def State.shfGo (s : State) (p : Nat) : State :=
  if s.shfState p ≠ 0 then s.audErr 2 (0x90 + 4 * p)
  else
    let a := Reg.AUD_SHF_STAT p
    ((s.setFld a Fd.AUD_SHF_STAT_SLIPCNT 0).setFld a Fd.AUD_SHF_STAT_PHASE 0).setShfState p 1

/-- CANCEL: a Sheaf that has not begun to apply is discarded (R197). -/
def State.shfCancel (s : State) (p : Nat) : State :=
  if s.shfState p = 1 ∨ s.shfState p = 2 then (s.setShfState p 0).setSheaf p {} else s

def execShfGo (req : Req) (p : Fin 8) (s : State) : Out :=
  .next (s.regCmd req.val (Reg.AUD_SHF_CTRL p.val) (fun s => s.shfGo p.val))

def execShfCancel (req : Req) (p : Fin 8) (s : State) : Out :=
  .next (s.regCmd req.val (Reg.AUD_SHF_CTRL p.val) (fun s => s.shfCancel p.val))

/-- A write of AUD_SHFp_CTRL: ARM, then CANCEL, then GO. -/
def State.writeShfCtrl (s : State) (p : Nat) (w : Word) : State :=
  let s := s.plainWrite (Reg.AUD_SHF_CTRL p) w
  let s := if bit w 2 then s.shfCancel p else s
  if bit w 0 then s.shfGo p else s

/-! ## Start and stop -/

/-- EN written 1: a PHASE of a sample period or more leaves EN at 0 with cause 1, else ACQUIRE (R178 step 1). -/
def State.audEnable (s : State) : State :=
  if 250000000 ≤ s.fld Reg.AUD_PHASE Fd.AUD_PHASE_PHASE * s.audFs then (s.audErr 1 5).clrBit Reg.AUD_CTRL 0
  else
    ((s.setBit Reg.AUD_CTRL 0).setFld Reg.AUD_STAT Fd.AUD_STAT_STATE 1).updAud (fun a => { a with next := none })

/-- EN written 0: voices stop without END, pending gains and Sheaves are discarded, the ports stop, STATE returns to 0, and
a night round is aborted (R178, R208, R229). -/
def State.audStop (s : State) : State :=
  let was := s.audState
  let s := forN 64 (fun v s => (s.setVoiceState v 0).updVoice v (fun _ => {})) s
  let s := s.aud.nodeTo.foldl (fun s e => s.endNode e.1 false) s
  let s := forN 8 (fun p s => (s.setShfState p 0).setSheaf p {}) s
  let s := forN 4 (fun t s => s.clrBit (Reg.AUD_TDM_STAT t) 23) s
  let s := s.setReg Reg.AUD_STAT 0
  let s := s.updAud (fun a => { taps := a.taps, trims := a.trims })
  let s := s.declareAll
  if was = 2 then s.nrAbort else s

/-- A write of AUD_CTRL: its fields, then EN (R178). -/
def State.writeAudCtrl (s0 : State) (w : Word) : State :=
  let was := s0.bitAt Reg.AUD_CTRL 0
  let s := s0.plainWrite Reg.AUD_CTRL w
  if bit w 0 && !was then s.audEnable
  else if !bit w 0 && was then s.audStop
  else s

def execAudioEnable (req : Req) (s : State) : Out :=
  .next (s.regCmd req.val Reg.AUD_CTRL (fun s => if s.bitAt Reg.AUD_CTRL 0 then s else s.audEnable))

def execAudioDisable (req : Req) (s : State) : Out :=
  .next (s.regCmd req.val Reg.AUD_CTRL (fun s => if s.bitAt Reg.AUD_CTRL 0 then (s.clrBit Reg.AUD_CTRL 0).audStop else s))

/-- The audio PLL locks: PLLLK is 1, and the first index whose instant is at least AHEAD + 2 sample periods later is k0
(R178 steps 2 and 3). -/
def State.audLock (s : State) : State :=
  if s.audState = 1 ∧ !s.bitAt Reg.AUD_STAT 21 then
    let d := (s.timebase.toNat : Int) - s.fld Reg.AUD_PHASE Fd.AUD_PHASE_PHASE
    let k := (-((-(d * s.audFs)).fdiv 250000000)).toNat + s.audAhead + 2
    (s.setBit Reg.AUD_STAT 21).updAud (fun a => { a with next := some k, frame := k })
  else s

def execAudioPllLock (s : State) : Out := .next s.audLock

/-- Port `t`. -/
def State.port (s : State) (t : Nat) : PortSt := Tab.get {} s.aud.ports t

/-- Change port `t`. -/
def State.updPort (s : State) (t : Nat) (f : PortSt → PortSt) : State :=
  s.updAud (fun a => { a with ports := Tab.put {} a.ports t (f (Tab.get {} a.ports t)) })

/-- Port `t` starts its clocks with the next frame of the clocked side (R178 step 4, R200). -/
def State.portStart (s : State) (t : Nat) : State :=
  let k := Nat.max s.aud.frame ((s.aud.next.getD 0) - s.audAhead)
  (s.setBit (Reg.AUD_TDM_STAT t) 23).updPort t (fun p => { p with next := k, inq := [], last := [], runs := [], ctl := {} })

/-- The ports with EN 1 start BCLK and FS with frame k0, and STATE is RUN (R178 step 4). -/
def State.audRun (s : State) : State :=
  if s.audState = 1 ∧ s.bitAt Reg.AUD_STAT 21 then
    let s := forN 4 (fun t s => if s.bitAt (Reg.AUD_TDM_CFG t) 23 then s.portStart t else s) s
    (s.setFld Reg.AUD_STAT Fd.AUD_STAT_STATE 2).declareAll
  else s

def execAudioRunStart (s : State) : Out := .next s.audRun

/-! ## The other registers -/

/-- Is the value of a write to offset `o` of the AUD window out of its field's range (R203, R210)? -/
def State.audRange (s : State) (o : Nat) (w : Word) : Bool :=
  if 0x100 ≤ o ∧ o < 0x130 then decide (s.audFs / 2 < getF w Fd.AUD_OUT_CFG_DLY)
  else if 0x40 ≤ o ∧ o < 0x60 ∧ o % 8 = 0 then
    let m := getF w Fd.AUD_AMB_CFG_SRC
    decide (m < 64 ∨ 115 < m)
  else if 0x40 ≤ o ∧ o < 0x60 ∧ o % 8 = 2 then
    decide (signed 8 (getF w Fd.AUD_AMB_WIN_MAX) < signed 8 (getF w Fd.AUD_AMB_WIN_MIN))
  else false

/-- A write of AUD_RECk_CTRL: a LEN that is 0 or not a multiple of 12 makes EN write 0, with cause 1 (R207). -/
def State.writeRecCtrl (s : State) (k : Nat) (w : Word) : State :=
  let n := (s.reg (Reg.AUD_REC_LEN k)).toNat
  let a := Reg.AUD_REC_CTRL k
  if bit w 23 && !s.bitAt a 23 && (n == 0 || n % 12 != 0) then
    (s.plainWrite a (w &&& ~~~ oneBit 23)).audErr 1 (0x82 + 4 * k)
  else s.plainWrite a w

/-- The trim of loop `l` in use, in 1/256 of 0.5 dB (R206). -/
def TrimSt.now (t : TrimSt) : Int := t.src + ((t.dst - t.src) * t.step).fdiv 256

/-- The trim of loop `l` ramps to `d` in units of 0.5 dB (R206). -/
def State.setTrim (s : State) (l : Nat) (d : Int) : State :=
  s.updAud (fun a =>
    let t : TrimSt := Tab.get {} a.trims l
    let t' : TrimSt := ⟨t.now, 256 * d, 0⟩
    { a with trims := Tab.put {} a.trims l t' })

/-- A write of AUD_AMBl_CFG: clearing EN ramps the trim to 0 dB, and what was measured is gone (R206). -/
def State.writeAmbCfg (s : State) (l : Nat) (w : Word) : State :=
  let was := s.bitAt (Reg.AUD_AMB_CFG l) 23
  let s := s.plainWrite (Reg.AUD_AMB_CFG l) w
  if was && !bit w 23 then
    let s := s.setFld (Reg.AUD_AMB_STAT l) Fd.AUD_AMB_STAT_OFFSET 0
    (s.setTrim l 0).updAud (fun a => { a with amb := Tab.put {} a.amb l {} })
  else s

/-- A write to offset `o` of the AUD window. -/
def State.writeAudio (s : State) (o : Nat) (w : Word) : State :=
  if s.audRange o w then s.audErr 1 o
  else if o = 0 then s.writeAudCtrl w
  else if 0x2000 ≤ o ∧ o < 0x4000 then s.writeNode (o - 0x2000) w
  else if 0x200 ≤ o ∧ o < 0x600 ∧ o % 16 = 0 then s.writeVoiceCtrl ((o - 0x200) / 16) w
  else if 0x90 ≤ o ∧ o < 0xB0 ∧ o % 4 = 0 then s.writeShfCtrl ((o - 0x90) / 4) w
  else if 0x80 ≤ o ∧ o < 0x90 ∧ o % 4 = 2 then s.writeRecCtrl ((o - 0x80) / 4) w
  else if 0x40 ≤ o ∧ o < 0x60 ∧ o % 8 = 0 then s.writeAmbCfg ((o - 0x40) / 8) w
  else s.plainWrite (0x8090000 + o) w

/-- A fence of plot `p` (R198): slot `p` is discarded, with ABORT where phases have applied; voices of the plot stop as by
STOP and its record rings stop. -/
def State.audFence (s : State) (p : Nat) : State :=
  let s := if s.shfState p = 0 then s
    else
      let some' := (s.sheafOf p).applied ≠ 0
      let s := (s.setShfState p 0).setSheaf p {}
      if some' then (s.setBit (Reg.AUD_SHF_STAT p) 18).setBit Reg.AUD_EVT 2 else s
  let s := forN 64 (fun v s => if s.ownerRes 10 v = p then (s.voiceStop v).updVoice v (fun x => { x with go := false, start := none }) else s) s
  forN 4 (fun k s => if s.ownerRes 17 k = p then s.clrBit (Reg.AUD_REC_CTRL k) 23 else s) s

end Sys2Proof.Machine
end

