-- ==== Sys2Proof/Machine/Staged.lean ====
section
/-! DEFINITION. Staged messages (R214 to R217): the sources, the start and its steps, the stop. -/
namespace Sys2Proof.Machine

/-- Change the starter. -/
def State.updStg (s : State) (f : StgSt → StgSt) : State := { s with sup := { s.sup with stg := f s.sup.stg } }

/-- SUP_STGSTAT.PLAYING: 0 to 7 an input, 8 software, 15 none. -/
def State.playing (s : State) : Nat := s.fld Reg.SUP_STGSTAT Fd.SUP_STGSTAT_PLAYING

/-- The slot that source `n` asks for. -/
def State.stgSlotOf (s : State) (n : Nat) : Nat :=
  if n < 8 then s.fld (Reg.SUP_OV_CFG n) Fd.SUP_OV_CFG_MSG else s.sup.stg.soft

/-- Source `n` plays: its start begins (R217), which aborts a night round (R229). -/
def State.stgPlay (s : State) (n : Nat) : State :=
  let m := s.stgSlotOf n
  let s := s.setFld Reg.SUP_STGSTAT Fd.SUP_STGSTAT_PLAYING n
  let s := (s.clrBit Reg.SUP_STGSTAT (11 + n)).setBit Reg.SUP_STGSTAT 10
  (s.updStg (fun g => { g with src := some n, slot := m, playSlot := m, stop := false, wait := .begin' })).nrAbort

/-- Source `n` requests a start (R217): at once where nothing of higher priority plays, else it is held in PENDING; so is one whose own stop
still runs. -/
def State.stgRequest (s : State) (n : Nat) : State :=
  if s.playing = 15 ∨ n < s.playing ∨ (n = s.playing ∧ !s.sup.stg.stop) then s.stgPlay n else s.setBit Reg.SUP_STGSTAT (11 + n)

/-- Nothing plays any more: the highest-priority source that is still pending starts (R217). -/
def State.stgIdle (s : State) : State :=
  let s := (s.setFld Reg.SUP_STGSTAT Fd.SUP_STGSTAT_PLAYING 15).clrBit Reg.SUP_STGSTAT 10
  let s := s.updStg (fun g => { g with src := none, stop := false })
  match (List.range 9).find? (fun n => s.bitAt Reg.SUP_STGSTAT (11 + n)) with
  | some n => s.stgPlay n
  | none => s

/-- Source `n` ends (R217): the message playing is stopped, a pending one leaves PENDING. -/
def State.stgEnd (s : State) (n : Nat) : State :=
  if s.playing = n ∧ !s.sup.stg.stop then
    (s.setBit Reg.SUP_STGSTAT 10).updStg (fun g => { g with src := some n, slot := g.playSlot, stop := true, wait := .begin' })
  else s.clrBit Reg.SUP_STGSTAT (11 + n)

/-- A step fails: its cause, STGERR, the report (R216, R232). -/
def State.stgErr (s : State) (cause : Nat) : State :=
  let m := s.sup.stg.slot
  ((s.supErr cause m).setBit Reg.SUP_EVT 9).safety s.supPlot 3 (cause * 4096 + m) 0

/-- Step 5, or the end of a stop (R216, R217). -/
def State.stgFinish (s : State) : State :=
  if s.sup.stg.stop then s.stgIdle
  else
    let s := s.setFld Reg.SUP_STGSTAT Fd.SUP_STGSTAT_SLOT s.sup.stg.slot
    (s.clrBit Reg.SUP_STGSTAT 10).updStg (fun g => { g with src := none })

/-- Word `i` of the descriptor. -/
def State.stgWord (s : State) (i : Nat) : Word := s.sup.stg.desc.getD i 0

/-- Display write `w` (R216 step 4): by the plot that owns SUP_EVT, under R14. -/
def State.stgDisplay (s : State) (w : Nat) : State :=
  let t := s.stgWord (8 + 2 * w)
  let b := b2n (bit t 23)
  let o := getF t ⟨15, 0⟩
  if (s.ownerBM b o).allows s.supPlot true && s.dom (domOfBeam b) then
    (s.writeBeam b o (s.stgWord (9 + 2 * w))).updBeam b (fun x => { x with byMessage := x.byMessage ++ [o] })
  else s.stgErr 8

/-- Steps 4 and 5 (R216). -/
def State.stgShow (s : State) : State :=
  let n := min 120 (getF (s.stgWord 1) ⟨7, 0⟩)
  (if bit (s.stgWord 1) 21 then forN n (fun w s => s.stgDisplay w) s else s).stgFinish

/-- Step 3 (R216): the list is submitted, or the step is passed over. -/
def State.stgHarrow (s : State) : State :=
  if s.sup.stg.stop then s.stgFinish
  else if bit (s.stgWord 1) 22 then
    let id := s.hrw.nextId
    let t := if s.dom 14 then s.hrwSubmit (s.fld Reg.SUP_STGCFG Fd.SUP_STGCFG_HQ) (s.stgWord 4).toNat else s
    t.updStg (fun g => { g with wait := .harrow (if t.hrw.nextId = id then none else some id) })
  else s.stgShow

/-- Step 2 (R216): the Sheaf list goes into slot SSLOT, once the engine runs and the slot does not apply a Sheaf. -/
def State.stgSheaf (s : State) : State :=
  let p := s.fld Reg.SUP_STGCFG Fd.SUP_STGCFG_SSLOT
  if s.audState ≠ 2 ∨ s.shfState p = 3 then s.updStg (fun g => { g with wait := .sheaf })
  else
    let base := s.stgWord (if s.sup.stg.stop then 3 else 2)
    let s := (s.shfCancel p).setReg (Reg.AUD_SHF_BASE p) base
    ((s.clrBit (Reg.AUD_SHF_CTRL p) 1).shfGo p).stgHarrow

/-- Step 1 (R216): the descriptor is read; while the Granary is off its words read 0. -/
def State.stgBegin (s : State) : State :=
  let page := s.fld Reg.SUP_STGBASE Fd.SUP_STGBASE_PAGE + s.sup.stg.slot
  let ws := (List.range 248).map (fun i => if s.dom 3 then s.granAt (256 * page + i) else 0)
  let s := s.updStg (fun g => { g with desc := ws })
  let stop := s.sup.stg.stop
  if !bit (s.stgWord 0) 23 then
    let s := s.stgErr 5
    if stop then s.stgIdle else (s.clrBit Reg.SUP_STGSTAT 10).updStg (fun g => { g with src := none })
  else if stop then (if bit (s.stgWord 1) 20 then s.stgSheaf else s.stgIdle)
  else if bit (s.stgWord 1) 23 then s.stgSheaf
  else s.stgHarrow

/-- The start, or the stop, of source `src` that has been requested runs (R216, R217). -/
def execStagedStart (src : Fin 9) (s : State) : Out :=
  .next (if s.sup.stg.src = some src.val ∧ s.sup.stg.wait = .begin' then s.stgBegin else s)

/-- The awaited audio state or Sheaf slot is ready (R216 step 2). -/
def execStagedSheafReady (s : State) : Out :=
  .next (if s.sup.stg.src.isSome ∧ s.sup.stg.wait = .sheaf then s.stgSheaf else s)

/-- The staged Harrow list has completed (R216 step 3). -/
def execStagedHarrowDone (s : State) : Out :=
  .next (if s.sup.stg.src.isSome ∧ s.sup.stg.wait = .harrowDone then s.stgShow else s)

/-- A wait runs out, with cause 6 or 7, and the later steps follow (R216). -/
def State.stgTimeout (s : State) : State :=
  if s.sup.stg.src.isNone then s
  else match s.sup.stg.wait with
    | .begin' => s
    | .sheaf => (s.stgErr 6).stgHarrow
    | .harrow _ => (s.stgErr 7).stgShow
    | .harrowDone => (s.stgErr 7).stgShow

def execStagedWaitTimeout (s : State) : Out := .next s.stgTimeout

/-- GO of the software source for a slot (R217). -/
def State.stgGo (s : State) (slot : Nat) : State := (s.updStg (fun g => { g with soft := slot })).stgRequest 8

def execStggoGo (req : Req) (slot : BitVec 6) (s : State) : Out :=
  .next (s.regCmd req.val Reg.SUP_STGGO (fun s => s.stgGo slot.toNat))

def execStggoStop (req : Req) (s : State) : Out :=
  .next (s.regCmd req.val Reg.SUP_STGGO (fun s => s.stgEnd 8))

/-- A write of SUP_STGGO: STOP, then GO. -/
def State.writeStggo (s : State) (v : Word) : State :=
  let s := if bit v 22 then s.stgEnd 8 else s
  if bit v 23 then s.stgGo (getF v Fd.SUP_STGGO_SLOT) else s

end Sys2Proof.Machine
end

