-- ==== Sys2Proof/Machine/Link.lean ====
section
/-! DEFINITION. Lanes and their negotiation (R361 to R367), frames and forwarding (R368, R369, R374), rings and cuts (R373,
R377), references and slew (R380, R381). -/
namespace Sys2Proof.Machine

/-! ## Lanes -/

/-- Count an LNK error with its cause and lane (R385). -/
def State.lnkErr (s : State) (cause n : Nat) : State := (s.err 11 cause).setFld Reg.LNK_LASTERR Fd.LNK_LASTERR_LANE n

/-- Count an error in the counter of lane `n` with its cause (R369, R384). -/
def State.laneErr (s : State) (cause n : Nat) : State :=
  (s.countAt ⟨Reg.LNK_L_ERRCNT n, some (Reg.LNK_LASTERR, Fd.LNK_LASTERR_CAUSE), some (Reg.LNK_EVT, 12),
    some (Reg.LNK_L_EVT n, 4)⟩ cause).setFld Reg.LNK_LASTERR Fd.LNK_LASTERR_LANE n

/-- What the lane saw since the frame before (R361, R30): corrected blocks count in FECCNT, uncorrectable ones in ERRCNT with FECUNC, with
FEC on; blocks that found the receive crossing full are dropped and counted (log entry 150). -/
def State.laneCounts (s : State) (n : Nat) (f : LinkFrame) : State :=
  let s := s.updLane n (fun l => { l with dropped := l.dropped + f.lost })
  if !s.bitAt (Reg.LNK_L_STAT n) 19 then s
  else
    let s := (s.bumpBy (Reg.LNK_L_FECCNT n) f.fixed).perf 23 4 f.fixed
    if f.spoilt = 0 then s
    else
      let full := decide (65535 ≤ (s.reg (Reg.LNK_L_ERRCNT n)).toNat % 65536)
      let s := (s.bumpBy (Reg.LNK_L_ERRCNT n) f.spoilt).setBit (Reg.LNK_L_EVT n) 3
      if !full && decide (65535 ≤ (s.reg (Reg.LNK_L_ERRCNT n)).toNat % 65536) then s.setBit (Reg.LNK_L_EVT n) 4 else s

/-- Set NSTATE. -/
def State.setNState (s : State) (n k : Nat) : State := s.setFld (Reg.LNK_L_STAT n) Fd.LNK_L_STAT_NSTATE k

/-- Negotiated mode of lane `n`: 0 off, 1 Ethernet, 2 Uadrinath, 3 pixel. -/
def State.laneMode (s : State) (n : Nat) : Nat := s.fld (Reg.LNK_L_STAT n) Fd.LNK_L_STAT_MODE

/-- The MODE that software sets: 0 automatic, 1 Ethernet, 2 Uadrinath, 3 pixel. -/
def State.cfgMode (s : State) (n : Nat) : Nat := s.fld (Reg.LNK_L_CFG n) Fd.LNK_L_CFG_MODE

/-! ## Rings -/

/-- The bit of `blocked` for a direction of a ring. -/
def blockBit (r : Nat) (west : Bool) : Nat := 2 * r + b2n west

/-- Set or clear a blocked direction. -/
def State.setBlocked (s : State) (r : Nat) (west on : Bool) : State :=
  let b := 1#4 <<< blockBit r west
  s.updLnk (fun k => { k with blocked := if on then k.blocked ||| b else k.blocked &&& ~~~ b })

/-- The ring whose lanes bring time: the trunk for a segment head, the manager and the standby, else the worker ring
(R382). -/
def State.timeRing (s : State) : Nat := if 2 ≤ s.fld Reg.LNK_CTRL Fd.LNK_CTRL_ROLE then 1 else 0

/-- A target change begins a slew (R381). -/
def State.startSlew (s : State) : State := (s.setBit Reg.LNK_REFSTAT 19).setBit Reg.LNK_EVT 2

/-- The direction that time is taken from (R382): the ring lane with fewer hops, east on a tie, while that lane is not lost
and no cut lies in its direction. A change is a target change (R377, R381). -/
def State.settleTime (s : State) : State :=
  let r := s.timeRing
  match s.ringLanes r with
  | none => s
  | some (e, w) =>
    let ok (n : Nat) (west : Bool) : Bool := s.ringLaneUp n && !s.lnk.blocked.getLsbD (blockBit r west)
    let was := s.bitAt Reg.LNK_RINGSTAT 17
    let west := if ok e false && ok w true then decide ((s.lane w).hops < (s.lane e).hops)
      else if ok w true then true else if ok e false then false else was
    if west = was then s else (s.putBit Reg.LNK_RINGSTAT 17 west).startSlew

/-- LNK_RINGSTAT shows the ring lanes that are up, ISOLATED that none is (R385). -/
def State.settleRings (s : State) : State :=
  let up (r : Nat) (west : Bool) : Bool := match s.ringLanes r with
    | some (e, w) => s.ringLaneUp (if west then w else e)
    | none => false
  let a := Reg.LNK_RINGSTAT
  let s' := (((s.putBit a 23 (up 0 false)).putBit a 22 (up 0 true)).putBit a 20 (up 1 false)).putBit a 19 (up 1 true)
  let any := up 0 false || up 0 true || up 1 false || up 1 true
  let rings := (s.ringLanes 0).isSome || (s.ringLanes 1).isSome
  (s'.putBit Reg.LNK_STAT 21 (rings && !any)).settleTime

/-- The CUT bit of a ring in LNK_RINGSTAT. -/
def cutBit (r : Nat) : Nat := if r = 0 then 21 else 18

/-- The device's position on ring `r` (R373): POS on its worker ring. -/
def State.ringPos (s : State) (r : Nat) : Nat := if r = 0 then s.fld Reg.LNK_RINGSTAT Fd.LNK_RINGSTAT_POS else s.lnk.tpos

/-- Does this device bridge between rings: a segment head or the manager, a standby among them (R20, R376)? -/
def State.bridges (s : State) : Bool := decide (2 ≤ s.fld Reg.LNK_CTRL Fd.LNK_CTRL_ROLE) || s.bitAt Reg.LNK_ADDR 22

/-- Is this device the head of ring `r`: the manager of the trunk, a device on the trunk of its worker ring (R20, R377)? -/
def State.ringHead (s : State) (r : Nat) : Bool :=
  if r = 0 then s.bridges && (s.isManager || s.bitAt Reg.LNK_RINGCFG 9) else s.isManager

/-- A BEAT of the direct neighbour on lane `n`, whose HOPS no device has reduced, tells the device's own position (R370, R373): one east
of the neighbour on its west lane; on the east lane one west of it, as long as the west lane is down. A head has position 0 (log
entry 151). -/
def State.learnPos (s : State) (n : Nat) (f : LinkFrame) : State :=
  match s.ringOf n with
  | none => s
  | some (r, west, other) =>
    let p := getF (f.payload.getD 0 0) ⟨7, 0⟩
    let last := (Config.ringHops r).toNat
    if f.hops.toNat ≠ last ∨ (!west && s.ringLaneUp other) then s
    else
      let me := if s.ringHead r then 0 else if west then p + 1 else if p = 0 then last else p - 1
      if r = 0 then s.setFld Reg.LNK_RINGSTAT Fd.LNK_RINGSTAT_POS (me % 256) else s.updLnk (fun k => { k with tpos := me % 256 })

/-- A cut of ring `r` becomes known, at lane `n` (R377). -/
def State.cutKnown (s : State) (r n : Nat) : State :=
  if s.bitAt Reg.LNK_RINGSTAT (cutBit r) then s.setBit Reg.LNK_EVT 0
  else
    let s := (s.setBit Reg.LNK_RINGSTAT (cutBit r)).setBit Reg.LNK_EVT 0
    if s.ringHead r then s.linkReport 3 n else s

/-- The ring is whole again (R377). -/
def State.healKnown (s : State) (r n : Nat) : State :=
  let s := s.updLnk (fun k => { k with blocked := k.blocked &&& (if r = 0 then 0xC else 0x3)
                                       cuts := k.cuts.filter (fun c => c.1 != r) })
  if !s.bitAt Reg.LNK_RINGSTAT (cutBit r) then s
  else
    let s := (s.clrBit Reg.LNK_RINGSTAT (cutBit r)).setBit Reg.LNK_EVT 1
    if s.ringHead r then s.linkReport 4 n else s

/-- Send a RING frame with an event in both directions of ring `r`, where its lanes are up, under one SEQ (R375, R377). -/
def State.sendRing (s : State) (r event : Nat) : State :=
  match s.ringLanes r with
  | none => s
  | some (e, w) =>
    let q := s.nextSeq 6
    let go (n : Nat) (west : Bool) (s : State) : State :=
      if s.ringLaneUp n then
        s.laneSend n 6 (s.ownFrame n (Config.ringHops r).toNat 0 0 west true q [wd (event * 2 ^ 22 + s.ringPos r)])
      else s
    (go w true (go e false s)).stepSeq 6

/-- A cut at ring lane `n`: it is lost, or its partner has not joined (R377, R379). -/
def State.ringLost (s : State) (n : Nat) : State :=
  match s.ringOf n with
  | none => s
  | some (r, _, other) =>
    let s := (s.cutKnown r n).settleRings
    if s.joined && s.ringLaneUp other then s.sendRing r 1 else s

/-- Ring lane `n` has returned (R377). -/
def State.ringBack (s : State) (n : Nat) : State :=
  match s.ringOf n with
  | none => s
  | some (r, _, _) =>
    let cut := s.bitAt Reg.LNK_RINGSTAT (cutBit r)
    let s := (s.healKnown r n).settleRings
    if cut then s.sendRing r 2 else s

/-- Is the partner of lane `n` known to have joined: by the ADDR of its capability block (R363), or since (R379)? -/
def State.partnerIn (s : State) (n : Nat) : Bool :=
  s.fld (Reg.LNK_L_CAP n) Fd.LNK_L_CAP_ADDR != 0 || (s.lane n).opened

/-- The partner of lane `n` has joined: the device opens forwarding to it, and the ring is no longer treated as cut there (R379 step 4). -/
def State.openRing (s : State) (n : Nat) : State :=
  if s.partnerIn n then s
  else
    let s := s.updLane n (fun l => { l with opened := true })
    if s.joined && s.ringLaneUp n then s.ringBack n else s

/-- Ask the manager for an address on lane `n` (R379 step 2). -/
def State.joinAskOn (s : State) (n : Nat) : State :=
  (s.joinSend n (Config.joinText (.ask 0x2160B0 deviceSerial (s.ringPos 0)))).updLnk
    (fun k => { k with joinAsk := true, e2e := k.e2e.filter (fun e => e.lane.isNone) })

/-! ## Up and down -/

/-- Lane `n` is up (R365): the event, the report, its ring, which stays cut here until this device and its partner have joined, and the
join of a device that has no address (R379); in recovery a device does not join (R356). -/
def State.laneUp (s : State) (n : Nat) : State :=
  let s := ((s.setNState n 4).setBit (Reg.LNK_L_EVT n) 0).linkReport 2 n
  let s := (s.updLane n (fun l => { l with lost := false })).settleRings
  let s := if s.joined && s.partnerIn n then s.ringBack n else s.ringLost n
  if s.laneMode n = 2 && !s.joined && (s.ringOf n).isSome && !s.lnk.joinAsk && !s.recovery then s.joinAskOn n else s

/-- Lane `n` goes DOWN and stands at NSTATE `k` (R362, R365, R371). -/
def State.laneDown (s : State) (n k : Nat) : State :=
  let was := s.nState n
  let bond := (s.lane n).wide
  let s := (s.setReg (Reg.LNK_L_STAT n) 0).setNState n k
  let s := s.updLane n (fun l => { removed := l.removed, out := l.out, dropped := l.dropped })
  if was ≠ 4 then s
  else
    let s := (s.setBit (Reg.LNK_L_EVT n) 1).linkReport 1 n
    let s := if bond && s.laneIsUp (n ^^^ 1) then s.setBit Reg.LNK_EVT 11 else s
    s.ringLost n

/-- Where a lane that is on starts: training, or the Ethernet search of MODE 1 (R365, R366). -/
def State.laneBegin (s : State) (n : Nat) : Nat := if s.cfgMode n = 1 then 5 else 1

/-- EN written 1 (R365). -/
def State.laneOn (s : State) (n : Nat) : State :=
  (s.updLane n (fun l => { l with removed := 0 })).setNState n (s.laneBegin n)

/-- EN written 0 takes the lane DOWN (R365). -/
def State.laneOff (s : State) (n : Nat) : State := (s.laneDown n 0).updLane n (fun l => { l with removed := 0 })

/-- A write of LNK_Ln_CFG: its fields, then EN. -/
def State.writeLaneCfg (s : State) (n : Nat) (v : Word) : State :=
  let a := Reg.LNK_L_CFG n
  let was := s.bitAt a 23
  let s := s.plainWrite a v
  if bit v 23 && !was then s.laneOn n else if !bit v 23 && was then s.laneOff n else s

/-- A write to the lane registers while the lane's domain is off is dropped and counted (R362). -/
def State.laneWrite (s : State) (n : Nat) (f : State → State) : State :=
  if s.dom (domOfLane n) then f s else s.dropWrite 11 (0x20 + 8 * n)

def execLaneEnable (req : Req) (n : Fin 8) (s : State) : Out :=
  .next (s.regCmd req.val (Reg.LNK_L_CFG n.val) (fun s => s.laneWrite n.val (fun s =>
    if s.bitAt (Reg.LNK_L_CFG n.val) 23 then s else (s.setBit (Reg.LNK_L_CFG n.val) 23).laneOn n.val)))

def execLaneDisable (req : Req) (n : Fin 8) (s : State) : Out :=
  .next (s.regCmd req.val (Reg.LNK_L_CFG n.val) (fun s => s.laneWrite n.val (fun s =>
    if s.bitAt (Reg.LNK_L_CFG n.val) 23 then (s.clrBit (Reg.LNK_L_CFG n.val) 23).laneOff n.val else s)))

/-- Sync-header errors or loss of signal (R362): the lane goes DOWN and, while EN is 1, starts again. -/
def State.laneLoss (s : State) (n : Nat) : State :=
  if s.nState n = 0 then s else s.laneDown n (s.laneBegin n)

def execBlockLockLoss (n : Fin 8) (s : State) : Out := .next (s.laneLoss n.val)

def execLossOfSignal (n : Fin 8) (s : State) : Out := .next (s.laneLoss n.val)

/-! ## Negotiation -/

/-- The rates of lane `n`: bit k − 1 for RATE code k up to MAXRATE, less those removed (R363, R365). -/
def State.laneRates (s : State) (n : Nat) : Nat :=
  let m := max 1 (s.fld (Reg.LNK_L_CFG n) Fd.LNK_L_CFG_MAXRATE)
  (2 ^ m - 1) &&& (7 - (s.lane n).removed % 8)

/-- FEC of lane `n`: 0 not able, 1 able, 2 required (R385). -/
def State.laneFec (s : State) (n : Nat) : Nat := min 2 (s.fld (Reg.LNK_L_CFG n) Fd.LNK_L_CFG_FEC)

/-- Is lane `n` one of a pair that may bond (R364)? -/
def State.laneBond (s : State) (n : Nat) : Bool := s.bitAt (Reg.LNK_L_CFG (2 * (n / 2))) 16

/-- MODES of the capability block (R363). -/
def State.laneModes (s : State) (n : Nat) : Nat :=
  match s.cfgMode n with
  | 2 => 1
  | 3 => 2
  | _ => 3

/-- The capability block that lane `n` sends (R363). -/
def State.capBlock (s : State) (n : Nat) : List Word :=
  let set := (s.lane n).setw
  [wd (s.laneRates n * 2 ^ 19 + s.laneFec n * 2 ^ 17 + b2n (s.laneBond n) * 2 ^ 16 + s.laneModes n * 2 ^ 13
      + b2n set.isSome * 2 ^ 12 + (if s.joined then s.devAddr else 0)),
   0x2160B0, wd 8192, wd (600 * 2 ^ 12), wd (set.getD 0 * 2 ^ 18)]

/-- Send the capability block of lane `n` (R363). -/
def State.capSend (s : State) (n : Nat) : State := s.sendOwn n 0 0 0 false false (s.capBlock n)

/-- Every 100 µs a training lane sends a CAP frame (R363). -/
def execCapSend (n : Fin 8) (s : State) : Out :=
  .next (if s.nState n.val = 1 then s.capSend n.val else s)

/-- The highest rate of a mask. -/
def topRate (m : Nat) : Nat := if m / 4 % 2 = 1 then 3 else if m / 2 % 2 = 1 then 2 else if m % 2 = 1 then 1 else 0

/-- The setting of R364 from the own and the partner's block, as the SET bits 23:18; none where negotiation fails. -/
def State.computeSet (s : State) (n : Nat) (ws : List Word) : Option Nat :=
  let w := ws.getD 0 0
  let kind := getF w ⟨23, 22⟩
  let mode := if kind = 0 then 1 else 2
  let allowed := s.cfgMode n == 0 || (s.cfgMode n == 2 && mode == 1) || (s.cfgMode n == 3 && mode == 2)
  let theirs := getF w ⟨15, 13⟩ / mode % 2 == 1
  let rate := topRate (s.laneRates n &&& getF w ⟨21, 19⟩)
  let me := s.laneFec n
  let them := getF w ⟨18, 17⟩
  let req := me == 2 || them == 2
  let fec := req || (decide (1 ≤ me) && decide (1 ≤ them))
  let pair := s.lane (n + 1)
  let wide := mode == 2 && bit w 16 && n % 2 == 0 && s.laneBond n && pair.setw.isSome &&
    decide (pair.block.getD 1 0 = ws.getD 1 0) &&
    getF (pair.block.getD 2 0) ⟨23, 16⟩ == getF (ws.getD 2 0) ⟨23, 16⟩ + 1
  if 1 < kind || !allowed || !theirs || rate == 0 || (req && (me == 0 || them == 0)) then none
  else some (rate * 16 + b2n fec * 8 + b2n wide * 4 + mode)

/-- A capability block is received (R364, R365): the setting is computed, and the lane sends it with AGREE 1; where the partner agrees
with an equal one the lane switches, where it agrees with another the exchange starts again with cause 6. -/
def State.capReceived (s : State) (n : Nat) (ws : List Word) : State :=
  let w := ws.getD 0 0
  let s := s.setReg (Reg.LNK_L_CAP n) (wd (getF w ⟨23, 12⟩ * 4096 + getF w ⟨10, 0⟩))
  let s := s.updLane n (fun l => { l with block := ws })
  match s.computeSet n ws with
  | none => (s.updLane n (fun l => { l with setw := none })).lnkErr 6 n
  | some c =>
    let known := (s.lane n).setw = some c
    let s := s.updLane n (fun l => { l with setw := some c })
    let s := if known then s else s.capSend n
    if !bit w 12 then s
    else if getF (ws.getD 4 0) ⟨23, 18⟩ = c then s.setNState n 2
    else (s.updLane n (fun l => { l with setw := none })).lnkErr 6 n

/-- The move to the agreed rate ends (R365 step 4): STAT shows the setting; with width 2 the odd lane is bonded too (R364, R371). -/
def execRateSwitchDone (n : Fin 8) (s : State) : Out :=
  .next (if s.nState n.val = 2 then
    let c := ((s.lane n.val).setw).getD 0
    let a := Reg.LNK_L_STAT n.val
    let two := if n.val % 2 = 0 then c / 4 % 2 == 1 else (s.lane (n.val - 1)).wide && s.laneIsUp (n.val - 1)
    let s := s.updLane n.val (fun l => { l with wide := two })
    let s := if n.val % 2 = 0 then s.updLane (n.val + 1) (fun l => { l with wide := two }) else s
    let s := (s.setFld a Fd.LNK_L_STAT_MODE (c % 4 + 1)).setFld a Fd.LNK_L_STAT_RATE (c / 16)
    ((s.putBit a 19 (c / 8 % 2 == 1)).putBit a 18 (c / 4 % 2 == 1)).clrBit a 17
  else s)

/-- Hop authentication begins on lane `n`: the first message is sent (R372 step 1); in recovery no JOIN frame is (R356). -/
def State.hopBegin (s : State) (n : Nat) : State :=
  if s.recovery then s
  else
    let (a, s) := s.authNew false
    (s.updLane n (fun l => { l with auth := a })).sendOwn n 5 0 0 false false a.mine

/-- Block lock (R365 steps 2, 5, 6). -/
def State.blockLocked (s : State) (n : Nat) : State :=
  let a := Reg.LNK_L_STAT n
  if s.nState n = 2 ∧ s.laneMode n ≠ 0 then
    let s := s.setBit a 17
    if s.laneMode n = 2 then (s.setNState n 3).hopBegin n else s.laneUp n
  else if s.nState n = 1 ∨ s.nState n = 5 then s.setBit a 17
  else s

def execBlockLock (n : Fin 8) (s : State) : Out := .next (s.blockLocked n.val)

/-- No lock at the agreed rate within 1 ms (R365 step 5): the rate is removed with cause 6; with no rate left NEGFAIL is set
and all rates are restored. -/
def State.lockTimeout (s : State) (n : Nat) : State :=
  if s.nState n ≠ 2 then s
  else
    let rate := ((s.lane n).setw).getD 0 / 16
    let gone := (s.lane n).removed ||| (if rate = 0 then 0 else 2 ^ (rate - 1))
    let s := (s.lnkErr 6 n).laneDown n 1
    let s := s.updLane n (fun l => { l with removed := gone })
    if s.laneRates n = 0 then (s.updLane n (fun l => { l with removed := 0 })).setBit (Reg.LNK_L_EVT n) 2 else s

def execBlockLockTimeout (n : Fin 8) (s : State) : Out := .next (s.lockTimeout n.val)

/-- No CAP within 10 ms of training: a MODE 0 lane with ETHOK 1 looks for Ethernet (R366). -/
def execCapWaitTimeout (n : Fin 8) (s : State) : Out :=
  .next (if s.nState n.val = 1 && s.cfgMode n.val == 0 && s.bitAt (Reg.LNK_L_CFG n.val) 15 && (s.lane n.val).block.isEmpty
    then s.setNState n.val 5 else s)

/-- The Ethernet search ends (R366). -/
def execEthernetSearchEnd (n : Fin 8) (ok : Bool) (s : State) : Out :=
  .next (if s.nState n.val ≠ 5 then s
    else if ok then
      let a := Reg.LNK_L_STAT n.val
      let s := (s.setFld a Fd.LNK_L_STAT_MODE 1).setFld a Fd.LNK_L_STAT_RATE 3
      (((s.putBit a 19 (s.laneFec n.val != 0)).clrBit a 18).setBit a 17).laneUp n.val
    else if s.cfgMode n.val = 1 then s
    else (s.setReg (Reg.LNK_L_STAT n.val) 0).setNState n.val 1)

/-- The hop keys of lane `n` stand (R372 step 4). -/
def State.hopKeyed (s : State) (n keyid : Nat) (k : HopKey × HopKey) : State :=
  s.updLane n (fun l => { l with keyid := keyid, tx := k.1, rx := k.2, ctr := 0, auth := {} })

/-- Authentication on lane `n` fails: the lane drops to training with cause 7 and AUTHFAIL (R372), and the join of a device that has not
joined with JOINFAIL (R379). -/
def State.hopFails (s : State) (n : Nat) : State :=
  let joins := !s.joined && (s.ringOf n).isSome
  let s := ((s.laneDown n 1).lnkErr 7 n).setBit Reg.LNK_EVT 9
  if joins then s.setBit Reg.LNK_EVT 8 else s

/-- Hop authentication ends (R372): with keys the hop is authenticated under key epoch 1 and the lane is up; it fails where chain or
signature fails, or where the partner's messages have not come. -/
def execHopAuthDone (n : Fin 8) (s : State) : Out :=
  .next (if s.nState n.val ≠ 3 then s
    else match s.authKeys (s.lane n.val).auth with
      | some k => (((s.setBit (Reg.LNK_L_STAT n.val) 16).hopKeyed n.val 1 k).laneUp n.val)
      | none => s.hopFails n.val)

/-- A new exchange, which replaces the hop keys, begins on an authenticated lane (R372). -/
def execHopRekey (n : Fin 8) (s : State) : Out :=
  .next (if s.bitAt (Reg.LNK_L_STAT n.val) 16 then s.hopBegin n.val else s)

/-- The next key epoch; 0 stands for clear (R368; log entry 152). -/
def nextEpoch (k : Nat) : Nat := if k = 255 then 1 else k + 1

/-- The first message of the partner on lane `n` (R372 steps 1 to 3): one that begins a new exchange is answered with an own one, and
where its chain holds the signature is sent. -/
def State.hopHello (s : State) (n : Nat) (ws : List Word) : State :=
  if s.recovery ∨ ws = (s.lane n).auth.mine ∨ ws = (s.lane n).auth.theirs then s
  else
    let s := if (s.lane n).auth.mine = [] then s.hopBegin n else s
    let s := s.updLane n (fun l => { l with auth := { l.auth with theirs := ws } })
    if s.chainOk (s.lane n).auth then
      let (sig, s) := s.authSign (s.lane n).auth
      s.sendOwn n 5 0 0 false false (Config.joinText (.proof false sig))
    else s

/-- The partner's signature on lane `n` (R372 step 3). On a lane that is up, keys are replaced at once, or the lane drops. -/
def State.hopProof (s : State) (n : Nat) (sig : Bytes) : State :=
  if (s.lane n).auth.mine = [] then s
  else
    let s := s.updLane n (fun l => { l with auth := { l.auth with proof := sig } })
    if s.nState n ≠ 4 then s
    else match s.authKeys (s.lane n).auth with
      | some k => s.hopKeyed n (nextEpoch (s.lane n).keyid) k
      | none => s.hopFails n

/-! ## Frames received -/

/-- Does a lane in its state take frames other than CAP? -/
def State.laneTakes (s : State) (n : Nat) : Bool := s.nState n == 3 || s.nState n == 4

/-- The payload of a frame received on lane `n` that passes its check or tag (R369). -/
def State.frameOpen (s : State) (n ty : Nat) (f : LinkFrame) : Option (List Word) :=
  openFrame (s.lane n).rx (s.lane n).keyid ty f

/-- May a frame of this TYPE stand clear on a lane: on a Uadrinath lane only CAP, BEAT, JOIN, LINE and RELOCK (R369)? -/
def State.clearOk (s : State) (n ty : Nat) (f : LinkFrame) : Bool :=
  !(s.laneMode n == 2 && f.keyid == 0 && !(ty == 0 || ty == 1 || ty == 5 || ty == 7 || ty == 8))

/-- Does the frame pass (R369)? -/
def State.frameOk (s : State) (n ty : Nat) (f : LinkFrame) : Bool := (s.frameOpen n ty f).isSome && s.clearOk n ty f

/-- A frame is dropped and counted (R369). -/
def State.frameDrop (s : State) (n : Nat) : State := (s.laneErr 3 n).perf 23 5

/-- A frame that fails its check is dropped and counted (R369, R375): copies of STREAM, CTRL and RING frames in LNK_BADCNT too. -/
def State.frameBad (s : State) (n ty : Nat) : State :=
  let s := s.frameDrop n
  if ty = 3 ∨ ty = 4 ∨ ty = 6 then s.bump Reg.LNK_BADCNT else s

/-- Is the frame addressed to this device alone (R22, R374, R378)? Address 0 is answered by A0 alone. -/
def State.frameMine (s : State) (f : LinkFrame) : Bool :=
  !f.bc && (if f.dest = 0 then s.bitAt Reg.LNK_ADDR 22 else s.joined && f.dest.toNat == s.devAddr)

/-- Has the device an authenticated hop (R372)? -/
def State.anyAuth (s : State) : Bool := (List.range 8).any (fun n => s.bitAt (Reg.LNK_L_STAT n) 16)

/-- The frame `f` as it goes on out of lane `other` (R374): HOPS reduced by 1, under that lane's key epoch; `bad` where an error block ends
it. -/
def State.onward (s : State) (other : Nat) (f : LinkFrame) (bad : Bool) : LinkFrame :=
  let k : BitVec 8 := if f.keyid = 0 then 0 else BitVec.ofNat 8 (s.lane other).keyid
  { f with hops := f.hops - 1, keyid := k, cut := bad, check := [], fixed := 0, spoilt := 0, lost := 0 }

/-- A ring member forwards what it receives on one ring lane out of the other with HOPS reduced by 1, enciphered anew (R374); to a partner
that has not joined, JOIN frames alone (R379). A frame that failed its check had already begun to leave: an error block ends the
copy (R369). -/
def State.forward (s : State) (n ty : Nat) (f : LinkFrame) (bad : Bool := false) : State :=
  match s.ringOf n with
  | none => s
  | some (_, _, other) =>
    let addressed := (ty == 4 || ty == 5) && s.frameMine f
    let sent := f.src.toNat == s.devAddr || (f.src == 0 && s.bitAt Reg.LNK_ADDR 22)
    if s.bitAt Reg.LNK_CTRL 17 && s.anyAuth && !sent && f.hops != 0 && !addressed && s.ringLaneUp other
      && (s.partnerIn other || ty == 5)
    then s.laneSend other ty (s.onward other f bad) false
    else s

/-- A frame of TYPE `ty` arrives on lane `n`: it is dropped and counted, or, deciphered, it acts by `act` and is forwarded. -/
def State.receive (s : State) (n ty : Nat) (f : LinkFrame) (act : LinkFrame → State → State) : State :=
  let s := s.laneCounts n f
  if !s.laneTakes n then s
  else match s.frameOpen n ty f with
    | none => (s.frameBad n ty).forward n ty f true
    | some ws =>
      let g := { f with payload := ws }
      if !s.clearOk n ty f then s.frameDrop n else (act g (s.perf 23 1)).forward n ty g

/-- A CAP frame arrives (R363, R369): a lane that trains takes it where its check is right. -/
def execCapFrame (n : Fin 8) (f : LinkFrame) (s : State) : Out :=
  let s := s.laneCounts n.val f
  .next (if s.nState n.val ≠ 1 then s
    else match s.frameOpen n.val 0 f with
      | some ws => s.capReceived n.val ws
      | none => s.frameBad n.val 0)

/-- A CTRL or RING frame is a later copy where its key is among the last 256 of its sender (R375). -/
def State.isCopy (s : State) (ty : Nat) (f : LinkFrame) : Bool :=
  (Tab.get [] s.lnk.keys f.src.toNat).contains (ty, f.seq.toNat)

/-- Keep the key of a frame. -/
def State.keepKey (s : State) (ty : Nat) (f : LinkFrame) : State :=
  let ks := ((ty, f.seq.toNat) :: Tab.get [] s.lnk.keys f.src.toNat).take 256
  s.updLnk (fun k => { k with keys := Tab.put [] k.keys f.src.toNat ks })

/-- The same, with later copies counted and passed on without acting (R374, R375). -/
def State.receiveOnce (s : State) (n ty : Nat) (f : LinkFrame) (act : LinkFrame → State → State) : State :=
  s.receive n ty f (fun g s => if s.isCopy ty g then (s.bump Reg.LNK_DUPCNT).perf 23 3 else act g (s.keepKey ty g))

/-- A frame of TYPE 9 to 15 is dropped and counted with cause 4 (R369). -/
def execUnknownFrameType (n : Fin 8) (ty : BitVec 4) (s : State) : Out :=
  .next (if s.laneTakes n.val ∧ 9 ≤ ty.toNat then (s.laneErr 4 n.val).perf 23 5 else s)

/-- The manager finds the devices of ring `r` that its cuts leave without a path to it, those between two cuts, and with a segment head its
workers: it reports those that it loses (R328, R377; log entry 153). -/
def State.settleLost (s : State) (r : Nat) : State :=
  let cs := (s.lnk.cuts.filter (fun c => c.1 == r)).map (·.2)
  let lo := cs.foldl Nat.min 256
  let hi := cs.foldl Nat.max 0
  let member (e : DirEntry) : Bool := e.ring == r && (r == 0 || e.role != 1)
  let out (e : DirEntry) : Bool := member e && decide (lo < e.pos ∧ e.pos ≤ hi)
  let segs := (s.lnk.dir.filter out).map (·.seg)
  let gone (e : DirEntry) : Bool := if member e then out e else segs.contains e.seg
  let es := s.lnk.dir.filter (fun e => e.ring == r && gone e && !e.lost)
  if !s.isManager then s
  else
    let s := s.updLnk (fun k => { k with dir := k.dir.map (fun e => if e.ring = r then { e with lost := gone e } else e) })
    es.foldl (fun s e => s.dirReport 2 e.addr e.devid) s

/-- A RING frame tells of a cut or of its healing (R377): time that arrives through the cut turns round. -/
def State.ringTold (s : State) (n : Nat) (f : LinkFrame) : State :=
  match s.ringOf n with
  | none => s
  | some (r, west, _) =>
    let w := f.payload.getD 0 0
    let p := getF w ⟨7, 0⟩
    let me := s.ringPos r
    let at' := if f.dir then p else p - 1
    let through := if west then decide (1 ≤ p ∧ p < me) else decide (me < p)
    match getF w ⟨23, 22⟩ with
    | 1 =>
      let s := s.updLnk (fun k => { k with cuts := if k.cuts.contains (r, at') then k.cuts else (r, at') :: k.cuts })
      (((s.cutKnown r n).setBlocked r west (s.lnk.blocked.getLsbD (blockBit r west) || through)).settleTime).settleLost r
    | 2 => ((s.healKnown r n).settleTime).settleLost r
    | _ => s

def execRingFrame (n : Fin 8) (f : LinkFrame) (s : State) : Out :=
  .next (s.receiveOnce n.val 6 f (fun g s => s.ringTold n.val g))

/-! ## Beats, manager and standby -/

/-- Word 0 of a BEAT on ring `r` (R370). -/
def State.beatWord (s : State) (r : Nat) : Word :=
  wd (s.fld Reg.LNK_CTRL Fd.LNK_CTRL_ROLE * 2 ^ 21 + s.fld Reg.LNK_STAT Fd.LNK_STAT_EPOCH * 256 + s.ringPos r)

/-- Every BEAT µs a ring member sends BEAT on each ring lane (R373). -/
def State.beatSend (s : State) : State :=
  forN 2 (fun r s =>
    match s.ringLanes r with
    | none => s
    | some (e, w) =>
      let go (n : Nat) (west : Bool) (s : State) : State :=
        if s.laneIsUp n then s.sendOwn n 1 (Config.ringHops r).toNat 0 west true [s.beatWord r] else s
      go w true (go e false s)) s

def execBeatSend (s : State) : Out := .next s.beatSend

/-- Beats of another epoch: the higher is followed; a manager that hears one above its own gives up its role (R378). -/
def State.followEpoch (s : State) (e : Nat) : State :=
  if e ≤ s.fld Reg.LNK_STAT Fd.LNK_STAT_EPOCH then s
  else
    let was := s.fld Reg.LNK_CTRL Fd.LNK_CTRL_ROLE = 3 ∨ s.bitAt Reg.LNK_ADDR 22
    let s := s.setFld Reg.LNK_STAT Fd.LNK_STAT_EPOCH e
    if was then
      ((s.setFld Reg.LNK_CTRL Fd.LNK_CTRL_ROLE 0).clrBit Reg.LNK_ADDR 22).clrBit Reg.LNK_STAT 23
    else s

/-- A segment head relays the beats of the manager, and of a standby, which may have taken over, from the trunk into its worker ring in
both directions (R378). -/
def State.relayBeat (s : State) (n : Nat) (f : LinkFrame) : State :=
  match s.ringOf n, s.ringLanes 0 with
  | some (1, _, _), some (e, w) =>
    if !s.bridges || s.isManager || f.src.toNat == s.devAddr then s
    else
      let go (k : Nat) (west : Bool) (s : State) : State :=
        if s.ringLaneUp k then
          s.laneSend k 1 { s.ownFrame k (Config.ringHops 0).toNat 0 0 west true f.seq.toNat f.payload with src := f.src }
        else s
      go w true (go e false s)
  | _, _ => s

/-- A valid BEAT on lane `n` (R373, R378): the lane lives, and shows the device's position; a manager's beat refreshes MGRSEEN and the
epoch; the standby's beat lets the manager answer on address 0 again. A beat with a ROLE from the partner shows that it has
joined. -/
def State.beatHeard (s : State) (n : Nat) (f : LinkFrame) : State :=
  let w := f.payload.getD 0 0
  let role := getF w ⟨23, 21⟩
  let now := s.timebase.toNat
  let s := s.learnPos n f
  let s := if (s.lane n).lost then ((s.updLane n (fun l => { l with lost := false })).settleRings).ringBack n else s
  let s := if role = 0 then s else s.openRing n
  let s := if role = 3 then ((s.followEpoch (getF w ⟨15, 8⟩)).setBit Reg.LNK_STAT 22).updLnk (fun k => { k with mgrAt := now })
    else if role = 4 then (s.followEpoch (getF w ⟨15, 8⟩)).updLnk (fun k => { k with stbyAt := now }) else s
  let s := if role = 4 ∧ s.fld Reg.LNK_CTRL Fd.LNK_CTRL_ROLE = 3 then s.setBit Reg.LNK_ADDR 22 else s
  if role = 3 ∨ role = 4 then s.relayBeat n f else s

def execBeatFrame (n : Fin 8) (f : LinkFrame) (s : State) : Out :=
  .next (s.receive n.val 1 f (fun g s => s.beatHeard n.val g))

/-- MISS beat periods without a valid BEAT: the ring lane is lost (R373, R377). -/
def execBeatMiss (n : Fin 8) (s : State) : Out :=
  .next (if s.ringLaneUp n.val && (s.ringOf n.val).isSome then
    (s.updLane n.val (fun l => { l with lost := true })).ringLost n.val else s)

/-- M ms in ticks of the timebase (R378, R385). -/
def State.mgrTicks (s : State) : Nat := 250000 * Nat.max 10 (s.fld Reg.LNK_MGRCFG Fd.LNK_MGRCFG_MGRTO)

/-- MGRSEEN as it reads now: a manager beat was heard within MGRTO (R385). -/
def State.seenNow (s : State) : State :=
  if s.bitAt Reg.LNK_STAT 22 && decide (s.lnk.mgrAt + s.mgrTicks ≤ s.timebase.toNat) then s.clrBit Reg.LNK_STAT 22 else s

/-- The manager has heard no standby for M / 2 ms (R378): not before that instant (log entry 121). -/
def execManagerSilent (s : State) : Out :=
  .next (if s.fld Reg.LNK_CTRL Fd.LNK_CTRL_ROLE = 3 ∧ s.fld Reg.LNK_MGRCFG Fd.LNK_MGRCFG_STBYADDR ≠ 0 then
    ((s.passTo (s.lnk.stbyAt + s.mgrTicks / 2)).clrBit Reg.LNK_ADDR 22).setBit Reg.LNK_EVT 5 else s)

/-! ## References -/

/-- The best qualified source in the order of LNK_REFCFG; holdover ranks last (R380). -/
def State.bestRef (s : State) : Nat :=
  let q (k : Nat) : Bool := s.bitAt Reg.LNK_REFSTAT (15 + k)
  let order := [Fd.LNK_REFCFG_PRI0, Fd.LNK_REFCFG_PRI1, Fd.LNK_REFCFG_PRI2, Fd.LNK_REFCFG_PRI3].map (s.fld Reg.LNK_REFCFG)
  (order.find? (fun k => k != 3 && q k)).getD 3

/-- The target of this device (R380): the manager, or a device that has taken over, selects; others use link time, and
holdover while they have none. -/
def State.wantRef (s : State) : Nat :=
  if s.fld Reg.LNK_CTRL Fd.LNK_CTRL_ROLE = 3 ∨ s.bitAt Reg.LNK_ADDR 22 then s.bestRef
  else if s.bitAt Reg.LNK_REFSTAT 17 then 2 else 3

/-- The target follows the selection (R380, R381): a change sets REFCHG, starts a slew, is reported, and HOLDOVER tells that
holdover was entered. -/
def State.settleRef (s : State) : State :=
  let t := s.wantRef
  if t = s.fld Reg.LNK_REFSTAT Fd.LNK_REFSTAT_TARGET then s
  else
    let s := ((s.setFld Reg.LNK_REFSTAT Fd.LNK_REFSTAT_TARGET t).startSlew).linkReport 5 0
    if t = 3 then (s.setBit Reg.LNK_EVT 3).linkReport 6 0 else s

/-- Is source `k` enabled in LNK_REFCFG? For a worker or segment head, link time comes from its upstream (R380). -/
def State.refEnabled (s : State) (k : Nat) : Bool :=
  let role := s.fld Reg.LNK_CTRL Fd.LNK_CTRL_ROLE
  if k = 0 then s.bitAt Reg.LNK_REFCFG 7
  else if k = 1 then s.bitAt Reg.LNK_REFCFG 6
  else if k = 2 then role == 1 || role == 2 || role == 4 || s.bitAt Reg.LNK_REFCFG 5
  else true

/-- The lane that brings upstream time (R380, R382): TLANE at the manager, else the ring lane of TDIR. -/
def State.upstream (s : State) : Option Nat :=
  if s.fld Reg.LNK_CTRL Fd.LNK_CTRL_ROLE = 3 ∨ s.bitAt Reg.LNK_ADDR 22 then some (s.fld Reg.LNK_REFCFG Fd.LNK_REFCFG_TLANE)
  else (s.ringLanes s.timeRing).map (fun (e, w) => if s.bitAt Reg.LNK_RINGSTAT 17 then w else e)

/-- Change the references. -/
def State.updRef (s : State) (f : RefSt → RefSt) : State := s.updLnk (fun k => { k with ref := f k.ref })

/-- Since when source `k` has been valid without a break. -/
def State.refSince (s : State) (k : Nat) : Option Nat := Tab.get none s.lnk.ref.since k

/-- Source `k` is valid now (R380). -/
def State.refValid (s : State) (k : Nat) : State :=
  if !s.refEnabled k || (s.refSince k).isSome then s
  else s.updRef (fun r => { r with since := Tab.put none r.since k (some s.timebase.toNat) })

/-- Source `k` is invalid and disqualified at once; holdover always qualifies (R380). -/
def State.refLost (s : State) (k : Nat) : State :=
  if k = 3 then s
  else
    let s := s.updRef (fun r => { r with
      since := Tab.put none r.since k none
      glkLast := if k = 0 then none else r.glkLast
      glkCand := if k = 0 then none else r.glkCand })
    (s.clrBit Reg.LNK_REFSTAT (15 + k)).settleRef

/-- A write that takes a source out of LNK_REFCFG, or the role that link time needs, makes it invalid. -/
def State.refSettle (s : State) : State := (forN 3 (fun k s => if s.refEnabled k then s else s.refLost k) s).settleRef

/-- The genlock period `250,000,000 × FRDEN / FRNUM` ticks of LNK_GLKREF (R380): numerator and denominator. -/
def State.glkPeriod (s : State) : Nat × Nat :=
  (250000000 * Nat.max 1 (s.fld Reg.LNK_GLKREF Fd.LNK_GLKREF_FRDEN), s.fld Reg.LNK_GLKREF Fd.LNK_GLKREF_FRNUM)

/-- The instant at which source `k` goes invalid if nothing more comes (R67, R380): genlock after two periods without an accepted edge, link
time 3 ms after the last TIME frame. -/
def State.refEnds (s : State) (k : Nat) : Nat :=
  if k = 0 then
    let (n, d) := s.glkPeriod
    match s.lnk.ref.glkLast with
    | some t => t + (2 * n + d - 1) / Nat.max 1 d
    | none => 0
  else if k = 2 then
    match s.upstream.bind (fun n => (s.lane n).part) with
    | some (_, a) => a + 750000
    | none => 0
  else 0

/-- A source has been valid for QUAL s (R380), not before that instant (log entry 121). -/
def execReferenceQualified (src : Fin 4) (s : State) : Out :=
  .next (match s.refSince src.val with
    | some t =>
      ((s.passTo (t + 250000000 * Nat.max 1 (s.fld Reg.LNK_REFCFG Fd.LNK_REFCFG_QUAL))).setBit Reg.LNK_REFSTAT (15 + src.val)).settleRef
    | none => s)

/-- A source becomes invalid, not before the instant at which it can (R380; log entry 121). -/
def execReferenceInvalid (src : Fin 4) (s : State) : Out :=
  .next (if (s.refSince src.val).isSome then (s.passTo (s.refEnds src.val)).refLost src.val else s.refLost src.val)

/-- The offset of the timebase from the target in ns, saturating (R385). -/
def State.setOffset (s : State) (ns : Int) : State :=
  s.setReg Reg.LNK_REFOFS (wdI (clampI (-8388608) 8388607 ns))

/-- A PTP message on the PTP lane gives the servo offset in ns; within ±100 ns the source is valid (R380). -/
def execPtpMessage (offset : Int) (s : State) : Out :=
  let n := s.fld Reg.LNK_PTPCFG Fd.LNK_PTPCFG_LANE
  .next (if s.bitAt Reg.LNK_PTPCFG 12 && s.laneIsUp n && s.laneMode n == 1 then
      let s := if -100 ≤ offset ∧ offset ≤ 100 then s.refValid 1 else s.refLost 1
      if s.fld Reg.LNK_REFSTAT Fd.LNK_REFSTAT_TARGET == 1 then s.setOffset offset else s
    else s)

/-- The error is below 4 ns (R381): SLEW clears, SLEWDONE is set, the target is in use; how far off the timebase still is, a
free value below 4 ns says. -/
def execSlewDone (s : State) : Out :=
  .next (if !s.bitAt Reg.LNK_REFSTAT 19 then s
    else
      let t := s.fld Reg.LNK_REFSTAT Fd.LNK_REFSTAT_TARGET
      let d : Int := ((Config.freeValue s.freeCtr).toNat % 7 : Nat)
      let s := s.useFree.setOffset (d - 3)
      ((s.clrBit Reg.LNK_REFSTAT 19).setFld Reg.LNK_REFSTAT Fd.LNK_REFSTAT_REF t).setBit Reg.LNK_EVT 4)

/-- The standby takes over address 0 when it has heard no manager for M ms, not before that instant (R378; log entry 121): A0, a new epoch,
TAKEOVER, the report, the reference selection, and the directory, of which it holds a copy (log entry 147). -/
def execManagerLost (s : State) : Out :=
  .next (if s.bitAt Reg.LNK_MGRCFG 23 && !s.bitAt Reg.LNK_ADDR 22 then
    let s := s.passTo (s.lnk.mgrAt + s.mgrTicks)
    let copy := (Config.directoryCopy s.freeCtr).map (fun (a, role, seg, pos, d, c) => (⟨a, role, false, seg, pos, d, c, 1⟩ : DirEntry))
    let s := s.useFree.updLnk (fun k =>
      { k with dir := k.dir ++ copy.filter (fun e => !k.dir.any (fun x => x.addr == e.addr)) })
    let e := s.fld Reg.LNK_STAT Fd.LNK_STAT_EPOCH
    let s := (s.setBit Reg.LNK_ADDR 22).setFld Reg.LNK_STAT Fd.LNK_STAT_EPOCH ((e + 1) % 256)
    let s := (s.clrBit Reg.LNK_STAT 22).setBit Reg.LNK_EVT 6
    (s.dirReport 5 s.devAddr 0x2160B0).settleRef
  else s)

/-! ## Amplifiers -/

/-- Send a message on the control channel of port `t`. -/
def State.ampSend (s : State) (t : Nat) (m : List (BitVec 8)) : State :=
  s.updLnk (fun k => { k with amp := Tab.put [] k.amp t (Tab.get [] k.amp t ++ [m]) })

/-- Does the control channel of port `t` run (R367)? -/
def State.ampOn (s : State) (t : Nat) : Bool := s.bitAt (Reg.AUD_TDM_CFG t) 23 && s.bitAt (Reg.AUD_TDM_CFG t) 4 && s.dom 15

/-- LNK_TDMCAP_t changes (R367). -/
def State.setTdmcap (s : State) (t : Nat) (w : Word) : State :=
  if s.reg (Reg.LNK_TDMCAP t) = w then s else (s.setReg (Reg.LNK_TDMCAP t) w).setBit Reg.LNK_EVT 10

/-- CRC-8 with polynomial 0x07 and initial value 0 (R367). -/
def crc8 (bs : List (BitVec 8)) : BitVec 8 :=
  bs.foldl (fun c b => forN 8 (fun _ c => if c.msb then (c <<< 1) ^^^ 7#8 else c <<< 1) (c ^^^ b)) 0

/-- The control frame that carries bytes 6 × `pos` and on of message `m`, or none, with counter `n` (R367): SOM, EOM and the counter, six
bytes with 0 after the end, and the CRC-8. -/
def ctlFrame (m : Option (List (BitVec 8))) (pos n : Nat) : List (BitVec 8) :=
  let ends (m : List (BitVec 8)) := decide (m.length ≤ 6 * (pos + 1))
  let head := BitVec.ofNat 8 (b2n (m.isSome && pos == 0) * 128 + b2n (m.any ends) * 64 + n % 64)
  let body := head :: (List.range 6).map (fun i => (m.getD []).getD (6 * pos + i) 0)
  body ++ [crc8 body]

/-- With CBEN 1 a frame of port `t` puts out one control frame of the oldest message that waits, or an idle one; with CBEN 0 zeros
(R199, R367). -/
def State.ctlSend (s : State) (t : Nat) : State :=
  if !s.bitAt (Reg.AUD_TDM_CFG t) 4 then s.updPort t (fun p => { p with ctl := { p.ctl with sent := List.replicate 8 0 } }) else
  let c := (s.port t).ctl
  let q := Tab.get [] s.lnk.amp t
  let ends := q.head?.all (fun m => decide (m.length ≤ 6 * (c.txPos + 1)))
  let s := s.updPort t (fun p =>
    { p with ctl := { c with txN := (c.txN + 1) % 64, txPos := if ends then 0 else c.txPos + 1, sent := ctlFrame q.head? c.txPos c.txN } })
  if ends then s.updLnk (fun k => { k with amp := Tab.put [] k.amp t q.tail }) else s

/-- A message of the amplifier on port `t` (R367). CAP: byte 0x81, channel count, flags, voltage mask, current mask, to which SET with FS
answers; ACK: byte 0x82. What follows a message in its frames is 0. -/
def State.ampHeard (s : State) (t : Nat) (m : List (BitVec 8)) : State :=
  if !s.ampOn t then s else
  match m with
  | 0x81#8 :: ch :: fl :: v :: i :: rest =>
    if decide (1 ≤ ch.toNat ∧ ch.toNat ≤ 8) && rest.all (· == 0) then
      let w := wd (2 ^ 23 + fl.toNat % 2 * 2 ^ 22 + ch.toNat * 2 ^ 16 + v.toNat * 256 + i.toNat)
      let fs : BitVec 8 := if s.bitAt Reg.AUD_CTRL 1 then 1 else 0
      ((s.setTdmcap t w).ampSend t [0x02, fs]).updLnk (fun k => { k with ampAck := k.ampAck &&& ~~~ (1#4 <<< t) })
    else s
  | 0x82#8 :: rest => if rest.all (· == 0) then s.updLnk (fun k => { k with ampAck := k.ampAck ||| (1#4 <<< t) }) else s
  | _ => s

/-- A control frame comes in on port `t` with CBEN 1 (R367): one whose CRC-8 is bad or whose counter does not follow on abandons the message
that it belongs to, with cause 3 (log entry 156); a message has at most 10 frames. -/
def State.ctlTake (s : State) (t : Nat) (bs : List (BitVec 8)) : State :=
  if !s.bitAt (Reg.AUD_TDM_CFG t) 4 then s else
  let c := (s.port t).ctl
  let h := bs.getD 0 0
  let n := h.toNat % 64
  let som := h.getLsbD 7
  let good := crc8 (bs.take 7) == bs.getD 7 0
  let next : Nat := if good then n + 1 else c.rxN.getD 63 + 1
  if !good || !c.rxN.all (· == n) then
    let s := s.updPort t (fun p => { p with ctl := { c with rxN := some (next % 64), msg := [], frames := 0 } })
    if som || decide (0 < c.frames) then s.lnkErr 3 0 else s
  else
    let f := if som then 1 else if 0 < c.frames then c.frames + 1 else 0
    let m := if som then (bs.drop 1).take 6 else c.msg ++ (bs.drop 1).take 6
    let whole := decide (0 < f ∧ f ≤ 10) && h.getLsbD 6
    let on := decide (0 < f ∧ f < 10) && !whole
    let s := s.updPort t (fun p =>
      { p with ctl := { c with rxN := some (next % 64), msg := if on then m else [], frames := if on then f else 0
                               heard := s.timebase.toNat } })
    if whole then s.ampHeard t m else s

/-- Every 10 ms CAPQ is sent until the amplifier answers (R367). -/
def execCapq (t : Fin 4) (s : State) : Out :=
  .next (if s.ampOn t.val && !s.bitAt (Reg.LNK_TDMCAP t.val) 23 then s.ampSend t.val [0x01] else s)

/-- A message whose frames the port has taken reaches the control channel of port `t`, which has now heard a valid frame (R367). -/
def State.ampMessage (s : State) (t : Nat) (m : List (BitVec 8)) : State :=
  (s.updPort t (fun p => { p with ctl := { p.ctl with heard := s.timebase.toNat } })).ampHeard t m

/-- The amplifier's CAP (R367). -/
def execAmpCap (t : Fin 4) (bytes : List (BitVec 8)) (s : State) : Out :=
  .next (if bytes.head? = some 0x81 then s.ampMessage t.val bytes else s)

/-- The amplifier's ACK confirms SET (R367). -/
def execAmpAck (t : Fin 4) (s : State) : Out := .next (s.ampMessage t.val [0x82])

/-- No valid control frame for 100 ms, not before that instant: PRESENT reads 0 (R367; log entry 121). -/
def execAmpAbsent (t : Fin 4) (s : State) : Out :=
  let s := s.passTo ((s.port t.val).ctl.heard + 25000000)
  .next (s.setTdmcap t.val (s.reg (Reg.LNK_TDMCAP t.val) &&& ~~~ oneBit 23))

/-! ## Routing entries -/

/-- The routing entry of a stream that is in effect, the lowest (R376). -/
def State.routeOf (s : State) (sid : Nat) : Option Word :=
  (List.range 256).findSome? (fun i =>
    let w := s.inEff (Reg.LNK_RT i)
    if bit w 22 && getF w Fd.LNK_RT_SID == sid then some w else none)

/-- Every staged routing entry latches; a second entry of a SID is ignored and counted with cause 8 (R376). -/
def State.latchRoutes (s : State) : State :=
  let s := forN 256 (fun i s => s.latch (Reg.LNK_RT i)) s
  let s := forN 256 (fun i s =>
    let w := s.inEff (Reg.LNK_RT i)
    let dup := (List.range i).any (fun j =>
      let v := s.inEff (Reg.LNK_RT j)
      bit v 22 && getF v Fd.LNK_RT_SID == getF w Fd.LNK_RT_SID)
    if bit w 22 && dup then s.lnkErr 8 0 else s) s
  s.clrBit Reg.LNK_RTCMT 22

/-- GO: the entries latch at the next audio sample boundary, PEND reading 1 until then; with the audio engine off no
boundary is awaited (R376; log entry 22). -/
def State.routeGo (s : State) : State :=
  let s := s.setBit Reg.LNK_RTCMT 22
  if s.audState = 2 then s else s.latchRoutes

def execRtcmtGo (req : Req) (s : State) : Out := .next (s.regCmd req.val Reg.LNK_RTCMT State.routeGo)

end Sys2Proof.Machine
end

