-- ==== Sys2Proof/Machine/Link2.lean ====
section
/-! DEFINITION. What the link carries: time (R381, R382), streams (R212, R213, R375, R376), control frames and joining (R370,
R372, R379), pixel lines (R371); the writes of the LNK window (R385). -/
namespace Sys2Proof.Machine

/-! ## Time -/

/-- The timebase in three words, as TIME frames carry it (R370). -/
def timeWords (t : Nat) : List Word := [wd (t / 2 ^ 48), wd (t / 2 ^ 24), wd t]

/-- The instant in three words of a TIME frame. -/
def timeOf (ws : List Word) (i : Nat) : Nat :=
  (ws.getD i 0).toNat * 2 ^ 48 + (ws.getD (i + 1) 0).toNat * 2 ^ 24 + (ws.getD (i + 2) 0).toNat

/-- Every 1 ms a Uadrinath lane sends a TIME frame (R370, R382). -/
def State.timeSend (s : State) (n : Nat) : State :=
  if s.laneIsUp n && s.laneMode n == 2 then
    let t := s.timebase.toNat
    let (d, a) := ((s.lane n).part).getD (0, 0)
    let w9 := wd (s.fld Reg.LNK_REFSTAT Fd.LNK_REFSTAT_REF * 2 ^ 22 + b2n (s.bitAt Reg.LNK_REFSTAT 19) * 2 ^ 21
      + s.fld Reg.LNK_RINGSTAT Fd.LNK_RINGSTAT_THOPS)
    let s := s.sendOwn n 2 0 0 false false (timeWords t ++ timeWords a ++ timeWords d ++ [w9])
    s.updLane n (fun l => { l with sent := some (t, l.part) })
  else s

def execTimeSend (n : Fin 8) (s : State) : Out := .next (s.timeSend n.val)

/-- `n / d` rounded down, or up where a free bit says so and it is not whole: the spec names no rounding. -/
def State.freeRound (s : State) (n : Int) (d : Nat) : Int × State :=
  let q := n.fdiv d
  if q * d = n then (q, s) else (q + ((Config.freeValue s.freeCtr).toNat % 2 : Nat), s.useFree)

/-- One exchange of TIME frames is complete (R382): `d = ((t4 − t1) − (t3 − t2)) / 2 + ASYM`, averaged over the last 16. -/
def State.addDelay (s : State) (n : Nat) (t1 t2 t3 t4 : Int) : State :=
  let asym := signed 16 (s.fld (Reg.LNK_L_ASYM n) Fd.LNK_L_ASYM_ASYM)
  let d := 20 * ((t4 - t1) - (t3 - t2)) + asym
  let s := s.updLane n (fun l => { l with delays := (d :: l.delays).take 16 })
  let ds := (s.lane n).delays
  let (m, s) := s.freeRound (ds.foldl (· + ·) 0) ds.length
  s.setReg (Reg.LNK_L_DELAY n) (wdI m)

/-- An edge of GLK_IN as the genlock of the timebase (R380): accepted as R67 says, against the period of LNK_GLKREF; its active edge
is the rising one (log entry 158). With genlock the target, the offset is that of the edge from the nearest multiple of the period. -/
def State.glkRef (s : State) (rising : Bool) : State :=
  if !s.bitAt Reg.LNK_REFCFG 7 || !rising then s
  else
    let (n, d) := s.glkPeriod
    let now := s.timebase.toNat
    let r := s.lnk.ref
    let valid := (s.refSince 0).isSome
    let before := if valid then r.glkLast else r.glkCand
    let one := match before with
      | some t => decide (995 * n ≤ 1000 * (now - t) * d ∧ 1000 * (now - t) * d ≤ 1005 * n)
      | none => false
    if one then
      let s := (s.updRef (fun r => { r with glkLast := some now, glkCand := none })).refValid 0
      if s.fld Reg.LNK_REFSTAT Fd.LNK_REFSTAT_TARGET = 0 then
        let e := now * d % n
        let (o, s) := s.freeRound (4 * (if 2 * e < n then (e : Int) else e - n)) d
        s.setOffset o
      else s
    else if valid then s
    else s.updRef (fun r => { r with glkCand := some now })

/-- A filtered edge of GLK_IN reaches both beams, each with its own set, and the references (R67, R380). -/
def execGlkInEdge (rising : Bool) (s : State) : Out :=
  .next (s.declaring (fun s => ((s.glkEdge 0 rising).glkEdge 1 rising).glkRef rising))

/-- The audio engine restarts its sample grid as at step 3 of R178 (R381): STATE leaves 2, which aborts a night round (R229) and ends the
engine's declaration (R208). -/
def State.audRegrid (s : State) : State :=
  if s.audState = 2 then
    let s := s.setFld Reg.AUD_STAT Fd.AUD_STAT_STATE 1
    let s := forN 4 (fun t s => s.clrBit (Reg.AUD_TDM_STAT t) 23) s
    (s.nrAbort.clrBit Reg.AUD_STAT 21).audLock.declareAll
  else s

/-- The upstream time is `t1 + d` now, `d` in 0.1 ns (R382). The first lock after a reset or a join sets a timebase that is
off by more than 1 ms; otherwise it slews (R381). -/
def State.takeTime (s : State) (t1 : Nat) (d : Int) : State :=
  let now : Int := s.timebase.toNat
  let off10 := 40 * (now - t1) - d
  if !s.lnk.locked && decide (off10 < -10000000 ∨ 10000000 < off10) then
    let (x, s) := s.freeRound (40 * (t1 : Int) + d) 40
    let (o, s) := s.freeRound (40 * (x - t1) - d) 10
    let s := { s with timebase := BitVec.ofInt 64 x }
    let s := (s.setOffset o).updLnk (fun k => { k with locked := true })
    let s := forN 2 (fun b s => if s.genState b = 2 ∧ !s.extLock b then s.relock b else s) s
    s.audRegrid
  else
    let (o, s) := s.freeRound off10 10
    (s.setOffset o).updLnk (fun k => { k with locked := true })

/-- A TIME frame from upstream with departure `dep` (R380 to R382): link time is valid, unless frames had stopped for more than 3 ms. -/
def State.timeUp (s : State) (n dep hops : Nat) (late : Bool) : State :=
  let s := (if late then s.refLost 2 else s).refValid 2
  let s := s.setFld Reg.LNK_RINGSTAT Fd.LNK_RINGSTAT_THOPS (min 255 (hops + 1))
  if s.fld Reg.LNK_REFSTAT Fd.LNK_REFSTAT_TARGET = 2 ∧ (s.lane n).delays ≠ [] then
    s.takeTime dep (signed 24 (s.reg (Reg.LNK_L_DELAY n)).toNat)
  else s

/-- An exchange of TIME frames is complete where the frame answers the one sent last (R382). -/
def State.timeReply (s : State) (n : Nat) (ws : List Word) : State :=
  match (s.lane n).sent with
  | some (t3, some (t1, t2)) => if timeOf ws 6 = t3 then s.addDelay n t1 t2 t3 (timeOf ws 3) else s
  | _ => s

/-- A TIME frame arrives (R381, R382). -/
def State.timeHeard (s : State) (n : Nat) (f : LinkFrame) : State :=
  let now := s.timebase.toNat
  let dep := timeOf f.payload 0
  let late := (s.lane n).part.any (fun p => decide (750000 < now - p.2))
  let s := (if late then s.lnkErr 9 n else s).timeReply n f.payload
  let hops := getF (f.payload.getD 9 0) ⟨7, 0⟩
  let s := (s.updLane n (fun l => { l with part := some (dep, now), hops := hops })).settleTime
  if s.upstream = some n then s.timeUp n dep hops late else s

def execTimeFrame (n : Fin 8) (f : LinkFrame) (s : State) : Out :=
  .next (s.receive n.val 2 f (fun g s => s.timeHeard n.val g))

/-! ## Streams -/

/-- Samples per STREAM frame; 0 acts as 1 (R385). -/
def State.spf (s : State) : Nat := Nat.max 1 (s.fld Reg.LNK_CTRL Fd.LNK_CTRL_SPF)

/-- Is the stream sent in both directions (R375)? -/
def State.streamDual (s : State) (sid : Nat) : Bool :=
  match s.routeOf sid with
  | some w => bit w 23
  | none => false

/-- Send a STREAM frame of device `src` onto ring `r`, eastbound, and westbound too where `dual` (R375). -/
def State.streamOnto (s : State) (r : Nat) (dual : Bool) (src : BitVec 11) (sid seq : Nat) (xs : List Word) : State :=
  match s.ringLanes r with
  | none => s
  | some (e, w) =>
    let go (n : Nat) (west : Bool) (s : State) : State :=
      if s.ringLaneUp n then s.laneSend n 3 { s.ownFrame n (Config.ringHops r).toNat 0 sid west true seq xs with src := src } else s
    (if dual then go w true else id) (go e false s)

/-- A sample of index `i` crosses to link input `j` (R30, R202, R212): a full crossing drops it and counts it. -/
def State.crossIn (s : State) (j i : Nat) (x : Word) : State :=
  let q : List (Nat × Word) := Tab.get [] s.aud.linkIn j
  if 32 ≤ q.length then s.audCount Reg.AUD_OVRCNT 1 (some 4)
  else s.updAud (fun a => { a with linkIn := Tab.put [] a.linkIn j (q ++ [(i, x)]) })

/-- A sample of index `i` of stream `sid` is delivered to every link input that takes the stream. -/
def State.deliver (s : State) (sid i : Nat) (x : Word) : State :=
  if s.audState = 0 then s
  else forN 16 (fun j s =>
    let w := s.inEff (Reg.AUD_LNKIN j)
    if bit w 23 && getF w Fd.AUD_LNKIN_SID == sid then s.crossIn j i x else s) s

/-- The runs of consecutive indices of samples, as first index and samples. -/
def sampleRuns : List (Nat × Word) → List (Nat × List Word)
  | [] => []
  | (i, x) :: t =>
    match sampleRuns t with
    | [] => [(i, [x])]
    | (j, ys) :: r => if j = (i + 1) % 2 ^ 24 then (i, x :: ys) :: r else (i, [x]) :: (j, ys) :: r

/-- A segment head or the manager sends new indices of a stream whose entry has EN 1 onto the other rings of LANES (R376). -/
def State.bridge (s : State) (ring : Option Nat) (src : BitVec 11) (sid : Nat) (new : List (Nat × Word)) : State :=
  match s.bridges, s.routeOf sid with
  | true, some w =>
    forN 2 (fun r s =>
      match s.ringLanes r with
      | none => s
      | some (e, wst) =>
        let lanes := getF w Fd.LNK_RT_LANES
        if some r ≠ ring ∧ (lanes.testBit e || lanes.testBit wst) then
          (sampleRuns new).foldl (fun s x => s.streamOnto r (bit w 23) src sid x.1 x.2) s
        else s) s
  | _, _ => s

/-- Has index `i` of a stream come (R212)? The runs of indices that have come, first index and length, stand with the one that ends in the
latest index first; 2^23 indices and more behind the latest are the ones to come. -/
def idxSeen (r : List (Nat × Nat)) (i : Nat) : Bool :=
  match r with
  | [] => false
  | (a, n) :: _ =>
    decide ((a + n - 1 + 2 ^ 24 - i) % 2 ^ 24 < 2 ^ 23) && r.any (fun x => decide ((i + 2 ^ 24 - x.1) % 2 ^ 24 < x.2))

/-- Index `i` has come (R212): runs that lie 2^23 behind the latest index leave. -/
def idxTake (r : List (Nat × Nat)) (i : Nat) : List (Nat × Nat) :=
  match r with
  | [] => [(i, 1)]
  | (a, n) :: rest =>
    let ahead := (i + 2 ^ 25 - (a + n - 1)) % 2 ^ 24
    let near := fun (x : Nat × Nat) => decide ((i + 2 ^ 25 - (x.1 + x.2 - 1)) % 2 ^ 24 < 2 ^ 23)
    if ahead = 1 then (if n < 2 ^ 23 then (a, n + 1) else ((a + 1) % 2 ^ 24, n)) :: rest.filter near
    else if ahead < 2 ^ 23 then (i, 1) :: r.filter near
    else match rest with
      | (b, m) :: rest' => if (b + m) % 2 ^ 24 = i then (a, n) :: (b, m + 1) :: rest' else (a, n) :: (i, 1) :: rest
      | [] => [(a, n), (i, 1)]

/-- A valid copy of samples of a stream, from the ring given (R212, R213, R375): the indices not yet received are delivered
and bridged; `true` where there was none. -/
def State.streamIn (s : State) (ring : Option Nat) (src : BitVec 11) (sid seq : Nat) (xs : List Word) : State × Bool :=
  let seen := Tab.get [] s.lnk.seen sid
  let new := (xs.zipIdx.map (fun x => ((seq + x.2) % 2 ^ 24, x.1))).filter (fun x => !idxSeen seen x.1)
  let s := s.updLnk (fun k => { k with seen := Tab.put [] k.seen sid (new.foldl (fun r x => idxTake r x.1) seen) })
  let s := new.foldl (fun s x => s.deliver sid x.1 x.2) s
  (s.bridge ring src sid new, new.isEmpty)

/-- A STREAM frame: the first copy of each index is delivered, a later copy counts, and both are forwarded (R212, R374,
R375). -/
def State.streamHeard (s : State) (n : Nat) (f : LinkFrame) : State :=
  let (s, dup) := s.streamIn ((s.ringOf n).map (·.1)) f.src f.sid.toNat f.seq.toNat f.payload
  if dup then (s.bump Reg.LNK_DUPCNT).perf 23 3 else s

def execStreamFrame (n : Fin 8) (f : LinkFrame) (s : State) : Out :=
  .next (s.receive n.val 3 f (fun g s => s.streamHeard n.val g))

/-- Link output `o` gives the sample of index `k` (R202, R376): SPF samples fill a frame on the device's own ring, and the
device receives its own copy. -/
def State.linkOut (s : State) (o k : Nat) (x : Word) : State :=
  let q := Tab.get [] s.lnk.outs o ++ [(k % 2 ^ 24, x)]
  if q.length < s.spf then s.updLnk (fun l => { l with outs := Tab.put [] l.outs o q })
  else
    let s := s.updLnk (fun l => { l with outs := Tab.put [] l.outs o [] })
    let sid := getF (s.inEff (Reg.AUD_LNKOUT o)) Fd.AUD_LNKOUT_SID
    let me := BitVec.ofNat 11 s.devAddr
    (sampleRuns q).foldl (fun s r =>
      ((s.streamOnto 0 (s.streamDual sid) me sid r.1 r.2).streamIn (some 0) me sid r.1 r.2).1) s

/-! ## Control frames and joining -/

/-- Is `q` the header of the request that frame `r` answers? -/
def answers (r q : List Word) : Bool :=
  q.getD 2 0 == r.getD 2 0 && q.getD 3 0 == r.getD 3 0 && tykCode q == tykCode r && tykPlot q == tykPlot r

/-- A frame for Tyskaolo is received on transport `t` (R319): a request waits for the Steward; a reply goes to the operator host
whose request the manager relayed; a report goes to the operator host of the manager. -/
def State.tykReceive (s : State) (t : Transport) (ws : List Word) : State :=
  match tykKind ws with
  | 1 =>
    if s.tyk.relays.any (fun q => answers ws q.1) then
      (s.updTyk (fun k => { k with relays := k.relays.filter (fun q => !answers ws q.1) })).send .host ws
    else s
  | 2 => if s.isManager then s.send .host ws else s
  | _ => s.updTyk (fun k => { k with inq := k.inq ++ [⟨t, ws, k.holder⟩] })

/-- A CTRL frame carries a Tyskaolo frame to its addressee, sealed under the keys of its sender (R319, R370, R372); one that does not open
is dropped and counted with cause 3 (log entry 149). -/
def State.ctrlHeard (s : State) (n : Nat) (f : LinkFrame) : State :=
  match (s.e2eOf f.dest.toNat f.src.toNat).bind (fun x => if x.keyed then x.unsealed f.payload else none) with
  | some ws => s.tykReceive .link ws
  | none => s.lnkErr 3 n

def execCtrlFrame (n : Fin 8) (f : LinkFrame) (s : State) : Out :=
  .next (s.receiveOnce n.val 4 f (fun g s => if s.frameMine g || g.bc then s.ctrlHeard n.val g else s))

/-- Set the directory. -/
def State.setDir (s : State) (d : List DirEntry) : State := s.updLnk (fun k => { k with dir := d })

/-- Is an address free at the manager (R21)? -/
def State.addrFree (s : State) (a : Nat) : Bool := a != s.devAddr && !s.lnk.dir.any (fun e => e.addr == a)

/-- The partner under which a device joins, at both ends: address 0 at both (R379 step 3). -/
def joinPartner (n : Nat) : E2eSt := { me := 0, peer := 0, lane := some n }

/-- The authentication of a join has ended: the partner has the address that was assigned. -/
def State.joinKeyed (s : State) (me peer : Nat) : State :=
  match s.e2eOf 0 0 with
  | some x => (s.updLnk (fun k => { k with e2e := k.e2e.filter (fun e => e != x) })).putE2e { x with me := me, peer := peer, lane := none }
  | none => s

/-- The manager gives the device that has proved itself the address held for its pair of DEVID and serial, or the lowest free one (R21,
R379 step 3). -/
def State.joinAssign (s : State) (n : Nat) (devid cser : Word) (pos : Nat) : State :=
  let stby := s.fld Reg.LNK_MGRCFG Fd.LNK_MGRCFG_STBYADDR
  let epoch := s.fld Reg.LNK_STAT Fd.LNK_STAT_EPOCH
  match s.lnk.dir.find? (fun e => e.devid == devid && e.cser == cser) with
  | some e =>
    let s := s.setDir (s.lnk.dir.map (fun x => if x.addr = e.addr then { x with lost := false, pos := pos } else x))
    (((s.joinSend n (Config.joinText (.accept e.addr e.role stby epoch))).openRing n).joinKeyed 0 e.addr).dirReport 1 e.addr devid
  | none =>
    match ((List.range 2047).map (· + 1)).find? s.addrFree with
    | some a =>
      let (role, seg) := Config.joinPlace devid cser.toNat
      let s := s.setDir (s.lnk.dir ++ [⟨a, role % 8, false, seg % 2048, pos, devid, cser, (s.ringOf n).elim 0 (·.1)⟩])
      (((s.joinSend n (Config.joinText (.accept a (role % 8) stby epoch))).openRing n).joinKeyed 0 a).dirReport 1 a devid
    | none => (s.joinSend n (Config.joinText .refuse)).dirReport 4 0 devid

/-- A join request at the manager begins the end-to-end authentication with the device (R379 step 3). A request whose authentication
has not ended gives way to it (log entry 154). -/
def State.joinAsked (s : State) (n : Nat) (devid cser : Word) (pos : Nat) : State :=
  (s.updLnk (fun k => { k with joinOf := some (n, devid, cser, pos) })).e2eBegin (joinPartner n)

/-- End-to-end authentication with a partner fails: it is forgotten, with cause 7 and AUTHFAIL (R372), and a join with JOINFAIL (R379). -/
def State.e2eFails (s : State) (n : Nat) (x : E2eSt) : State :=
  let s := s.updLnk (fun k => { k with e2e := k.e2e.filter (fun e => !(e.me == x.me && e.peer == x.peer)), joinOf := none })
  let s := (s.lnkErr 7 n).setBit Reg.LNK_EVT 9
  if x.lane.isSome && s.lnk.joinAsk then s.setBit Reg.LNK_EVT 8 else s

/-- The first message of a partner (R372): one that begins a new exchange is answered with an own one, and where its chain holds the
signature is sent. -/
def State.e2eHello (s : State) (n : Nat) (x : E2eSt) (ws : List Word) : State :=
  if ws = x.auth.mine ∨ ws = x.auth.theirs then s
  else
    let s := if x.auth.mine = [] then s.e2eBegin x else s
    let y := (s.e2eOf x.me x.peer).getD x
    let y := { y with auth := { y.auth with theirs := ws } }
    if s.chainOk y.auth then
      let (sig, s) := (s.putE2e y).authSign y.auth
      s.e2eSend y (Config.joinText (.proof true sig))
    else s.e2eFails n y

/-- The signature of a partner (R372): its keys stand, what waited is sent, and a device that asked the manager to join has its answer
(R379). -/
def State.e2eProof (s : State) (n : Nat) (x : E2eSt) (sig : Bytes) : State :=
  if x.auth.mine = [] then s
  else
    let x := { x with auth := { x.auth with proof := sig } }
    match s.authKeys x.auth with
    | none => s.e2eFails n x
    | some k =>
      let s := s.e2eKeyed x k
      match (if x.lane.isSome then s.lnk.joinOf else none) with
      | some (l, d, c, p) => (s.updLnk (fun k => { k with joinOf := none })).joinAssign l d c p
      | none => s

/-- A JOIN frame (R372, R379): of a hop it is for the partner of the lane; else for the device that it is addressed to, and from the manager
for the device that has asked to join. A device that hears no such frame for itself takes the answer to its neighbour as a sign
that this has joined. In recovery none is accepted (R356). -/
def State.joinHeard (s : State) (n : Nat) (f : LinkFrame) : State :=
  let joins := s.lnk.joinAsk && !s.joined && f.dest == 0
  let mine := s.frameMine f || joins
  let x := if joins ∨ f.src = 0 ∧ f.dest = 0 then joinPartner n else { me := f.dest.toNat, peer := f.src.toNat }
  let x := (s.e2eOf x.me x.peer).getD x
  match (if s.recovery then none else Config.joinRead f.payload) with
  | some (.hello false _ _ _ _) => s.hopHello n f.payload
  | some (.proof false sig) => s.hopProof n sig
  | some (.hello true _ _ _ _) => if mine then s.e2eHello n x f.payload else s
  | some (.proof true sig) => if mine then s.e2eProof n x sig else s
  | some (.ask d c p) => if s.frameMine f then s.joinAsked n d c p else s
  | _ => s

def execJoinFrame (n : Fin 8) (f : LinkFrame) (s : State) : Out :=
  .next (s.receive n.val 5 f (fun g s => s.joinHeard n.val g))

/-- JOIN-ACCEPT at the joining device (R379 step 4), which the end-to-end authentication precedes: address, role, forwarding, JOINDONE;
the ring is no longer cut here where the neighbours have joined. -/
def State.joinDone (s : State) (a role stby epoch : Nat) : State :=
  let s := s.setReg Reg.LNK_ADDR (wd (2 ^ 23 + b2n (s.bitAt Reg.LNK_ADDR 22) * 2 ^ 22 + a % 2048))
  let s := (s.setFld Reg.LNK_CTRL Fd.LNK_CTRL_ROLE role).setBit Reg.LNK_CTRL 17
  let s := s.setFld Reg.LNK_MGRCFG Fd.LNK_MGRCFG_STBYADDR stby
  let s := (s.setFld Reg.LNK_STAT Fd.LNK_STAT_EPOCH epoch).setBit Reg.LNK_STAT 23
  let s := ((s.setBit Reg.LNK_EVT 7).updLnk (fun k => { k with joinAsk := false, locked := false })).joinKeyed (a % 2048) 0
  forN 8 (fun n s => if s.ringLaneUp n && s.partnerIn n then s.ringBack n else s) s

/-- A JOIN frame that answers this device's request acts here; any other passes on, and a JOIN-ACCEPT for the partner of the onward lane
opens forwarding to it. -/
def State.joinAnswerFrame (s : State) (n : Nat) (f : LinkFrame) (act : LinkFrame → State → State) : State :=
  if s.lnk.joinAsk && !s.joined && !s.recovery then
    let s := s.laneCounts n f
    if !s.laneTakes n then s
    else match s.frameOpen n 5 f with
      | some ws => act { f with payload := ws } (s.perf 23 1)
      | none => s.frameBad n 5
  else s.receive n 5 f (fun _ s => s)

def execJoinAccept (n : Fin 8) (f : LinkFrame) (s : State) : Out :=
  .next (s.joinAnswerFrame n.val f (fun g s =>
    match Config.joinRead g.payload with
    | some (.accept a role stby epoch) =>
      if ((s.e2eOf 0 0).map (·.keyed)).getD false then (s.joinDone a role stby epoch).settleRef else s
    | _ => s))

def execJoinRefuse (n : Fin 8) (f : LinkFrame) (s : State) : Out :=
  .next (s.joinAnswerFrame n.val f (fun _ s => s.setBit Reg.LNK_EVT 8))

/-- A join that failed is tried again every 1 s on the ring lanes that are up; a step that has not been answered has failed (R379). -/
def execJoinRetry (s : State) : Out :=
  .next (if s.lnk.joinAsk && !s.joined then
    let s := s.setBit Reg.LNK_EVT 8
    match (List.range 8).find? (fun n => (s.ringOf n).isSome && s.ringLaneUp n && s.laneMode n == 2) with
    | some n => s.joinAskOn n
    | none => s
  else s)

/-! ## Pixel lines -/

/-- The beam that lane `n` carries: of a bonded pair, what its even lane says. -/
def State.laneBeam (s : State) (n : Nat) : Nat :=
  s.fld (Reg.LNK_L_CFG (if (s.lane n).wide then n / 2 * 2 else n)) Fd.LNK_L_CFG_BEAM

/-- The pixel lanes that carry beam `b`, for line `v`: of a bonded pair the even or the odd lane, also after the other lane went down
(R371). -/
def State.pixelLanes (s : State) (b v : Nat) : List Nat :=
  (List.range 8).filter (fun n =>
    s.laneIsUp n && s.laneMode n == 3 && s.laneBeam n == b && (!(s.lane n).wide || n % 2 == v % 2))

/-- A frame on a pixel lane: clear, with no address (R369, R371). -/
def State.pixelSend (s : State) (n ty : Nat) (ws : List Word) : State :=
  (s.laneSend n ty { s.ownFrame n 0 0 0 false false (s.nextSeq ty) ws with keyid := 0 }).stepSeq ty

/-- A LINE frame leaves within 1 µs, or is dropped with cause 5 where the lane is still busy with the line before it (R371). -/
def State.pixelLine (s : State) (n : Nat) (ws : List Word) : State :=
  if s.timebase.toNat + 250 < leftAt (s.laneMult n) (s.lane n).out then s.laneErr 5 n else s.pixelSend n 7 ws

/-- While the beam acquires or re-locks, a RELOCK frame with the new active area takes the place of lines every 10 µs
(R370, R371). -/
def execRelockFrame (n : Fin 8) (s : State) : Out :=
  let b := s.laneBeam n.val
  .next (if s.laneIsUp n.val && s.laneMode n.val == 3 && (s.genState b == 1 || s.genState b == 4) then
    s.pixelSend n.val 8 [wd ((s.inEff (Reg.BM_HACT b)).toNat % 2 ^ 14), wd ((s.inEff (Reg.BM_VACT b)).toNat % 2 ^ 13)]
  else s)

/-! ## The other registers of the window -/

/-- A write to offset `o` of the LNK window. -/
def State.writeLink (s : State) (o : Nat) (v : Word) : State :=
  let a := 0x80B0000 + o
  if 0x20 ≤ o ∧ o < 0x60 then
    let n := (o - 0x20) / 8
    s.laneWrite n (fun s => if o % 8 = 0 then s.writeLaneCfg n v else s.plainWrite a v)
  else if o = 0x14 then if bit v 23 then s.routeGo else s
  else if o = 5 then ((s.plainWrite a v).putBit Reg.LNK_STAT 23 (bit v 23)).settleRef
  else if o = 0 ∨ o = 9 then (s.plainWrite a (if o = 0 ∧ s.recovery then putF v Fd.LNK_CTRL_ROLE 0 else v)).settleRings.refSettle
  else if o = 6 then (s.plainWrite a v).settleRings
  else s.plainWrite a v

end Sys2Proof.Machine
end

