-- ==== Sys2Proof/Machine/Plots.lean ====
section
/-! DEFINITION. The plot controller (R335 to R345, R358): fence, release, reset and restart of a plot, page tables, beam
reservations. -/
namespace Sys2Proof.Machine

/-- Count in PLT_ERRCNT. -/
def State.pltErr (s : State) : State := s.err 1 0

/-- Set PLT_STATE_p.STATE. -/
def State.setPlotState (s : State) (p n : Nat) : State := s.setFld (Reg.PLT_STATE p) Fd.PLT_STATE_STATE n

/-- The cores of plot `p`. -/
def State.coresOf (s : State) (p : Nat) : List Nat := (List.range 16).filter (fun c => s.corePlot c == p)

/-! ## Fence -/

/-- A beam of the fenced plot: its Furrow engine halts and its output copy stops (R342 step 2). -/
def State.fenceBeam (s : State) (b : Nat) : State :=
  ((s.furHalt b).updOut b (fun o => { o with capOn := false, capEnd := none })).clrBit (Reg.BM_CAPSTAT b) 23

/-- The units of the plot (R342 step 3, R353), besides the Harrow queues, which the fabric's fence flushes: Sheaf slot, voices, record rings, Drill channels, a security
operation. -/
def State.fenceUnits (s : State) (p : Nat) : State :=
  let s := s.audFence p
  let s := forN 32 (fun c s => if s.ownerRes 5 c = p ∧ s.bitAt (Reg.DRL_CH_CTRL c) 23 then s.drlStop c else s) s
  s.secAbandon p

/-- Setting REQ starts a fence in the fabric (R56), which the Harrow takes as a flush of the plot's queues (R173). -/
def State.fenceReq (s : State) (p : Nat) : State := if s.refuses p then s else (s.hrwFence p).fenceStart p

def execFenceReq (req : Req) (p : Fin 8) (s : State) : Out :=
  .next (s.regCmd req.val Reg.FAB_FENCE (fun s => s.fenceReq p.val))

/-- A write of FAB_FENCE: its REQ bits, then its REL bits. -/
def State.writeFence (s : State) (v : Word) : State :=
  let s := forN 8 (fun p s => if bit v p then s.fenceReq p else s) s
  forN 8 (fun p s => if bit v (16 + p) then s.fenceLift p else s) s

/-- Page writes of a unit of plot `p` that have not begun programming are discarded (R342 step 5): the night round's log page where the
supervision unit is the plot's, and the round then no longer waits for it. -/
def State.fencePages (s : State) (p : Nat) : State :=
  if s.supPlot = p ∧ (s.grn.drop 1).any (·.sup) then
    (State.settleGrn { s with grn := s.grn.take 1 ++ (s.grn.drop 1).filter (fun j => !j.sup) }).setNrState 0
  else s

/-- A fence of plot `p`, accepted in RUN (R341, R342). -/
def State.plotFence (s : State) (p : Nat) : State :=
  if s.plotState p ≠ 0 then s.pltErr
  else
    let s := (s.setPlotState p 1).tykFence p
    let s := forN 2 (fun b s => if s.ownerRes 1 b = p then s.fenceBeam b else s) s
    ((s.fenceUnits p).fencePages p).fenceReq p

/-- Has the fabric finished the fence, and is no page of a unit of the plot being programmed (R342 step 6)? -/
def State.fenceOver (s : State) (p : Nat) : Bool :=
  s.plotState p == 1 && s.bitAt Reg.FAB_FENCE (8 + p) && !(s.grn.any (fun j => j.sup && s.supPlot == p))

def execPlotFenced (p : Fin 8) (s : State) : Out :=
  .next (if s.fenceOver p.val then (s.setPlotState p.val 2).tykPlotDone (.fence p.val) else s)

/-! ## Release, restart, reset -/

/-- A release, accepted in FENCED (R344). -/
def State.plotRelease (s : State) (p : Nat) : State :=
  if s.plotState p ≠ 2 then s.pltErr else (s.fenceLift p).setPlotState p 0

/-- Core `c` starts at an address with its registers at their reset values (R344); what its caches hold stays. -/
def State.startCore (s : State) (c : Nat) (pc : Word) : State :=
  s.updProc c (fun x => { pc := pc, parked := false, dcache := x.dcache, icache := x.icache, tlb := x.tlb })

/-- A restart, accepted in FENCED (R344). -/
def State.plotRestart (s : State) (p : Nat) : State :=
  if s.plotState p ≠ 2 then s.pltErr
  else
    let pc := s.reg (Reg.PLT_BOOT p)
    ((s.coresOf p).foldl (fun s c => s.startCore c pc) (s.fenceLift p)).setPlotState p 0

/-- Is the register at `a` one that belongs to plot `p` under R336? -/
def State.ownedBy (s : State) (p a : Nat) : Bool :=
  match regionOf a with
  | .window w o => s.ownerAt w o == .plot p
  | _ => false

/-- Core `c` is reset (R343): its registers, its caches without a writeback, its debug halt (R461). -/
def State.resetCore (s : State) (c : Nat) : State :=
  let parked := (s.proc c).parked
  let s := (s.setProc c { parked := parked }).clrBit Reg.DBG_HALTED c
  { s with fab := { s.fab with snoops := s.fab.snoops.filter (fun x => x.core != c) } }

/-- Hidden state of the units that plot `p` owns. -/
def State.resetUnits (s : State) (p : Nat) : State :=
  let s := forN 2 (fun b s => if s.ownerRes 1 b = p then s.tenOff b else s) s
  let s := forN 2 (fun b s => if s.ownerRes 15 b = p then s.updBeam b (fun x => { x with regions := [] }) else s) s
  let mine (t : Nat) : Bool := s.ownerRes 6 t == p
  let s := forN 16 (fun t s => if mine t then
    { s with tmr := { cnt := Tab.put 0 s.tmr.cnt t 0, pre := Tab.put 0 s.tmr.pre t 0,
                      start := s.tmr.start &&& ~~~ (1#16 <<< t), cap := s.tmr.cap &&& ~~~ (1#16 <<< t),
                      load := s.tmr.load &&& ~~~ (1#16 <<< t), busy := s.tmr.busy &&& ~~~ (1#16 <<< t) } } else s) s
  let s := forN 64 (fun v s => if s.ownerRes 10 v = p then s.updVoice v (fun _ => {}) else s) s
  let s := forN 4 (fun l s => if s.ownerRes 16 l = p then
    s.updAud (fun a => { a with trims := Tab.put {} a.trims l {}, amb := Tab.put {} a.amb l {} }) else s) s
  let s := s.updAud (fun a => { a with nodeTo := a.nodeTo.keep (fun j => s.ownerRes 8 (j / 64) != p) })
  let s := if s.ownerRes 18 0 = p ∧ s.bitAt Reg.AUD_CTRL 0 then s.audStop else s
  let s := if s.ownerRes 14 0 = p then { s with sup := {} } else s
  if s.ownerRes 19 0 = p then { s with acw := {} } else s

/-- The levels and events of the plot's GPIO pins (R343). -/
def State.resetPins (s : State) (p : Nat) : State :=
  forN 48 (fun n s => if s.ownerRes 7 n = p ∧ !s.secPin n then
    (s.clrBit (Reg.GPO_OUT (n / 24)) (n % 24)).clrBit (Reg.GPO_EVT (n / 24)) (n % 24) else s) s

/-- A reset, accepted in FENCED (R343): cores, registers, mailboxes. -/
def State.plotReset (s : State) (p : Nat) : State :=
  if s.plotState p ≠ 2 then s.pltErr
  else
    let s := s.setPlotState p 3
    let s := (s.coresOf p).foldl State.resetCore s
    let s := (s.resetUnits p).resetPins p
    let s' := s.resetRegs (s.ownedBy p)
    let s' := { s' with work := s'.work.keep (fun a => !s.ownedBy p a) }
    [p, p + 8].foldl (fun s m => (s.setReg (Reg.STW_MB_HEAD m) 0).setReg (Reg.STW_MB_TAIL m) 0) s'

def execPlotResetDone (p : Fin 8) (s : State) : Out :=
  .next (if s.plotState p.val = 3 then (s.setPlotState p.val 2).tykPlotDone (.reset p.val) else s)

/-- A command for plot 0 is dropped and counted (R341). -/
def State.plotCmd (s : State) (p : Nat) (f : State → State) : State := if p = 0 then s.pltErr else f s

/-- A write of PLT_PCMD (R341). -/
def State.writePcmd (s : State) (v : Word) : State :=
  let p := getF v Fd.PLT_PCMD_PLOT
  s.plotCmd p (fun s =>
    match getF v Fd.PLT_PCMD_ACTION with
    | 1 => s.plotFence p
    | 2 => s.plotRelease p
    | 3 => s.plotReset p
    | 4 => s.plotRestart p
    | _ => s.pltErr)

def execPlotFence (req : Req) (p : Fin 8) (s : State) : Out :=
  .next (s.regCmd req.val Reg.PLT_PCMD (fun s => s.plotCmd p.val (fun s => s.plotFence p.val)))

def execPlotRelease (req : Req) (p : Fin 8) (s : State) : Out :=
  .next (s.regCmd req.val Reg.PLT_PCMD (fun s => s.plotCmd p.val (fun s => s.plotRelease p.val)))

def execPlotReset (req : Req) (p : Fin 8) (s : State) : Out :=
  .next (s.regCmd req.val Reg.PLT_PCMD (fun s => s.plotCmd p.val (fun s => s.plotReset p.val)))

def execPlotRestart (req : Req) (p : Fin 8) (s : State) : Out :=
  .next (s.regCmd req.val Reg.PLT_PCMD (fun s => s.plotCmd p.val (fun s => s.plotRestart p.val)))

/-! ## Page tables and reservations -/

/-- May the entry stand in the table of plot `p` (R337)? -/
def State.ptOk (s : State) (p : Nat) (v : Word) : Bool :=
  let g := getF v ⟨11, 0⟩
  !bit v 23 || decide (0x180 ≤ g) || s.fld (Reg.PLT_PGOWN g) Fd.PLT_PGOWN_OWNER == p || s.bitAt (Reg.PLT_PGOWN g) 4

/-- A page-table write: checked, and every core of the plot drops its copy of the entry (R282, R337). -/
def State.writePt (s : State) (p page : Nat) (v : Word) : State :=
  if !s.ptOk p v then s.pltErr
  else
    let s := s.plainWrite (Reg.PLT_PT p page) v
    (s.coresOf p).foldl (fun s c => s.updProc c (fun x => { x with tlb := x.tlb.filter (· != page) })) s

def execPageTableWrite (req : Req) (p : Fin 8) (page : BitVec 8) (v : Word) (s : State) : Out :=
  .next (s.regCmd req.val (Reg.PLT_PT p.val page.toNat) (fun s => s.writePt p.val page.toNat v))

/-- The sum over the plots of a reservation field with plot `p` at `v` (R340). -/
def State.bresSum (s : State) (p : Nat) (f : Fld) (v : Word) : Nat :=
  (List.range 8).foldl (fun n q => n + (if q = p then getF v f else s.fld (Reg.PLT_BRES q) f)) 0

/-- A write of PLT_BRES_p (R340). -/
def State.writeBres (s : State) (p : Nat) (v : Word) : State :=
  if 16 < s.bresSum p Fd.PLT_BRES_RESA v ∨ 16 < s.bresSum p Fd.PLT_BRES_RESB v then s.pltErr
  else s.plainWrite (Reg.PLT_BRES p) v

def execBresWrite (req : Req) (p : Fin 8) (v : Word) (s : State) : Out :=
  .next (s.regCmd req.val (Reg.PLT_BRES p.val) (fun s => s.writeBres p.val v))

/-- A write to offset `o` of the PLT window. -/
def State.writePlt (s : State) (o : Nat) (v : Word) : State :=
  if o = 0 then s.writePcmd v
  else if 0x20 ≤ o ∧ o < 0x28 then s.writeBres (o - 0x20) v
  else if 0x2000 ≤ o ∧ o < 0x2800 then s.writePt ((o - 0x2000) / 256) (o % 256) v
  else s.plainWrite (0x8010000 + o) v

end Sys2Proof.Machine
end

