-- ==== Sys2Proof/Machine/Power.lean ====
section
/-! DEFINITION. Power and reset (R440 to R450, R452, R457): domains, power states, wake, start-up, the resets, the voltage
loop (R78 to R80) and its interface (R442, R443), the junction sensor (R79, R444). -/
namespace Sys2Proof.Machine

/-- Count a PWR error with its cause and domain (R450). -/
def State.pwrErr (s : State) (cause d : Nat) : State := (s.err 15 cause).setFld Reg.PWR_LASTERR Fd.PWR_LASTERR_DOMAIN d

/-- Change the power unit. -/
def State.updPwr (s : State) (f : PwrSt → PwrSt) : State := { s with pwr := f s.pwr }

/-! ## The voltage request -/

/-- Ask the regulator for code `c`: a frame is sent when the code changes; one that arises during a frame waits (R443). -/
def State.requestCode (s : State) (c : Nat) : State :=
  let s := s.setFld Reg.PWR_VSTAT Fd.PWR_VSTAT_REQ c
  s.updPwr (fun p => if p.inFrame.isSome then { p with pendReq := some c } else { p with inFrame := some c, retries := 0 })

/-- The next frame, where a request waits and differs from the code that the last frame carried (R443). -/
def State.nextFrame (s : State) (last : Nat) : State :=
  s.updPwr (fun p => { p with inFrame := p.pendReq.filter (· != last), pendReq := none, retries := 0 })

/-- The ACK period ends (R443): an acknowledged code is ACKED; anything else is retried up to 3 times and then counted. -/
def State.vreqAnswer (s : State) (ack : Bool) : State :=
  match s.pwr.inFrame with
  | none => s
  | some c =>
    if ack then (s.setFld Reg.PWR_VSTAT Fd.PWR_VSTAT_ACKED c).nextFrame c
    else if s.pwr.retries < 3 then s.updPwr (fun p => { p with retries := p.retries + 1 })
    else ((s.setBit Reg.PWR_EVT 3).pwrErr 5 0).nextFrame c

def execVreqResponse (ack : Bool) (s : State) : Out := .next (s.vreqAnswer ack)

/-! ## The loop -/

/-- A code register; above 35 acts as 35. -/
def State.codeAt (s : State) (a : Nat) : Nat := Nat.min 35 ((s.reg a).toNat % 64)

/-- The need term after a window whose smallest tolerance was `m` ns, and the windows above the high slack (R78). Each window is judged by
the HIGHSLACK of its own time, and those that ended while EN was 0 are forgotten: the spec says neither, DESIGN CHOICE (log entry
130). -/
def State.nextNeed (s : State) (m : Nat) : Nat × Nat :=
  let c := Reg.PWR_VLOOP
  let n := s.pwr.need
  let k := if 16 * s.fld c Fd.PWR_VLOOP_HIGHSLACK < m then s.pwr.windows + 1 else 0
  if !s.bitAt c 23 then (0, 0)
  else if m < 16 * s.fld c Fd.PWR_VLOOP_LOWSLACK then (Nat.min (n + 1) 35, k)
  else if 0 < k ∧ Nat.max 1 (s.fld c Fd.PWR_VLOOP_DOWNWIN) ≤ k ∧ s.bitAt c 22 then (n - 1, k)
  else (n, k)

/-- One window of the voltage loop (R78, R80). -/
def State.vloop (s : State) (m : Nat) : State :=
  if !s.dom 2 then s
  else
    let (need, k) := s.nextNeed m
    let limit := Nat.min (s.fld Reg.PWR_VSTAT Fd.PWR_VSTAT_THERM) (s.codeAt Reg.PWR_VCEIL)
    let target := Nat.min limit (Nat.max (s.codeAt Reg.PWR_VFLOOR) need)
    let req := s.fld Reg.PWR_VSTAT Fd.PWR_VSTAT_REQ
    let s := if req < target then s.requestCode (req + 1) else if target < req then s.requestCode (req - 1) else s
    let capped := decide (limit < need)
    let s := if capped && !s.bitAt Reg.PWR_VSTAT 5 then s.setBit Reg.PWR_EVT 2 else s
    let s := if capped then s.bump Reg.PWR_VCAPCNT else s
    (s.putBit Reg.PWR_VSTAT 5 capped).updPwr (fun p => { p with need := need, windows := k })

/-- A window ends: the loop reads the smallest value that the declared tolerances took in it, and the next window begins. -/
def State.vloopWindow (s : State) : State :=
  let s := if s.dom 2 then s.declareAll else s
  (s.vloop s.pwr.winMin).updPwr (fun p => { p with winMin := s.fld Reg.FAB_TOL Fd.FAB_TOL_TOL })

def execVloopWindow (s : State) : Out := .next s.vloopWindow

/-- The junction sensor in units of 0.5 °C. -/
def State.junction (s : State) : Int := signed 10 (s.fld Reg.PWR_TEMP Fd.PWR_TEMP_TEMP)

/-- Every 1 ms the thermal limit moves (R79); THERM tells that it starts to fall and that it is at 35 again (R444). -/
def State.thermStep (s : State) : State :=
  if !s.dom 2 then s
  else
    let t := s.fld Reg.PWR_VSTAT Fd.PWR_VSTAT_THERM
    let put (n : Nat) (s : State) : State := s.setFld Reg.PWR_VSTAT Fd.PWR_VSTAT_THERM n
    if 240 ≤ s.junction then
      let s := if t = 35 then s.setBit Reg.PWR_EVT 1 else s
      put (t - 1) s
    else if s.junction < 234 ∧ t < 35 then
      let s := put (t + 1) s
      if t = 34 then s.setBit Reg.PWR_EVT 1 else s
    else s

def execThermalLimitStep (s : State) : Out := .next s.thermStep

/-- A reading of the junction sensor (R444): two in a row of 130 °C or more are a thermal trip; below 110 °C it is over. -/
def State.tempRead (s : State) (t : BitVec 10) : State :=
  if !s.pwr.pd0Runs then s
  else
    let v := signed 10 t.toNat
    let hot := decide (260 ≤ v)
    let trip := hot && s.pwr.hot && !s.pwr.tripped
    let s := if trip then s.externalScope 20 else s
    (s.setReg Reg.PWR_TEMP (wd t.toNat)).updPwr (fun p =>
      { p with hot := hot, tripped := (p.tripped || trip) && decide (220 ≤ v) })

def execTempRead (temp : BitVec 10) (s : State) : Out := .next (s.tempRead temp)

/-! ## Domains -/

/-- The requesters of a domain (R15, R24). -/
def domainReqs (d : Nat) : List Nat :=
  if 4 ≤ d ∧ d < 8 then (List.range 4).map (4 * (d - 4) + ·)
  else if d = 12 then [17] else if d = 13 then [18] else if d = 14 then [19] else if d = 15 then [21] else []

/-- Transactions owed to a domain that goes off are discarded with their tags (R445). -/
def State.dropTxns (s : State) (rs : List Nat) : State :=
  State.countTags { s with fab := { s.fab with inflight := s.fab.inflight.filter (fun t => !rs.contains t.req),
                                               waiters := s.fab.waiters.filter (fun t => !rs.contains t.req) } }

/-- Hidden state that goes with a domain. -/
def State.loseHidden (s : State) (d : Nat) : State :=
  if 4 ≤ d ∧ d < 8 then
    (List.range 4).foldl (fun s i =>
      let c := 4 * (d - 4) + i
      let s := (s.setProc c {}).clrBit Reg.DBG_HALTED c
      { s with fab := { s.fab with snoops := s.fab.snoops.filter (fun x => x.core != c) } }) s
  else if d = 12 ∨ d = 13 then
    let b := d - 12
    let s := s.setBeam b {}
    { s with work := s.work.keep (fun a => !ofDomain d a) }
  else if d = 14 then { s with hrw := {} }
  else if d = 15 then { s with aud := {} }
  else if d = 17 ∨ d = 18 then
    (List.range 4).foldl (fun s i =>
      let n := 4 * (d - 17) + i
      (s.laneDown n 0).updLane n (fun l => { out := l.out })) s
  else s

/-- Domain `d` goes off (R445). -/
def State.domainOff (s : State) (d : Nat) : State :=
  if !s.dom d then s.updPwr (fun p => { p with rising := p.rising &&& ~~~ (1#20 <<< d) })
  else ((((s.loseHidden d).dropTxns (domainReqs d)).loseRegs d).clrBit Reg.PWR_DOMSTAT d).updPwr
    (fun p => { p with rising := p.rising &&& ~~~ (1#20 <<< d) })

/-- Domain `d` begins to come on. -/
def State.domainRise (s : State) (d : Nat) : State :=
  if s.dom d then s else s.updPwr (fun p => { p with rising := p.rising ||| (1#20 <<< d) })

/-- Domain `d` has come on: it has left reset and reads 1 (R445). -/
def State.domainUp (s : State) (d : Nat) : State :=
  if s.pwr.rising.getLsbD d then
    (s.setBit Reg.PWR_DOMSTAT d).updPwr (fun p => { p with rising := p.rising &&& ~~~ (1#20 <<< d) })
  else s

def execDomainOnDone (d : Fin 20) (s : State) : Out := .next (s.domainUp d.val)

/-- Is domain `d` switched through PWR_DOMCTRL (R445)? -/
def switched (d : Nat) : Bool := (decide (4 ≤ d) && decide (d ≤ 7)) || (decide (12 ≤ d) && d != 16)

/-- May domain `d` be switched off now (R445)? -/
def State.mayOff (s : State) (d : Nat) : Bool :=
  if d ≤ 7 then (List.range 4).all (fun i =>
    let p := s.corePlot (4 * (d - 4) + i)
    p == 0 || s.plotState p == 2)
  else if d = 12 ∨ d = 13 then !s.bitAt (Reg.BM_TCTRL (d - 12)) 0
  else if d = 15 then !s.bitAt Reg.AUD_CTRL 0
  else true

/-- A write of PWR_DOMCTRL: dropped with cause 2 where it breaks a rule, else domains go off and come on (R445). R24 shows PD12 to PD14
off in Fallow and does not say what a write there that switches one on does: it switches it on, DESIGN CHOICE (log entry 132). -/
def State.writeDomctrl (s : State) (v : Word) : State :=
  match (List.range 20).find? (fun d => switched d && s.dom d && !bit v d && !s.mayOff d) with
  | some d => s.pwrErr 2 d
  | none =>
    let fixed : Word := 0x010F0F
    let s := s.setReg Reg.PWR_DOMCTRL ((v &&& 0x0FFFFF) ||| fixed)
    forN 20 (fun d s => if !switched d then s else if bit v d then s.domainRise d else s.domainOff d) s

def execDomctrlWrite (req : Req) (v : Word) (s : State) : Out :=
  .next (s.regCmd req.val Reg.PWR_DOMCTRL (fun s => s.writeDomctrl v))

/-! ## Power states -/

/-- A sequence toward target `t` runs. -/
def State.beginSequence (s : State) (t keep : Nat) : State :=
  (s.setBit Reg.PWR_STAT 21).updPwr (fun p => { p with target := some (t, keep) })

/-- TARGET Full: from Fallow the beams and the Harrow switch on (R446). -/
def State.toFull (s : State) : State :=
  if s.fld Reg.PWR_STAT Fd.PWR_STAT_STATE = 1 then
    [12, 13, 14].foldl State.domainRise (s.beginSequence 0 0)
  else s

/-- TARGET Fallow: refused with cause 3 while a cluster that is not kept holds a core of a plot in RUN (R446). -/
def State.toFallow (s : State) (keep : Nat) : State :=
  if (List.range 16).any (fun c => !keep.testBit (c / 4) && s.plotState (s.corePlot c) == 0) then s.pwrErr 3 0
  else s.beginSequence 1 keep

/-- Is some wake source enabled (R448)? -/
def State.anyWake (s : State) : Bool :=
  let w := s.reg Reg.PWR_WAKECFG
  bit w 23 || bit w 22 || bit w 21 || (bit w 20 && getF w Fd.PWR_WAKECFG_LANES != 0) || getF w Fd.PWR_WAKECFG_PINS != 0

/-- TARGET Dormant: refused with cause 4 without a wake source; aborted where one has fired and was not cleared (R446,
R448). -/
def State.toDormant (s : State) : State :=
  if !s.anyWake then s.pwrErr 4 0
  else if s.bitAt Reg.PWR_EVT 0 then (s.setBit Reg.PWR_STAT 20).setBit Reg.PWR_EVT 4
  else s.beginSequence 2 0

/-- A write of PWR_STATECMD: while a sequence runs, or with TARGET 3, it is dropped with cause 1 (R446, R450). -/
def State.stateCmd (s : State) (target keep : Nat) : State :=
  if s.bitAt Reg.PWR_STAT 21 ∨ 3 ≤ target then s.pwrErr 1 0
  else if target = 0 then s.toFull else if target = 1 then s.toFallow keep else s.toDormant

def execStateFull (req : Req) (s : State) : Out := .next (s.regCmd req.val Reg.PWR_STATECMD (fun s => s.stateCmd 0 0))

def execStateFallow (req : Req) (keep : BitVec 4) (s : State) : Out :=
  .next (s.regCmd req.val Reg.PWR_STATECMD (fun s => s.stateCmd 1 keep.toNat))

def execStateDormant (req : Req) (s : State) : Out := .next (s.regCmd req.val Reg.PWR_STATECMD (fun s => s.stateCmd 2 0))

/-- Registers that keep their values in Dormant: those of PD0, of an open debug session, of the watcher, and of the override
filters (R24, R222, R446). -/
def State.keptDormant (s : State) (a : Nat) : Bool :=
  inPD0 a || neverReset a || (s.session && decide (0x8100000 ≤ a ∧ a < 0x8110000)) || decide (0x80F0000 ≤ a ∧ a < 0x8100000) ||
    decide (Reg.SUP_OV_CFG 0 ≤ a ∧ a < Reg.SUP_OV_CFG 8)

/-- Every domain but PD0, PD1 in a session and the override filters is off (R446); a wake that was held starts at once
(R448). -/
def State.enterDormant (s : State) : State :=
  let on := wd (1 + 2 * b2n s.session)
  let held := s.pwr.wakeHeld
  let stat := s.keptStat
  let off := s.reg Reg.STW_UCSTAT &&& oneBit 17
  let s1 := s.cutGranary
  let s2 : State :=
    { pending := s1.pending, regs := s1.regs.keep s.keptDormant,
      eff := s1.eff.keep (fun a => decide (0x8130000 ≤ a ∧ a < 0x8140000)),
      gran := s1.gran, freeCtr := s1.freeCtr, resp := s1.resp, pads := s1.pads, acw := s1.acw, sec := s1.sec,
      sup := { ov := s1.keptFilters }, dbg := s1.dbg,
      uc := s1.uc.keptChecks,
      pwr := { dormant := true, pd0Runs := s1.pwr.pd0Runs, hot := s1.pwr.hot } }
  let s3 := ((s2.setReg Reg.SEC_STAT stat).setReg Reg.STW_UCSTAT off).setReg Reg.PWR_DOMSTAT on
  let s4 := s3.clrReg Reg.PWR_STAT (wd 0xE00000)
  match held with
  | some c => s4.wakeFire c
  | none => s4

/-- Every beam has its TEN 0. -/
def State.beamsOff (s : State) : Bool := !s.bitAt (Reg.BM_TCTRL 0) 0 && !s.bitAt (Reg.BM_TCTRL 1) 0

/-- A power-state sequence finishes (R446): Full once its domains are on, Fallow once the frame Headlands have stopped the
beams. -/
def State.sequenceDone (s : State) : State :=
  match s.pwr.target with
  | none => s
  | some (0, _) =>
    if s.dom 12 && s.dom 13 && s.dom 14 then
      ((s.clrBit Reg.PWR_STAT 21).setFld Reg.PWR_STAT Fd.PWR_STAT_STATE 0).updPwr (fun p => { p with target := none })
    else s
  | some (1, keep) =>
    if s.beamsOff then
      let s := [12, 13, 14].foldl State.domainOff s
      let s := forN 4 (fun k s => if keep.testBit k then s else s.domainOff (4 + k)) s
      ((s.clrBit Reg.PWR_STAT 21).setFld Reg.PWR_STAT Fd.PWR_STAT_STATE 1).updPwr (fun p => { p with target := none })
    else s
  | some _ => s.enterDormant

def execPowerSequenceDone (s : State) : Out := .next s.sequenceDone

/-! ## Wake -/

/-- Is the wake source enabled in PWR_WAKECFG (R448)? -/
def State.wakeOn (s : State) (src : WakeSrc) : Bool :=
  let w := s.reg Reg.PWR_WAKECFG
  match src with
  | .override _ => bit w 23
  | .watcher => bit w 22
  | .timer => bit w 21
  | .lane n => bit w 20 && (getF w Fd.PWR_WAKECFG_LANES).testBit n.val
  | .pin n => (getF w Fd.PWR_WAKECFG_PINS).testBit n.val && !s.bitAt (Reg.GPO_PIN_CFG (40 + n.val)) 23

/-- WAKECAUSE of a source (R450). -/
def wakeCause : WakeSrc → Nat
  | .override _ => 1
  | .watcher => 2
  | .lane _ => 3
  | .timer => 4
  | .pin _ => 5

def execWakeSource (src : WakeSrc) (s : State) : Out :=
  .next (if s.wakeOn src && s.pwr.pd0Runs then s.wakeFire (wakeCause src) else s)

/-- Each second while TMR is 1 the wake timer counts down; it fires at 0 and holds there (R448, R450). -/
def execWakeTimerTick (s : State) : Out :=
  let n := (s.reg Reg.PWR_WAKETMR).toNat
  .next (if !s.bitAt Reg.PWR_WAKECFG 21 || n == 0 then s
    else
      let t := s.setReg Reg.PWR_WAKETMR (wd (n - 1))
      if n = 1 then t.wakeFire 4 else t)

/-! ## Resets and start-up -/

/-- A rail below its threshold for 2 µs while the device runs (R440, R447). -/
def execRailBrownout (s : State) : Out := .next (if s.pwr.pd0Runs then s.externalScope 21 else s)

def execPowerOnReset (s : State) : Out := .next s.powerOnScope

/-- XRST_DW low for more than 100 µs (R447, R452). -/
def execExternalReset (s : State) : Out := .next (s.externalScope 22)

def execSystemReset (req : Req) (s : State) : Out := .next (s.regCmd req.val Reg.PWR_RSTCMD (fun s => s.externalScope 19))

/-- The power-on reset releases, and PD0 runs on its internal oscillator (R449 step 1). -/
def execPowerOnResetRelease (s : State) : Out := .next (s.updPwr (fun p => { p with pd0Runs := true }))

/-- PD0 moves to the crystal (R449 step 1). -/
def execCrystalStable (s : State) : Out := .next (if s.pwr.pd0Runs then s.setBit Reg.PWR_STAT 15 else s)

/-- Start-up (R449 step 3): PD2, PD3, PD8 to PD11, PD16 and PD19 are on, and code 20 is sent; not while a thermal trip holds the
domains off. -/
def execStartUp (s : State) : Out :=
  .next (if s.pwr.pd0Runs && !s.pwr.started && !s.pwr.tripped && !s.pwr.dormant then
    let s := s.orReg Reg.PWR_DOMSTAT (wd 0x090F0C)
    (s.updPwr (fun p => { p with started := true, need := 20 })).requestCode 20
  else s)

/-- A wake pulse on XRST_DW: PD1 powers up and a session opens; inside one it is ignored (R451, R452). -/
def execWakePulse (s : State) : Out := .next (if s.pwr.pd0Runs then s.openSession else s)

/-- A high pulse in a reset sets CUR, subject to LOCK (R457). -/
def execConnectUnderReset (s : State) : Out :=
  .next (if s.pwr.pd0Runs && s.lock == 0 then s.setBit Reg.DBG_CTRL 2 else s)

/-- A low pulse of 10 to under 20 µs, or of over 80 up to 100 µs, in half microseconds, is ignored and counted with cause 4
(R452). -/
def execIgnoredPulse (halfMicros : Nat) (s : State) : Out :=
  let odd := decide (20 ≤ halfMicros ∧ halfMicros < 40) || decide (160 < halfMicros ∧ halfMicros ≤ 200)
  .next (if odd && s.pwr.pd0Runs then s.dbgErr 4 else s)

def execSessionTimeout (s : State) : Out := .next s.closeSession

/-- A write to offset `o` of the PWR window. -/
def State.writePwr (s : State) (o : Nat) (v : Word) : State :=
  if o = 0 then s.stateCmd (getF v Fd.PWR_STATECMD_TARGET) (getF v Fd.PWR_STATECMD_KEEP)
  else if o = 0x13 then s.writeDomctrl v
  else if o = 0x15 then (if bit v 23 then s.externalScope 19 else s)
  else s.plainWrite (0x80F0000 + o) v

end Sys2Proof.Machine
end

