-- ==== Sys2Proof/Machine/Override.lean ====
section
/-! DEFINITION. The override inputs (R218 to R222) and the writes of the SUP window (R240). -/
namespace Sys2Proof.Machine

/-- Override input `n`. -/
def State.ov (s : State) (n : Nat) : OvSt := Tab.get {} s.sup.ov n

/-- Change override input `n`. -/
def State.updOv (s : State) (n : Nat) (f : OvSt → OvSt) : State :=
  { s with sup := { s.sup with ov := Tab.put {} s.sup.ov n (f (Tab.get {} s.sup.ov n)) } }

/-- Is channel A (B) of input `n` asserted, after the filter (R218)? -/
def State.ovA (s : State) (n : Nat) : Bool := (s.ov n).fa != s.bitAt (Reg.SUP_OV_CFG n) 22
def State.ovB (s : State) (n : Nat) : Bool := (s.ov n).fb != s.bitAt (Reg.SUP_OV_CFG n) 21

/-- STAT.A and STAT.B show the filtered channels (R219). -/
def State.ovShow (s : State) (n : Nat) : State :=
  let a := Reg.SUP_OV_STAT n
  (s.putBit a 21 (s.ovA n)).putBit a 20 (s.ovB n)

/-- One channel's filter takes a sample: the filtered level, the samples in a row that differ from it, whether it changes
(R218). The change is confirmed once the pad has differed for DEB ms of samples 100 µs apart. -/
def debounce (deb : Nat) (filt pad : Bool) (c : Nat) : Bool × Nat × Bool :=
  if pad = filt then (filt, 0, false)
  else if 10 * deb < c + 1 then (pad, 0, true) else (filt, c + 1, false)

/-- Input `n` samples its pads (R218). -/
def State.ovSample (s : State) (n : Nat) (pa pb : Bool) : State :=
  let deb := max 1 (s.fld (Reg.SUP_OV_DEB n) Fd.SUP_OV_DEB_DEB)
  let x := s.ov n
  let (fa, ca, ha) := debounce deb x.fa pa x.ca
  let (fb, cb, hb) := debounce deb x.fb pb x.cb
  let off := s.pwr.dormant
  let now := if off then 0 else s.timebase.toNat
  let s := s.updOv n (fun x => { x with fa := fa, ca := ca, fb := fb, cb := cb })
  let s := if ha then s.updOv n (fun x => { x with ta := now, la := off }) else s
  (if hb then s.updOv n (fun x => { x with tb := now, lb := off }) else s).ovShow n

/-- Do the override filters work: PD16 on, or its filters alone in Dormant (R24)? -/
def State.ovOn (s : State) : Bool := s.dom 16 || s.pwr.dormant

/-- Every 100 µs the pads are sampled (R218); bit `n` of an operand is the level of OVAn or OVBn. -/
def execOverrideSample (pa pb : BitVec 8) (s : State) : Out :=
  .next (if s.ovOn then forN 8 (fun n s => s.ovSample n (pa.getLsbD n) (pb.getLsbD n)) s else s)

/-- SUP_OVn_STAT.STATE: 0 IDLE, 1 ACTIVE, 2 DISAG, 3 FAULT. -/
def State.ovState (s : State) (n : Nat) : Nat := s.fld (Reg.SUP_OV_STAT n) Fd.SUP_OV_STAT_STATE

/-- Set STATE of input `n`; leaving IDLE aborts a night round and is a wake source (R222, R229, R448). -/
def State.setOvState (s : State) (n st : Nat) : State :=
  let was := s.ovState n
  let s := s.setFld (Reg.SUP_OV_STAT n) Fd.SUP_OV_STAT_STATE st
  if was = 0 ∧ st ≠ 0 then
    let s := s.nrAbort
    if s.bitAt Reg.PWR_WAKECFG 23 then s.wakeFire 1 else s
  else s

/-- Input `n` counts as active, or no longer: with MSGEN 1 its message is requested, or its source ends (R217, R221). -/
def State.ovActive (s : State) (n : Nat) (on : Bool) : State :=
  if (s.ov n).act = on then s
  else
    let s := s.updOv n (fun x => { x with act := on, owed := on && !s.dom 16 })
    if !s.dom 16 then s
    else if on then (if s.bitAt (Reg.SUP_OV_CFG n) 20 then s.stgRequest n else s)
    else s.stgEnd n

/-- A transition, FAULT or clear of input `n`: its event, its date, LATEDATE (R222). -/
def State.ovDated (s : State) (n date : Nat) (late : Bool) : State :=
  ((s.setBit Reg.SUP_EVT n).putBit (Reg.SUP_OV_STAT n) 19 late).updOv n (fun x => { x with date := date })

/-- Input `n` enters the agreed state `st`, dated at the later of its channels' changes (R220). -/
def State.ovAgree (s : State) (n st : Nat) : State :=
  let x := s.ov n
  let late := if x.ta = x.tb then x.la || x.lb else if x.ta < x.tb then x.lb else x.la
  ((s.ovDated n (max x.ta x.tb) late).ovActive n (st = 1)).setOvState n st

/-- FAULT is latched (R221, R232). -/
def State.ovFault (s : State) (n : Nat) : State :=
  let late := s.pwr.dormant
  let s := s.bump (Reg.SUP_OV_FLTCNT n)
  let s := (s.setBit Reg.SUP_EVT 8).ovDated n (if late then 0 else s.timebase.toNat) late
  let s := s.setFld (Reg.SUP_OV_STAT n) Fd.SUP_OV_STAT_STATE 3
  let s := if s.dom 16 then s.safety s.supPlot 2 n 0 else s.updOv n (fun x => { x with unsaid := true })
  s.ovActive n true

/-- Once PD16 is on again and the Steward runs, input `n` has the FAULT that it latched in Dormant reported (R232), and its start
requested (R217; log entry 157). -/
def State.ovOwed (s : State) (n : Nat) : State :=
  if !s.dom 16 || (s.proc 16).parked then s
  else
    let x := s.ov n
    let s := s.updOv n (fun x => { x with owed := false, unsaid := false })
    let s := if x.unsaid then s.safety s.supPlot 2 n 0 else s
    if x.owed && s.bitAt (Reg.SUP_OV_CFG n) 20 then s.stgRequest n else s

/-- The evaluation of input `n` (R219, R220). Where the first channel has returned and the other has changed, the bounce is
counted and the disagreement starts again from the state left, by the other channel (DEDUCED, log entry 41). -/
def State.ovEval (s : State) (n : Nat) : State :=
  if !s.bitAt (Reg.SUP_OV_CFG n) 23 then s
  else
    let a := s.ovA n
    let agreed := if a then 1 else 0
    let same := a == s.ovB n
    let st := s.ovState n
    if st = 3 then s
    else if st = 2 then
      let x := s.ov n
      let back := (if x.firstB then s.ovB n else a) == (x.left == 1)
      if same then
        if agreed = x.left then (s.setFld (Reg.SUP_OV_STAT n) Fd.SUP_OV_STAT_STATE x.left).supErr 4 (0x40 + 8 * n)
        else s.ovAgree n agreed
      else if back then (s.updOv n (fun x => { x with firstB := !x.firstB, since := 0 })).supErr 4 (0x40 + 8 * n)
      else
        let d := s.fld (Reg.SUP_OV_CFG n) Fd.SUP_OV_CFG_DISC
        let s := s.updOv n (fun x => { x with since := x.since + 1 })
        if d ≤ (s.ov n).since then s.ovFault n else s
    else if same then (if agreed = st then s else s.ovAgree n agreed)
    else (s.updOv n (fun x => { x with left := st, since := 0, firstB := a == (st == 1) })).setOvState n 2

/-- Every millisecond each input's state is evaluated (R220), after what Dormant kept waiting. -/
def execDiscrepancyEval (s : State) : Out := .next (if s.ovOn then forN 8 (fun n s => (s.ovOwed n).ovEval n) s else s)

/-- CLR: FAULT is cleared while both channels agree, else dropped with cause 2 (R221). -/
def State.ovClear (s : State) (n : Nat) : State :=
  if s.ovA n != s.ovB n then s.supErr 2 (0x42 + 8 * n)
  else if s.ovState n ≠ 3 then s
  else
    let st := b2n (s.ovA n)
    let s := s.setFld (Reg.SUP_OV_STAT n) Fd.SUP_OV_STAT_STATE st
    (s.ovDated n s.timebase.toNat false).ovActive n (st = 1)

/-- CAP copies the date (R222). -/
def State.ovCapture (s : State) (n : Nat) : State :=
  let d := (s.ov n).date
  ((s.setReg (Reg.SUP_OV_TS2 n) (wd (d / 2 ^ 48))).setReg (Reg.SUP_OV_TS1 n) (wd (d / 2 ^ 24))).setReg (Reg.SUP_OV_TS0 n) (wd d)

def execOverrideClr (req : Req) (n : Fin 8) (s : State) : Out :=
  .next (s.regCmd req.val (Reg.SUP_OV_CTRL n.val) (fun s => s.ovClear n.val))

def execOverrideCap (req : Req) (n : Fin 8) (s : State) : Out :=
  .next (s.regCmd req.val (Reg.SUP_OV_CTRL n.val) (fun s => s.ovCapture n.val))

/-- A write of SUP_OVn_CFG: EN 0 reads IDLE and ends the source; EN 1 starts from IDLE (R219). -/
def State.writeOvCfg (s : State) (n : Nat) (v : Word) : State :=
  let a := Reg.SUP_OV_CFG n
  let was := s.bitAt a 23
  let s := (s.plainWrite a v).ovShow n
  if was = bit v 23 then s
  else
    let s := s.setFld (Reg.SUP_OV_STAT n) Fd.SUP_OV_STAT_STATE 0
    (s.updOv n (fun x => { x with left := 0, since := 0 })).ovActive n false

/-- A write to offset `o` of the SUP window (R240). -/
def State.writeSup (s : State) (o : Nat) (v : Word) : State :=
  let n := (o - 0x40) / 8
  if s.supRange o v then s.supErr 1 o
  else if o = 5 then s.writeStggo v
  else if o = 8 then s.writeNrCtrl v
  else if 0x40 ≤ o ∧ o < 0x80 ∧ o % 8 = 0 then s.writeOvCfg n v
  else if 0x40 ≤ o ∧ o < 0x80 ∧ o % 8 = 2 then
    let s := if bit v 0 then s.ovClear n else s
    if bit v 1 then s.ovCapture n else s
  else s.plainWrite (0x80A0000 + o) v

end Sys2Proof.Machine
end

