-- ==== Sys2Proof/Machine/Watcher.lean ====
section
/-! DEFINITION. The acoustic watcher (R32, R233 to R238, R241): mirrored registers, frames and features, phrase and tone
signatures, enrolment, matches. -/
namespace Sys2Proof.Machine

/-- Change the watcher. -/
def State.updAcw (s : State) (f : AcwSt → AcwSt) : State := { s with acw := f s.acw }

/-- Base of the ACW window. -/
def acwBase : Nat := 0x8130000

/-- The watcher's own change of a register: both the mirror and the 32.768 kHz side. -/
def State.setAcw (s : State) (a : Nat) (v : Word) : State := (s.setReg a v).setEff a v

/-- Count a watcher error with its cause (R241). -/
def State.acwErr (s : State) (cause : Nat) : State := s.err 19 cause

/-! ## The mirror -/

/-- A write has changed the mirror at offset `o`: the transfer to the domain is pending (R32). -/
def State.mirrored (s : State) (o : Nat) : State :=
  (s.setBit Reg.ACW_STAT 23).updAcw (fun w => { w with mirror := (w.mirror.filter (· != o)) ++ [o] })

/-- A write of ACW_SIGs_CTRL goes through the mirror (R32): the later of two that wait is the one that counts. -/
def State.acwWant (s : State) (n : Nat) (v : Bool) : State :=
  let m := 1#4 <<< n
  (s.mirrored (0x11 + 2 * n)).updAcw (fun w => { w with want := if v then w.want ||| m else w.want &&& ~~~ m })

/-- ENROL arms a phrase signature (R237). -/
def State.acwEnrol (s : State) (n : Nat) : State :=
  if bit (s.inEff (Reg.ACW_SIG_CFG n)) 22 then s.updAcw (fun w => { w with arm := w.arm ||| (1#4 <<< n) }) else s

/-- Is the LEN of a signature out of its range: 5 to 75 for a phrase, 1 to 8 for a tone (R241)? -/
def sigLenBad (v : Word) : Bool :=
  let n := getF v Fd.ACW_SIG_CFG_LEN
  if bit v 22 then decide (n < 5 ∨ 75 < n) else decide (n < 1 ∨ 8 < n)

/-- A write to offset `o` of the ACW window (R32, R241). -/
def State.writeAcw (s : State) (o : Nat) (v : Word) : State :=
  let a := acwBase + o
  if 0x10 ≤ o ∧ o < 0x18 ∧ o % 2 = 1 then s.acwWant ((o - 0x10) / 2) (bit v 0)
  else if 0x10 ≤ o ∧ o < 0x18 ∧ sigLenBad v then s.acwErr 1
  else
    match regSpec a with
    | none => s.dropWrite 19 o
    | some q => if q.fields.any fieldWritable then (s.plainWrite a v).mirrored o else s.dropWrite 19 o

/-- What a transfer does in the domain (R32): ACW_SIGs_CTRL enrols, any other register takes its written value. -/
def State.acwArrive (s : State) (o : Nat) : State :=
  if 0x10 ≤ o ∧ o < 0x18 ∧ o % 2 = 1 then
    let n := (o - 0x10) / 2
    let s' := s.updAcw (fun w => { w with want := w.want &&& ~~~ (1#4 <<< n) })
    if s.acw.want.getLsbD n then s'.acwEnrol n else s'
  else s.latch (acwBase + o)

/-- The mirrored write of offset `o` reaches the 32.768 kHz domain; PEND clears with the last one (R32). -/
def execMirrorTransfer (ofs : BitVec 16) (s : State) : Out :=
  let o := ofs.toNat
  .next (if !s.acw.mirror.contains o then s
    else
      let s := (s.acwArrive o).updAcw (fun w => { w with mirror := w.mirror.filter (· != o) })
      if s.acw.mirror.isEmpty then s.clrBit Reg.ACW_STAT 23 else s)

def execEnrol (req : Req) (n : Fin 4) (s : State) : Out :=
  .next (s.regCmd req.val (Reg.ACW_SIG_CTRL n.val) (fun s => s.acwWant n.val true))

/-- The watcher hands over its PDM clock (R233): the audio engine's while PD15 is on and AUD_PDMCFG enables its microphone,
else its own. -/
def execWatcherClockHandover (s : State) : Out :=
  let m := s.effFld Reg.ACW_CTRL Fd.ACW_CTRL_MIC
  .next (s.putBit Reg.ACW_STAT 22 (s.dom 15 && s.bitAt Reg.AUD_PDMCFG m))

/-! ## Frames -/

/-- The energies of the 16 bands (R234). -/
def bandEnergies (bins : List Nat) : List Nat :=
  (List.range 16).map (fun b => ((bins.drop (10 * b)).take 10).foldl (· + ·) 0)

/-- round(4 × log2(m / e)) for 0 < e ≤ m, at most 63: the smallest n with m^8 < e^8 × 2^(2n + 1). -/
def quarterLog (m e : Nat) : Nat :=
  ((List.range 63).find? (fun n => decide (m ^ 8 < e ^ 8 * 2 ^ (2 * n + 1)))).getD 63

/-- The features of a frame (R234); in a frame without energy they are free values. -/
def State.acwFeatures (s : State) (es : List Nat) : State × List Nat :=
  let m := es.foldl max 0
  if m = 0 then
    ({ s with freeCtr := s.freeCtr + 16 }, (List.range 16).map (fun i => (Config.freeValue (s.freeCtr + i)).toNat % 64))
  else (s, es.map (fun e => if e = 0 then 0 else 63 - quarterLog m e))

/-- The squared magnitudes of bins 0 to 159 of the 320-point DFT of a frame (R234), with 128 fraction bits. -/
def dftBins (xs : List (BitVec 16)) : List Nat :=
  let cs := (List.range 320).map (fun i => Fixed.cos32 (i * 2 ^ 32 / 320))
  let sn := (List.range 320).map (fun i => Fixed.sin32 (i * 2 ^ 32 / 320))
  let ys := (xs.take 320).map (fun x => x.toInt)
  (List.range 160).map (fun k =>
    let (re, im, _) := ys.foldl (fun (a : Int × Int × Nat) y =>
      (a.1 + y * cs.getD (a.2.2 * k % 320) 0, a.2.1 - y * sn.getD (a.2.2 * k % 320) 0, a.2.2 + 1)) (0, 0, 0)
    (re * re + im * im).toNat)

/-- The energy of a sine at full scale in its DFT bin, (2^15 × 160)^2, with 128 fraction bits (log entry 19). -/
def acwFull : Nat := (2 ^ 15 * 160) ^ 2 * 2 ^ 128

/-- Is a frame of energy `e` voiced under GATE (R234)? -/
def acwVoiced (e gate : Nat) : Bool := decide (acwFull ^ 10 ≤ e ^ 10 * 10 ^ gate)

/-! ## Phrases -/

/-- Template word `w` of signature `n`, as the domain has it. -/
def State.acwTpl (s : State) (n w : Nat) : Word := s.inEff (Reg.ACW_TPL n w)

/-- Frame `i` of the template of phrase `n` (R241). -/
def State.acwTplFrame (s : State) (n i : Nat) : List Nat :=
  (List.range 16).map (fun b => (s.acwTpl n (4 * i + b / 4)).toNat / 2 ^ (18 - 6 * (b % 4)) % 64)

/-- The sum of |f − t| over the bands. -/
def frameCost (f t : List Nat) : Nat := ((f.zip t).map (fun x => (x.1 - x.2) + (x.2 - x.1))).foldl (· + ·) 0

/-- The smaller of two optional sums. -/
def minOpt (a b : Option Nat) : Option Nat :=
  match a, b with
  | none, x => x
  | x, none => x
  | some x, some y => some (min x y)

/-- The smallest sums by path length, position `l` for a path of `l` cells. -/
def minPaths (a b : List (Option Nat)) : List (Option Nat) :=
  (List.range (max a.length b.length)).map (fun i => minOpt (a.getD i none) (b.getD i none))

/-- One row of the table of warping paths (R235): for each template frame the smallest sums by path length. -/
def dtwRow (prev : List (List (Option Nat))) (first : Bool) (f : List Nat) (tpl : List (List Nat)) : List (List (Option Nat)) :=
  (tpl.zipIdx.foldl (fun (acc : List (List (Option Nat))) x =>
    let c := frameCost f x.1
    let up := prev.getD x.2 []
    let diag := if x.2 = 0 then [] else prev.getD (x.2 - 1) []
    let left := acc.getLastD []
    let start : List (Option Nat) := if first && x.2 == 0 then [some 0] else []
    let best := minPaths start (minPaths (if x.2 = 0 then [] else left) (minPaths up diag))
    acc ++ [none :: best.map (fun o => o.map (· + c))]) [])

/-- The score of a span against a template (R235): round(4 × D), where D is the least mean over a warping path. -/
def dtwScore (span tpl : List (List Nat)) : Nat :=
  let rows := (span.foldl (fun (st : Bool × List (List (Option Nat))) f => (false, dtwRow st.2 st.1 f tpl)) (true, [])).2
  let ends := rows.getLastD []
  (ends.zipIdx).foldl (fun m x =>
    match x.1 with
    | some c => if x.2 = 0 then m else min m ((2 * c + 4 * x.2) / (8 * x.2))
    | none => m) 252

/-- The lowest score of phrase `n` and the length of its span, over the spans that end at the last voiced frame (R235). -/
def State.acwPhrase (s : State) (n : Nat) : Option (Nat × Nat) :=
  let len := s.effFld (Reg.ACW_SIG_CFG n) Fd.ACW_SIG_CFG_LEN
  let tpl := (List.range len).map (fun i => s.acwTplFrame n i)
  let past := (s.acw.frames.drop 10).map (·.feats)
  let lo := (4 * len + 4) / 5
  let lens := ((List.range (5 * len / 4 + 1 - lo)).map (· + lo)).filter (fun l => decide (l ≤ past.length ∧ 0 < l))
  lens.foldl (fun best l =>
    let sc := dtwScore ((past.take l).reverse) tpl
    match best with
    | some (b, _) => if sc < b then some (sc, l) else best
    | none => some (sc, l)) none

/-! ## Tones -/

/-- Does a frame hold the tone of frequency `f`: the three bins nearest hold at least half of the energy (R236)? -/
def holdsTone (bins : List Nat) (f : Nat) : Bool :=
  let c := (f + 25) / 50
  let e := bins.foldl (· + ·) 0
  decide (0 < e ∧ e ≤ 2 * (bins.getD (c - 1) 0 + bins.getD c 0 + bins.getD (c + 1) 0))

/-- Which steps of signature `n` the frame holds, as bits. -/
def State.acwHolds (s : State) (n : Nat) (bins : List Nat) : Nat :=
  (List.range (s.effFld (Reg.ACW_SIG_CFG n) Fd.ACW_SIG_CFG_LEN)).foldl
    (fun m k => if holdsTone bins ((s.acwTpl n k).toNat % 8192) then m + 2 ^ k else m) 0

/-- May a step of `d` frames hold for `n` frames (R236)? -/
def toneLen (d n : Nat) : Bool :=
  let tol := max 1 ((d + 2) / 4)
  decide (d ≤ n + tol ∧ n ≤ d + tol ∧ 0 < n)

/-- The steps `ks`, last first, with their durations, against the frames held, newest first: the frames that the sequence
takes where it matches (R236). -/
def toneBack : List (Nat × Nat) → (first : Bool) → List Nat → Option Nat
  | [], _, _ => some 0
  | (k, d) :: ks, first, ms =>
    let on (m : Nat) : Bool := m / 2 ^ k % 2 == 1
    let gap := (ms.takeWhile (fun m => !on m)).length
    if (if first then 0 else 2) < gap then none
    else
      let n := ((ms.drop gap).takeWhile on).length
      if toneLen d n then (toneBack ks false (ms.drop (gap + n))).map (· + gap + n) else none

/-- Does tone signature `n` match with this frame: its last step ended with the frame before (R236)? The frames of the
sequence. -/
def State.acwTone (s : State) (n : Nat) : Option Nat :=
  let len := s.effFld (Reg.ACW_SIG_CFG n) Fd.ACW_SIG_CFG_LEN
  let ms := Tab.get [] s.acw.tones n
  let steps := ((List.range len).reverse).map (fun k => (k, (s.acwTpl n k).toNat / 8192 % 64))
  match ms with
  | [] => none
  | m :: rest => if len = 0 ∨ m / 2 ^ (len - 1) % 2 = 1 then none else toneBack steps true rest

/-! ## Matches -/

/-- The power state of a match: 0 Full, 1 Fallow, 2 Dormant (R238). -/
def State.acwMode (s : State) : Nat := if s.pwr.dormant then 2 else s.fld Reg.PWR_STAT Fd.PWR_STAT_STATE

/-- A match of signature `n`, whose last frame lies `back` frames before the present one (R238). -/
def State.acwMatch (s : State) (n span score back : Nat) (first : Bool) : State :=
  let mode := s.acwMode
  let cfg := s.inEff (Reg.ACW_SIG_CFG n)
  let s := if first then
      let s := s.setAcw Reg.ACW_MATCH (wd (n * 2 ^ 22 + mode * 2 ^ 20 + span % 128 * 256 + score % 256))
      s.setAcw Reg.ACW_MEND (wd ((s.reg Reg.ACW_FCNT).toNat + 2 ^ 24 - back))
    else s.acwErr 4
  let s := if bit cfg 20 then s.setBit Reg.ACW_EVT 0 else s
  if bit cfg 21 && mode != 0 && s.bitAt Reg.PWR_WAKECFG 22 then s.wakeFire 2 else s

/-- A run of voiced frames has just been followed by 10 unvoiced ones: its length, up to 118 (R235, R237). -/
def State.acwRun (s : State) : Option Nat :=
  let fs := s.acw.frames
  if (fs.take 10).length = 10 ∧ (fs.take 10).all (fun f => !f.voiced) ∧ (fs.getD 10 ⟨false, []⟩).voiced then
    some ((fs.drop 10).takeWhile (·.voiced)).length
  else none

/-- The matches of this frame by signature, with span, score and the frames since the last frame of the span. -/
def State.acwMatches (s : State) : List (Nat × Nat × Nat × Nat) :=
  (List.range 4).filterMap (fun n =>
    let cfg := s.inEff (Reg.ACW_SIG_CFG n)
    if !bit cfg 23 then none
    else if bit cfg 22 then
      match s.acwRun, s.acwPhrase n with
      | some _, some (sc, l) => if sc ≤ getF cfg Fd.ACW_SIG_CFG_THR then some (n, l, sc, 10) else none
      | _, _ => none
    else (s.acwTone n).map (fun l => (n, l, 0, 1)))

/-- Signature `n` takes the last voiced run of `len` frames as its template (R237). -/
def State.acwStore (s : State) (n len : Nat) : State :=
  let run := ((s.acw.frames.drop 10).take len).reverse
  let s := (run.zipIdx).foldl (fun s x =>
    forN 4 (fun w s => s.setAcw (Reg.ACW_TPL n (4 * x.2 + w))
      (wd ((List.range 4).foldl (fun v j => v * 64 + x.1.feats.getD (4 * w + j) 0) 0))) s) s
  let a := Reg.ACW_SIG_CFG n
  (s.setFld a Fd.ACW_SIG_CFG_LEN len).setEff a (putF (s.inEff a) Fd.ACW_SIG_CFG_LEN len)

/-- The armed signatures meet a run of `len` voiced frames (R237). -/
def State.acwEnrolRun (s : State) (len : Nat) : State :=
  if len < 5 ∨ s.acw.arm = 0 then s
  else
    let s' := forN 4 (fun n s =>
      if s.acw.arm.getLsbD n then (if len ≤ 75 then s.acwStore n len else s.acwErr 3) else s) s
    (s'.setBit Reg.ACW_EVT 1).updAcw (fun w => { w with arm := 0 })

/-- R234 to R236: the frame joins the features and each tone's level the tones. -/
def State.acwKeepFrame (s : State) (bins : List Nat) : State :=
  let es := bandEnergies bins
  let v := acwVoiced (es.foldl (· + ·) 0) (s.effFld Reg.ACW_CTRL Fd.ACW_CTRL_GATE)
  let x := s.acwFeatures es
  let s := x.1.updAcw (fun w => { w with frames := (⟨v, x.2⟩ :: w.frames).take 128 })
  forN 4 (fun n s => s.updAcw (fun w =>
    { w with tones := Tab.put [] w.tones n ((s.acwHolds n (bins.take 160) :: Tab.get [] w.tones n).take 700) })) s

/-- R237, R238: what a kept frame completes: an enrolment run, then the matches in their order. -/
def State.acwFrameEnds (s : State) : State :=
  let s1 := match s.acwRun with
    | some l => s.acwEnrolRun l
    | none => s
  (s.acwMatches.zipIdx).foldl (fun s x => s.acwMatch x.1.1 x.1.2.1 x.1.2.2.1 x.1.2.2.2 (x.2 == 0)) s1

/-- A 20 ms frame completes (R233 to R238): its 320 samples, of the microphone that MIC names, join the pre-roll ring and give the DFT.
The operand holds the frame of each microphone, at 16 kHz whatever drives the PDM clock. -/
def execWatcherFrame (mics : List (List (BitVec 16))) (s : State) : Out :=
  .next (if !bit (s.inEff Reg.ACW_CTRL) 23 then s
    else
      let xs := ((mics.getD (s.effFld Reg.ACW_CTRL Fd.ACW_CTRL_MIC) []) ++ List.replicate 320 0).take 320
      let bins := dftBins xs
      let s := s.updAcw (fun w => { w with ring := (w.ring ++ xs).drop ((w.ring ++ xs).length - 32000) })
      let c := s.reg Reg.ACW_FCNT
      let s := s.setAcw Reg.ACW_FCNT (c + 1)
      let s := if c = 0xFFFFFF then s.setBit Reg.ACW_EVT 2 else s
      (s.acwKeepFrame bins).acwFrameEnds)

end Sys2Proof.Machine
end

