-- ==== Sys2Proof/Machine/Bus.lean ====
section
/-! DEFINITION. The bus: what a read or a write of one word at any address does, for each requester and plot (R5 to R7, R10 to
R14, R37, R56, R445). Every unit, processor and port reaches memory and registers through it. -/
namespace Sys2Proof.Machine

/-- A good answer with one word. -/
def okResp (v : Word) : Resp := ⟨v, [], .ok⟩

/-- An error answer. -/
def errResp : Resp := ⟨0, [], .error⟩

/-! ## Registers -/

/-- A read by requester `r` of the register at offset `o` of the IRQ window (R390, R391, R401). -/
def State.readIrq (s : State) (o : Nat) : Word :=
  let t := (o - 0x200) / 32
  if 0x200 ≤ o ∧ o < 0x420 ∧ o % 32 = 1 then s.presWord t
  else if 0x200 ≤ o ∧ o < 0x420 ∧ 4 ≤ o % 32 ∧ o % 32 < 15 then s.pendWord t (o % 32 - 4)
  else s.plainRead (0x8020000 + o)

/-- A read of the shared words of the GPIO bank: bits of pins that the reader does not own read 0 (R430, R439). -/
def State.readGpo (s : State) (r o : Nat) : Word :=
  if o = 2 ∨ o = 3 then s.gpoIn r (o - 2)
  else if o = 4 ∨ o = 5 then s.plainRead (0x80E0000 + o) &&& s.pinMask r (o - 4) false
  else if o = 0xA ∨ o = 0xB then s.plainRead (0x80E0000 + o) &&& s.pinMask r (o - 0xA) false
  else s.plainRead (0x80E0000 + o)

/-- A read by requester `r` of the register at offset `o` of window `w`, whose way is open. -/
def State.readReg (s : State) (r w o : Nat) : State × Resp :=
  let a := 0x8000000 + w * 0x10000 + o
  let pure' (v : Word) : State × Resp := (s, okResp v)
  if !s.dom (domOfReg w o) then pure' 0
  else match w with
    | 0 =>
      if o = 5 then let (t, v) := s.readUcdata; (t, okResp v)
      else if 0x100 ≤ o ∧ o < 0x140 ∧ o % 4 = 3 then pure' (s.mbStat ((o - 0x100) / 4))
      else pure' (s.plainRead a)
    | 2 => pure' (s.readIrq o)
    | 9 => pure' (if o = 6 then wd s.audIndex else s.plainRead a)
    | 11 => if o = 1 then (s.seenNow, okResp (s.seenNow.plainRead a)) else pure' (s.plainRead a)
    | 12 => pure' (if 0x100 ≤ o ∧ o < 0x116 then pubkeyWord (o - 0x100) else s.plainRead a)
    | 14 => pure' (s.readGpo r o)
    | 16 =>
      if 0x10 ≤ o ∧ o < 0x98 ∧ o % 8 = 4 then
        let (t, v) := s.readRdata ((o - 0x10) / 8)
        (t, okResp v)
      else pure' (s.plainRead a)
    | 17 =>
      if s.glnUserRefuses r o false then (s.glnUserErr o false, errResp)
      else if 0x300 ≤ o ∧ o < 0x340 ∧ o % 4 = 2 then
        let (t, v) := s.readSample ((o - 0x300) / 4)
        (t, okResp v)
      else pure' (s.plainRead a)
    | 18 =>
      if 0x1000 ≤ o ∧ o < 0x1800 then s.semAcquire r ((o - 0x1000) / 256) (o % 256)
      else if 0xC ≤ o ∧ o < 0x10 then (s.declareAll, okResp (s.declareAll.plainRead a))
      else pure' (s.plainRead a)
    | _ => pure' (s.plainRead a)

/-- A write to the IRQ window. -/
def State.writeIrq (s : State) (r o : Nat) (v : Word) : State :=
  if o < 0x100 then s.writeSrc r o 8 v
  else if o < 0x108 then s.writeSrc r 248 (o - 0x100) v
  else if 0x130 ≤ o ∧ o < 0x140 then s.writeBell (o - 0x130) v
  else if 0x200 ≤ o ∧ o < 0x420 ∧ o % 32 = 3 then s.writeDone ((o - 0x200) / 32) v
  else s.plainWrite (0x8020000 + o) v

/-- A write to the TIN window. -/
def State.writeTin (s : State) (o : Nat) (v : Word) : State :=
  if 0x80 ≤ o ∧ o < 0x88 then (if bit v 23 then s.tinPubWrite (o - 0x80) (getF v Fd.TIN_PUB_TINE) else s)
  else s.plainWrite (0x8030000 + o) v

/-- A write to the TMR window. -/
def State.writeTmr (s : State) (o : Nat) (v : Word) : State :=
  if 8 ≤ o ∧ o < 0x10 then (if bit v 23 then s.gstart (o - 8) (getF v Fd.TMR_GSTART_MASK) else s)
  else if 0x10 ≤ o ∧ o < 0x30 ∧ o % 4 = 0 then (if bit v 23 then s.tbCapture ((o - 0x10) / 4) else s)
  else if 0x100 ≤ o ∧ o < 0x200 ∧ o % 16 = 0 then s.writeTmrCtrl ((o - 0x100) / 16) v
  else s.plainWrite (0x8040000 + o) v

/-- A write to the DRL window. -/
def State.writeDrl (s : State) (o : Nat) (v : Word) : State :=
  if 0x100 ≤ o ∧ o < 0x300 ∧ o % 16 = 0 then s.writeDrlCtrl ((o - 0x100) / 16) v
  else s.plainWrite (0x8050000 + o) v

/-- A write to the SEC window. -/
def State.writeSec (s : State) (o : Nat) (v : Word) : State :=
  if 8 ≤ o ∧ o < 0x10 then (if bit v 23 then s.pkgenInc (o - 8) else s)
  else if 0x20 ≤ o ∧ o < 0x40 ∧ o % 4 = 0 then s.writeSecCtrl ((o - 0x20) / 4) v
  else s.plainWrite (0x80C0000 + o) v

/-- A write to the GRN window. -/
def State.writeGrn (s : State) (o : Nat) (v : Word) : State :=
  if o = 0 then s.writeGrnCmd v
  else if 0x100 ≤ o ∧ o < 0x200 then s.writeGrnBuf (o - 0x100) v
  else s.plainWrite (0x80D0000 + o) v

/-- A write to the GPO window. -/
def State.writeGpo (s : State) (r o : Nat) (v : Word) : State :=
  if o = 4 ∨ o = 5 then s.writeOut r (o - 4) v
  else if o = 6 ∨ o = 7 then s.writeOutset r (o - 6) v
  else if o = 8 ∨ o = 9 then s.writeOutclr r (o - 8) v
  else if o = 0xA ∨ o = 0xB then s.writePinEvt r (o - 0xA) v
  else if 0x100 ≤ o ∧ o < 0x130 then s.writePinCfg (o - 0x100) v
  else s.plainWrite (0x80E0000 + o) v

/-- A write to the FAB window; a semaphore view may answer with an error. -/
def State.writeFab (s : State) (r o : Nat) (v : Word) : State × BusResp :=
  if 0x1000 ≤ o ∧ o < 0x1800 then s.semWrite r ((o - 0x1000) / 256) (o % 256) v
  else if o = 0 then (s.writeFabCtrl v, .ok)
  else if o = 0xB then ((s.plainWrite Reg.FAB_SLPCFG v).settleTol, .ok)
  else if o = 0x13 then (if bit v 23 then s.clrPeak else s, .ok)
  else if o = 0x15 then (s.writeFence v, .ok)
  else if 0x20 ≤ o ∧ o < 0x3A then (s.writeCrd (o - 0x20) v, .ok)
  else if 0x100 ≤ o ∧ o < 0x200 then (s.writeSemacl (o - 0x100) v, .ok)
  else (s.plainWrite (0x8120000 + o) v, .ok)

/-- A write by requester `r` of `v` to the register at offset `o` of window `w`, whose way is open. While the domain of a
register that answers then is off, the write is dropped and counted (R159, R362, R470). -/
def State.writeReg (s : State) (r w o : Nat) (v : Word) : State × BusResp :=
  if !s.dom (domOfReg w o) then (if w = 16 then s.dbgErr 3 else s.dropWrite w o, .ok)
  else match w with
    | 0 => (s.writeStw o v, .ok)
    | 1 => (s.writePlt o v, .ok)
    | 2 => (s.writeIrq r o v, .ok)
    | 3 => (s.writeTin o v, .ok)
    | 4 => (s.writeTmr o v, .ok)
    | 5 => (s.writeDrl o v, .ok)
    | 6 => (if 0x8000 ≤ o ∧ o < 0x8200 then s.writeFurrow ((o - 0x8000) / 256) (o % 256) v else s.writeHarrow o v, .ok)
    | 7 => (s.writeBeam 0 o v, .ok)
    | 8 => (s.writeBeam 1 o v, .ok)
    | 9 => (s.writeAudio o v, .ok)
    | 10 => (s.writeSup o v, .ok)
    | 11 => (s.writeLink o v, .ok)
    | 12 => (s.writeSec o v, .ok)
    | 13 => (s.writeGrn o v, .ok)
    | 14 => (s.writeGpo r o v, .ok)
    | 15 => (s.writePwr o v, .ok)
    | 16 => (s.writeDebug r o v, .ok)
    | 17 => if s.glnUserRefuses r o true then (s.glnUserErr o true, .error) else (s.writeGlean r o v, .ok)
    | 18 => s.writeFab r o v
    | _ => (s.writeAcw o v, .ok)

/-! ## Words -/

/-- What stands at an address whose way is open, read by requester `r`. -/
def State.readOpen (s : State) (r a : Nat) : State × Resp :=
  match regionOf a with
  | .field a =>
    let s := s.wakeFor a
    ((if (s.dirtyLine (lineNo a)).isSome then s.shareLine (lineNo a) else s), okResp (s.cohWord a))
  | .window w o => s.readReg r w o
  | .granary i => (s, okResp (s.granAt i))
  | .rom i => (s, okResp (Config.bootRom i))
  | .unmapped => (s, errResp)

/-- A write to an address whose way is open. -/
def State.writeOpen (s : State) (r a : Nat) (v : Word) : State × BusResp :=
  match regionOf a with
  | .field a => ((s.wakeFor a).cohStore r a v, .ok)
  | .window w o => s.writeReg r w o v
  | _ => (s, .error)

/-! ## Transactions on a line -/

/-- Words of a transaction. -/
def opLen : TxnOp → Nat
  | .read n => n
  | .write ws => ws.length

/-- Does the transaction write? -/
def opWrites : TxnOp → Bool
  | .read _ => false
  | .write _ => true

/-- The lines of field memory that `n` words from `a` lie in. -/
def linesOf (a n : Nat) : List Nat :=
  if n = 0 ∨ fieldWords ≤ a then [] else [lineNo a, lineNo (a + n - 1)].eraseDups

/-- Do two transactions share a line? -/
def shareLines (x y : Txn) : Bool := (linesOf x.addr (opLen x.op)).any (linesOf y.addr (opLen y.op)).contains

/-- A word of the transaction, whose fence check passed when it was issued. -/
def State.txnRead (s : State) (r p a : Nat) : State × Resp :=
  match s.gateIn r a false with
  | some e => (s.refuse r p a e, errResp)
  | none => s.readOpen r a

def State.txnWrite (s : State) (r p a : Nat) (v : Word) : State × BusResp :=
  match s.gateIn r a true with
  | some e => (s.refuse r p a e, .error)
  | none => s.writeOpen r a v

/-- `n` words from `a` upward: the words, and whether all are good. -/
def State.txnReads (s : State) (r p a : Nat) : Nat → State × List Word × Bool
  | 0 => (s, [], true)
  | n + 1 =>
    let (s, ws, ok) := s.txnReads r p a n
    let (s, x) := s.txnRead r p (a + n)
    (s, ws ++ [x.value], ok && x.kind == .ok)

def State.txnWrites (s : State) (r p a : Nat) (ws : List Word) : State × Bool :=
  (ws.zipIdx).foldl (fun x w =>
    let (t, k) := x.1.txnWrite r p (a + w.2) w.1
    (t, x.2 && k == .ok)) (s, true)

/-- Put the outcome of the transaction with tag `t`. -/
def State.setResult (s : State) (t : Nat) (x : List Word × BusResp) : State :=
  { s with fab := { s.fab with inflight := s.fab.inflight.map (fun y => if y.tag = t then { y with result := some x } else y) } }

/-- The transaction is carried out. -/
def State.perform (s : State) (x : Txn) : State :=
  match x.op with
  | .read n =>
    let (s, ws, ok) := s.txnReads x.req x.plot x.addr n
    s.setResult x.tag (ws, if ok then .ok else .error)
  | .write ws =>
    let (s, ok) := s.txnWrites x.req x.plot x.addr ws
    s.setResult x.tag ([], if ok then .ok else .error)

/-- Before another access to line `ln` is carried out, the directory ends what it has begun on it and what queued there first: the
snoops of the line are answered, and the requests that wait for it are carried out in order of arrival (R50). -/
def State.serveLine (s : State) (ln : Nat) : State :=
  let s := (s.fab.snoops.filter (fun x => x.line == ln)).foldl (fun s x => (s.takeWriteback x.core ln).answerSnoop x.core ln) s
  (s.fab.inflight.filter (fun x => x.result.isNone && (linesOf x.addr (opLen x.op)).contains ln)).foldl (fun s x => s.perform x) s

/-- The same for the line of address `a`, where it is one of field memory. -/
def State.serveAt (s : State) (a : Nat) : State := if a < fieldWords then s.serveLine (lineNo a) else s

/-! ## Accesses of units -/

/-- A read of one word at address `a` by requester `r` with plot `p`. -/
def State.busRead (s : State) (r p a : Nat) : State × Resp :=
  match s.gate r p a false with
  | some e => (s.refuse r p a e, errResp)
  | none => (s.serveAt a).readOpen r a

/-- A write of one word at address `a` by requester `r` with plot `p`. -/
def State.busWrite (s : State) (r p a : Nat) (v : Word) : State × BusResp :=
  match s.gate r p a true with
  | some e => (s.refuse r p a e, .error)
  | none => (s.serveAt a).writeOpen r a v

/-- Read `n` words from `a` upward: the words, 0 for an error, and whether all were good. -/
def State.busReads (s : State) (r p a : Nat) : Nat → State × List Word × Bool
  | 0 => (s, [], true)
  | n + 1 =>
    let (s, ws, ok) := s.busReads r p a n
    let (s, x) := s.busRead r p (a + n)
    (s, ws ++ [x.value], ok && x.kind == .ok)

/-- Write words from `a` upward; whether all were taken. -/
def State.busWrites (s : State) (r p a : Nat) (ws : List Word) : State × Bool :=
  (ws.zipIdx).foldl (fun x w =>
    let (t, k) := x.1.busWrite r p (a + w.2) w.1
    (t, x.2 && k == .ok)) (s, true)

/-- A register write by requester `r`, which the debug lock may refuse (R456). -/
def State.reqWrite (s : State) (r a : Nat) (v : Word) : State :=
  if r = 25 ∧ s.lockRefuses a v then (s.dbgErr 6).answer r errResp
  else let (t, k) := s.busWrite r (s.reqPlot r) a v; t.answer r ⟨0, [], k⟩

/-- A write to a register without a row of its own (R5, R6, R7). -/
def execRegisterWrite (req : Req) (a : Addr) (v : Word) (s : State) : Out := .next (s.reqWrite req.val a.toNat v)

end Sys2Proof.Machine
end

