-- ==== Sys2Proof/Machine/Voices.lean ====
section
/-! DEFINITION. The samples of the voices (R188 to R193): start and its checks, PCM, ADPCM, tone and chime, end, and the words that
their reads return. -/
namespace Sys2Proof.Machine

/-! ## IMA ADPCM -/

/-- The step table of IMA ADPCM (R192). -/
def imaSteps : List Nat :=
  [7, 8, 9, 10, 11, 12, 13, 14, 16, 17, 19, 21, 23, 25, 28, 31, 34, 37, 41, 45, 50, 55, 60, 66, 73, 80, 88, 97, 107, 118] ++
  [130, 143, 157, 173, 190, 209, 230, 253, 279, 307, 337, 371, 408, 449, 494, 544, 598, 658, 724, 796, 876, 963, 1060] ++
  [1166, 1282, 1411, 1552, 1707, 1878, 2066, 2272, 2499, 2749, 3024, 3327, 3660, 4026, 4428, 4871, 5358, 5894, 6484, 7132] ++
  [7845, 8630, 9493, 10442, 11487, 12635, 13899, 15289, 16818, 18500, 20350, 22385, 24623, 27086, 29794, 32767]

/-- The change of the step index that a code makes. -/
def imaMove (code : Nat) : Int :=
  match code % 8 with
  | 4 => 2 | 5 => 4 | 6 => 6 | 7 => 8 | _ => -1

/-- One code: predictor and step index after it. -/
def imaDecode (code : Nat) (x : Int × Int) : Int × Int :=
  let step := imaSteps.getD x.2.toNat 0
  let d : Nat := step / 8 + (if code.testBit 2 then step else 0) + (if code.testBit 1 then step / 2 else 0) +
    (if code.testBit 0 then step / 4 else 0)
  (clampI (-32768) 32767 (if code.testBit 3 then x.1 - d else x.1 + d), clampI 0 88 (x.2 + imaMove code))

/-- Code `j` of a block, from its data words (R192). -/
def imaCode (ws : List Word) (j : Nat) : Nat := (ws.getD (j / 6) 0).toNat / 2 ^ (20 - 4 * (j % 6)) % 16

/-- Sample `j` of the block with header `h` and data words `ws`, as a 24-bit sample. -/
def imaSample (h : Word) (ws : List Word) (j : Nat) : Int :=
  256 * ((List.range (j + 1)).foldl (fun x i => imaDecode (imaCode ws i) x) (signed 16 h.toNat, (getF h ⟨22, 16⟩ : Int))).1

/-! ## Source samples -/

/-- The words from `a` upward, if every one of them has returned. -/
def VoiceSt.have (x : VoiceSt) (a n : Nat) : Option (List Word) := (List.range n).mapM (fun i => Tab.get none x.words (a + i))

/-- Source sample `i` of a PCM or ADPCM voice; none where a word has not returned (R189, R191, R192). -/
def State.voiceSrc (s : State) (v i : Nat) : State × Option Int :=
  let x := s.voice v
  if x.mode = 0 then (s, (x.have (16 * x.base + i) 1).map (fun ws => signed 24 (ws.getD 0 0).toNat))
  else
    let b := i / 252
    match x.have (16 * x.base + 43 * b) (2 + i % 252 / 6) with
    | none => (s, none)
    | some ws =>
      if getF (ws.getD 0 0) ⟨22, 16⟩ ≤ 88 then (s, some (imaSample (ws.getD 0 0) (ws.drop 1) (i % 252)))
      else if x.silent = some b then (s, some 0)
      else ((s.audErr 5 (0x200 + 16 * v)).updVoice v (fun x => { x with silent := some b }), some 0)

/-- Does a loop pass remain? -/
def VoiceSt.loops' (x : VoiceSt) : Bool := decide (x.rem ≠ 0)

/-- The value between samples `a` and `b` at `f` / 4,096: where it is not whole, rounded down or up by a free value (R189). -/
def State.between (s : State) (a b : Int) (f : Nat) : Int × State :=
  let n := a * 4096 + (b - a) * (f : Int)
  if n.fmod 4096 = 0 then (n.fdiv 4096, s)
  else (n.fdiv 4096 + (b2n (bit (Config.freeValue s.freeCtr) 0) : Nat), s.useFree)

/-- The output of a PCM or ADPCM voice at its position (R189). Past the last sample the spec names no second one. A silent
block counts when its first sample is due, not where it lends the second sample of an interpolation. -/
def State.sourceOut (s : State) (v : Nat) : State × Option Int :=
  let x := s.voice v
  let i := x.pos / 4096
  let f := x.pos % 4096
  let (s, a) := s.voiceSrc v i
  match a with
  | none => (s, none)
  | some a =>
    if f = 0 then (s, some a)
    else
      let j := if x.loops' ∧ i + 1 = x.loope then x.loops else i + 1
      if x.len ≤ j then (s.useFree, some (signed 24 (Config.freeValue s.freeCtr).toNat))
      else
        let (_, b) := s.voiceSrc v j
        match b with
        | none => (s, none)
        | some b => let (o, s) := s.between a b f; (s, some o)

/-- The position wraps at the end of the loop while passes remain: the position and the passes left. -/
def wrapLoop (loops loope loopn pos rem : Nat) : Nat × Nat :=
  if rem = 0 ∨ pos / 4096 < loope then (pos, rem)
  else
    let len := loope - loops
    let times := (pos / 4096 - loope) / Nat.max 1 len + 1
    let m := if loopn = 255 then times else Nat.min times rem
    (pos - 4096 * len * m, if loopn = 255 then rem else rem - m)

/-- The position after one output sample (R189, R190); a loop jump decodes its block anew (R192), and words that have been
passed are dropped. -/
def State.sourceStep (s : State) (v : Nat) : State :=
  let x := s.voice v
  let far := x.pos + (s.inEff (Reg.AUD_V_STEP v)).toNat
  let (pos, rem) := wrapLoop x.loops x.loope x.loopn far x.rem
  let s := if x.rem ≠ 0 ∧ rem = 0 ∧ s.voiceState v = 2 then s.setVoiceState v 1 else s
  let i := pos / 4096
  let low := if rem ≠ 0 then Nat.min x.loops i else i
  let from' := 16 * x.base + (if x.mode = 0 then low else 43 * (low / 252))
  s.updVoice v (fun x =>
    { x with pos := pos, rem := rem, finish := decide (x.len ≤ i), silent := if pos = far then x.silent else none
             words := if x.pending then x.words else x.words.keep (from' ≤ ·) })

/-! ## Tones and chimes -/

/-- The step of the phase accumulator (R193). -/
def toneInc (freq fs : Nat) : Nat :=
  let n := freq * 2 ^ 28
  if n % fs ≠ 0 ∧ Config.toneIncUp freq fs then n / fs + 1 else n / fs

/-- The envelope of a chime after `n` samples, with 64 fraction bits; `r` is the count at which REL came (R190, R193). -/
def chimeEnv (attack decay : Nat) (r : Option Nat) (fs n : Nat) : Int :=
  let a := attack * fs / 1000
  let d := Nat.max 1 decay * fs / 1000
  let top := Nat.min a (r.getD a)
  let lev (m : Nat) : Int := if a = 0 then Fixed.one else (Fixed.one * (m : Int)).fdiv (a : Int)
  if n < top then lev n else (lev top * Fixed.pow10 (-(3 * ((n - top : Nat) : Int))) d).fdiv Fixed.one

/-- Has the envelope of a chime without LEN fallen below −120 dB (R193)? -/
def VoiceSt.faded (x : VoiceSt) (fs : Nat) : Bool :=
  let a := x.attack * fs / 1000
  x.mode == 3 && x.len == 0 && decide (Nat.min a (x.relAt.getD a) ≤ x.count) &&
  decide (chimeEnv x.attack x.decay x.relAt fs x.count < Fixed.pow10 (-6) 1)

/-- The output of a tone or chime voice: the sine under its envelope, with products below −110 dBFS (R193). -/
def State.toneOut (s : State) (v : Nat) : Int × State :=
  let x := s.voice v
  let env := if x.mode = 3 then chimeEnv x.attack x.decay x.relAt s.audFs x.count else Fixed.one
  let e := Fixed.round ((8388607 * Fixed.sin32 x.acc * env).fdiv Fixed.one)
  let (d, s) := s.freeIn 0 52
  (clampI (-8388608) 8388607 (e + (d : Int) - 26), s)

/-- The phase after one output sample; a tone that is released ends at its next rising zero crossing (R190). -/
def State.toneStep (s : State) (v : Nat) : State :=
  let x := s.voice v
  let acc := x.acc + toneInc (s.inEff (Reg.AUD_V_STEP v)).toNat s.audFs
  s.updVoice v (fun x =>
    { x with acc := acc % 2 ^ 32, count := x.count + 1
             finish := (decide (x.len ≠ 0) && decide (x.len ≤ x.count + 1)) || (x.mode == 2 && x.rel && decide (2 ^ 32 ≤ acc)) })

/-! ## Start, end, one sample -/

/-- The voice ends: END, VEND, its tine (R190). -/
def State.voiceEnd (s : State) (v : Nat) : State :=
  let s := (s.setVoiceState v 0).setBit (Reg.AUD_V_STAT v) 21
  let s := s.setBit Reg.AUD_EVT 0
  let s := s.publishIf (s.bitAt (Reg.AUD_V_TRIG v) 7) (s.fld (Reg.AUD_V_TRIG v) Fd.AUD_V_TRIG_ETINE)
  s.updVoice v (fun x => { start := x.start, go := x.go, words := if x.pending then x.words else [] })

/-- The check of a start (R188). -/
def State.voiceOk (s : State) (v : Nat) : Bool :=
  let r (a : Nat) : Nat := (s.reg a).toNat
  let mode := r (Reg.AUD_V_CFG v) % 4
  let step := (s.inEff (Reg.AUD_V_STEP v)).toNat
  let ls := r (Reg.AUD_V_LOOPS v)
  let le := r (Reg.AUD_V_LOOPE v)
  if mode < 2 then
    decide (1 ≤ r (Reg.AUD_V_LEN v) ∧ 0x400 ≤ step ∧ step ≤ 0x2000) &&
    (r (Reg.AUD_V_LOOPN v) % 256 == 0 ||
      (decide (ls < le ∧ le ≤ r (Reg.AUD_V_LEN v)) && (mode == 0 || (ls % 252 == 0 && le % 252 == 0))))
  else decide (16 ≤ step ∧ 20 * step ≤ 9 * 16 * s.audFs)

/-- A start that is due, that of GO before that of an event: rejected with cause 3, or the voice begins at its first sample (R187, R188). -/
def State.voiceBegin (s : State) (v : Nat) : State :=
  let s' := s.updVoice v (fun x => if x.go then { x with go := false } else { x with start := none })
  if !s.voiceOk v then (s'.setBit (Reg.AUD_V_STAT v) 19).audErr 3 (0x200 + 16 * v)
  else
    let s := [Reg.AUD_V_CFG v, Reg.AUD_V_START v, Reg.AUD_V_LEN v, Reg.AUD_V_LOOPS v, Reg.AUD_V_LOOPE v, Reg.AUD_V_LOOPN v,
      Reg.AUD_V_ENV v].foldl State.latch s
    let e (a : Nat) : Nat := (s.inEff a).toNat
    let mode := e (Reg.AUD_V_CFG v) % 4
    let n := e (Reg.AUD_V_LOOPN v) % 256
    let env := s.inEff (Reg.AUD_V_ENV v)
    let rem := if mode < 2 then n else 0
    let s := s.setVoiceState v (if rem = 0 then 1 else 2)
    let s := if mode < 2 then s.setReg (Reg.AUD_V_POS v) 0
      else (s.setReg (Reg.AUD_V_POS v) (Config.freeValue s.freeCtr)).useFree
    s.updVoice v (fun x =>
      { start := if x.go then x.start else none, mode := mode, base := e (Reg.AUD_V_START v), len := e (Reg.AUD_V_LEN v), loops := e (Reg.AUD_V_LOOPS v),
        loope := e (Reg.AUD_V_LOOPE v), loopn := n, rem := rem, attack := getF env Fd.AUD_V_ENV_ATTACK,
        decay := getF env Fd.AUD_V_ENV_DECAY, words := x.words })

/-- The sample of voice `v` at output index `k` (R188 to R193): 0 while idle, ended or frozen (R463), and, counted, while a word is
missing (R191). -/
def State.voiceSample (s : State) (k v : Nat) : State × Int :=
  if s.frozen 5 then (s, 0)
  else
    let x := s.voice v
    let s := if x.stop ∨ (s.voiceState v ≠ 0 ∧ (x.finish ∨ x.faded s.audFs)) then s.voiceEnd v else s
    let due (s : State) : Bool := match (s.voice v).start with
      | some n => decide (n ≤ k)
      | none => false
    let s := if (s.voice v).go then s.voiceBegin v else s
    let s := if due s then s.voiceBegin v else s
    if s.voiceState v = 0 then (s, 0)
    else if (s.voice v).mode < 2 then
      let (s, o) := s.sourceOut v
      let s := s.setReg (Reg.AUD_V_POS v) (wd ((s.voice v).pos / 4096))
      match o with
      | some y => (s.sourceStep v, y)
      | none => (((s.audCount Reg.AUD_LATECNT 1 none).perf 22 1).sourceStep v, 0)
    else
      let (y, s) := s.toneOut v
      (s.toneStep v, y)

/-- A read of voice `v` returns the 12-word line of `a`; a word that meets an error is 0, with cause 5 (R191). -/
def State.voiceFetch (s : State) (v a : Nat) (r : BusResp) : State :=
  if s.audState = 0 ∨ !s.dom 15 then s
  else
    let a0 := 12 * (a / 12)
    let (s, ws, ok) : State × List Word × Bool := if r = .ok then s.busReads 21 0 a0 12 else (s, List.replicate 12 0, false)
    let s := if ok then s else s.audErr 5 (0x200 + 16 * v)
    s.updVoice v (fun x =>
      { x with words := ws.zipIdx.foldl (fun t w => Tab.put none t (a0 + w.2) (some w.1)) x.words })

def execVoiceFetchResponse (v : BitVec 6) (a : BitVec 29) (r : BusResp) (s : State) : Out :=
  .next (s.voiceFetch v.toNat a.toNat r)

end Sys2Proof.Machine
end

