-- ==== Sys2Proof/Machine/AudioEngine.lean ====
section
/-! DEFINITION. The audio engine at work: Sheaves (R194 to R197), one output index (R179 to R186, R202 to R208), TDM frames (R177,
R199, R200), ambient loops (R205, R206). -/
namespace Sys2Proof.Machine

/-! ## Sheaves -/

/-- May an entry of plot `p`'s Sheaf name offset `o` with value `v` (R194, R195): an offset of R194, a value in range, a register of plot
`p`? -/
def State.shfEntryOk (s : State) (p o : Nat) (v : Word) : Bool :=
  let named := decide (0x200 ≤ o ∧ o < 0x600) || decide (0x20 ≤ o ∧ o < 0x40) || decide (0x100 ≤ o ∧ o < 0x130) ||
    decide (0x2000 ≤ o ∧ o < 0x4000)
  named && !s.audRange o v && !(decide (0x2000 ≤ o) && decide (280 < getF v Fd.AUD_NODE_GAIN)) &&
  (s.ownerAUD o).allows p true

/-- Entries cut into phases at those with PEND; none where the last one has no PEND. -/
def phasesOf : List (Word × Word) → Option (List (List (Nat × Bool × Word)))
  | [] => some []
  | (e, v) :: es =>
    let x := (getF e ⟨15, 0⟩, bit e 22, v)
    match phasesOf es with
    | none => none
    | some ps =>
      if bit e 23 then some ([x] :: ps)
      else match ps with
        | [] => none
        | p :: ps => some ((x :: p) :: ps)

/-- The list of slot `p` is read and checked (R194, R195): its phases, or none where it is rejected. -/
def State.shfRead (s : State) (p : Nat) : State × Option (List (List (Nat × Bool × Word))) :=
  let base := 16 * (s.reg (Reg.AUD_SHF_BASE p)).toNat
  let (s, w, ok) := s.busReads 21 0 base 1
  let n := (w.getD 0 0).toNat
  if !ok ∨ n = 0 ∨ 256 < n then (s, none)
  else
    let (s, ws, ok) := s.busReads 21 0 (base + 1) (2 * n)
    let es := (List.range n).map (fun i => (ws.getD (2 * i) 0, ws.getD (2 * i + 1) 0))
    let good := ok && es.all (fun e => s.shfEntryOk p (getF e.1 ⟨15, 0⟩) e.2)
    match phasesOf es with
    | some ps => if good && ps.all (fun q => decide (q.length ≤ 64)) then (s, some ps) else (s, none)
    | none => (s, none)

/-- Loading ends: WAITING, or the whole Sheaf is rejected with REJ and cause 4 (R195). -/
def State.shfLoaded (s : State) (p : Nat) : State :=
  if s.shfState p ≠ 1 then s
  else
    let (s, r) := s.shfRead p
    match r with
    | some ps => (s.setShfState p 2).setSheaf p { phases := ps }
    | none =>
      let s := (s.setBit (Reg.AUD_SHF_STAT p) 20).setShfState p 0 true
      (s.audErr 4 (0x90 + 4 * p)).setBit Reg.AUD_EVT 2

def execSheafLoaded (p : Fin 8) (s : State) : Out := .next (s.shfLoaded p.val)

/-- An entry applies (R197): a node's gain with ZC 0 at once, everything else as a register write. -/
def State.shfEntry (s : State) (o : Nat) (zc : Bool) (v : Word) : State :=
  if 0x2000 ≤ o ∧ !zc then
    let a := 0x8090000 + o
    let g := getF v Fd.AUD_NODE_GAIN
    (s.endNode (o - 0x2000) false |>.setReg a (wd g)).setEff a (wd g)
  else s.writeAudio o v

/-- Is the first phase of slot `p` due at index `k` (R195)? Whether it is late, too. -/
def State.shfDue (s : State) (p k : Nat) : Bool × Bool :=
  if !s.bitAt (Reg.AUD_SHF_CTRL p) 1 then (true, false)
  else
    let d := subMod (s.reg (Reg.AUD_SHF_TGT p)).toNat k (2 ^ 24)
    (d == 0 || decide (2 ^ 23 ≤ d), decide (2 ^ 23 ≤ d))

/-- The next phase of slot `p` applies before index `k` if it fits into `left` entries, else it slips whole (R196). -/
def State.shfPhase (s : State) (p left : Nat) : State × Nat :=
  let x := s.sheafOf p
  let a := Reg.AUD_SHF_STAT p
  match x.phases.drop x.applied with
  | [] => (s, left)
  | ph :: rest =>
    if left < ph.length then
      let s := s.setFld a Fd.AUD_SHF_STAT_SLIPCNT (Nat.min 255 (s.fld a Fd.AUD_SHF_STAT_SLIPCNT + 1))
      ((s.setBit Reg.AUD_EVT 2).perf 22 5, left)
    else
      let s := ph.foldl (fun s e => s.shfEntry e.1 e.2.1 e.2.2) s
      let s := (s.setFld a Fd.AUD_SHF_STAT_PHASE (x.applied + 1)).perf 22 4
      if rest.isEmpty then
        (((s.setShfState p 0).setBit a 21).setSheaf p {} |>.setBit Reg.AUD_EVT 1, left - ph.length)
      else ((s.setShfState p 3).setSheaf p { x with applied := x.applied + 1 }, left - ph.length)

/-- One slot at the boundary before index `k`. -/
def State.shfSlot (s : State) (k p left : Nat) : State × Nat :=
  if s.shfState p = 3 then s.shfPhase p left
  else if s.shfState p = 2 then
    let (due, late) := if (s.sheafOf p).due then (true, false) else s.shfDue p k
    if !due then (s, left)
    else
      let s := if late then (s.setBit (Reg.AUD_SHF_STAT p) 19).setBit Reg.AUD_EVT 2 else s
      (s.setSheaf p { s.sheafOf p with due := true }).shfPhase p left
  else (s, left)

/-- The Sheaf phases due before index `k`: at most 64 entries, in slot order (R196). They wait while the engine is frozen
(R463). -/
def State.shfBoundary (s : State) (k : Nat) : State :=
  if s.frozen 5 then s
  else ((List.range 8).foldl (fun (x : State × Nat) p => x.1.shfSlot k p x.2) (s, 64)).1

/-! ## Inputs -/

/-- The audio commit point (R6, R179 step 3): the shadowed fields staged since the last index, and routing entries that wait
for it (R376). -/
def State.audLatch (s : State) : State :=
  let s := forN 32 (fun i s => s.latch (Reg.AUD_LNKIN 0 + i)) s
  let s := forN 48 (fun n s => s.latch (Reg.AUD_OUT_CFG n)) s
  let s := forN 64 (fun v s => s.latch (Reg.AUD_V_STEP v)) s
  if s.bitAt Reg.LNK_RTCMT 22 then s.latchRoutes else s

/-- The eight samples of input frame `n` of port `t`, 0 where there is none; older frames leave the crossing. -/
def State.tdmIn (s : State) (t n : Nat) : State × List Int :=
  let p := s.port t
  let ws := ((p.inq.find? (fun e => e.1 == n)).map (·.2)).getD []
  (s.updPort t (fun p => { p with inq := p.inq.filter (fun e => n < e.1) }),
    (List.range 8).map (fun i => signed 24 (ws.getD i 0).toNat))

/-- The sample of index `n` of link input `j` (R202): one that has not crossed is 0 and counts. -/
def State.linkIn (s : State) (j n : Nat) : State × Int :=
  let q : List (Nat × Word) := Tab.get [] s.aud.linkIn j
  let s := s.updAud (fun a =>
    { a with linkIn := Tab.put [] a.linkIn j (q.filter (fun e => decide (0 < subMod e.1 n (2 ^ 24) ∧ subMod e.1 n (2 ^ 24) < 2 ^ 23))) })
  if !bit (s.inEff (Reg.AUD_LNKIN j)) 23 then (s, 0)
  else match q.find? (fun e => e.1 == n % 2 ^ 24) with
    | some e => (s, signed 24 e.2.toNat)
    | none => ((s.audCount Reg.AUD_LATECNT 1 none).perf 22 1, 0)

/-- Run `f` for each number below `n` and gather its results. -/
def gather {α : Type} (n : Nat) (f : State → Nat → State × α) (s : State) : State × List α :=
  (List.range n).foldl (fun x i => let (t, a) := f x.1 i; (t, x.2 ++ [a])) (s, [])

/-- The 128 inputs of index `k` (R179 step 4, R181): voices, TDM, links, microphones, returns. -/
def State.audInputs (s : State) (k : Nat) (pdm : List Word) : State × List Int :=
  let (s, vs) := gather 64 (fun s v => s.voiceSample k v) s
  let (s, ts) := gather 4 (fun s t => s.tdmIn t (k - s.audAhead)) s
  let (s, ls) := gather 16 (fun s j => s.linkIn j (k + 2 ^ 24 - s.audLnklat)) s
  let ms := (List.range 4).map (fun m => if s.bitAt Reg.AUD_PDMCFG m then signed 24 (pdm.getD m 0).toNat else 0)
  let rs := (List.range 12).map (fun r => signed 24 (s.aud.returns.getD r 0).toNat)
  (s, vs ++ ts.flatten ++ ls ++ ms ++ rs)

/-- The pending gains whose input crosses zero at this index, or whose timeout has run out, take effect (R184). -/
def State.nodesStep (s : State) (xs : List Int) : State :=
  let now := s.timebase.toNat
  let prev := s.aud.prevIn
  s.aud.nodeTo.foldl (fun s e =>
    match e.2 with
    | none => s
    | some t =>
      let x := xs.getD (e.1 / 64) 0
      let p := prev.getD (e.1 / 64) 0
      if x = 0 ∨ (decide (x < 0) != decide (p < 0)) then (s.endNode e.1 true).perf 22 2
      else if t ≤ now then (s.endNode e.1 true).perf 22 3
      else s) s

/-! ## Outputs -/

/-- A sample saturated to 24 bits, and whether it was. -/
def saturate (x : Int) : Int × Bool := (clampI (-8388608) 8388607 x, decide (x < -8388608 ∨ 8388607 < x))

/-- Count `n` saturated samples (R186). -/
def State.clips (s : State) (n : Nat) : State := s.audCount Reg.AUD_CLIPCNT n (some 5)

/-- Saturate a sample, with its count. -/
def State.sat (s : State) (x : Int) : State × Int :=
  let (y, c) := saturate x
  (if c then s.clips 1 else s, y)

/-- The gains in effect that are not mute: input, output, code. -/
def State.gains (s : State) : List (Nat × Nat × Nat) :=
  s.eff.filterMap (fun e =>
    if Reg.AUD_NODE 0 0 ≤ e.1 ∧ e.1 < Reg.AUD_NODE 0 0 + 0x2000 ∧ getF e.2 Fd.AUD_NODE_GAIN ≠ 0 then
      some ((e.1 - Reg.AUD_NODE 0 0) / 64, (e.1 - Reg.AUD_NODE 0 0) % 64, getF e.2 Fd.AUD_NODE_GAIN)
    else none)

/-- Crosspoint output `o` before saturation (R186). -/
def crossSum (gs : List (Nat × Nat × Nat)) (xs : List Int) (o : Nat) : Int :=
  Fixed.round ((gs.filter (fun g => g.2.1 == o)).foldl (fun a g =>
    a + xs.getD g.1 0 * Fixed.pow10 ((g.2.2 : Int) - 256) 40) 0)

/-- The ambient loop that trims output `o`: the lowest with the output in its mask that is on or still ramps (R205, R206). -/
def State.ambOf (s : State) (o : Nat) : Option Nat :=
  (List.range 4).find? (fun l =>
    let m := if o < 24 then Reg.AUD_AMB_MASK0 l else Reg.AUD_AMB_MASK1 l
    let t : TrimSt := Tab.get {} s.aud.trims l
    s.bitAt m (o % 24) && (s.bitAt (Reg.AUD_AMB_CFG l) 23 || t.now != 0))

/-- The ambient trim of output `o` (R179 step 6, R206). -/
def State.trimOut (s : State) (o : Nat) (x : Int) : State × Int :=
  match s.ambOf o with
  | none => (s, x)
  | some l =>
    let t : TrimSt := Tab.get {} s.aud.trims l
    if t.now = 0 then (s, x) else s.sat (Fixed.round (x * Fixed.pow10 t.now (40 * 256)))

/-- The ramps of the trims move on by one sample. -/
def State.trimsStep (s : State) : State :=
  forN 4 (fun l s => s.updAud (fun a =>
    let t : TrimSt := Tab.get {} a.trims l
    let t' : TrimSt := { t with step := Nat.min 256 (t.step + 1) }
    { a with trims := Tab.put {} a.trims l (if t'.step = 256 then { t' with src := t'.dst } else t') })) s

/-- The sample that left output `o`'s ring `d` samples before index `k`; a read error is 0, with cause 6 (R203, R204). -/
def State.ringRead (s : State) (o k d : Nat) : State × Int :=
  let a := 16 * (s.reg Reg.AUD_DLBASE).toNat + o * 49152 + (k + 49152 - d % 49152) % 49152
  let (s, r) := s.busRead 21 0 a
  if r.kind = .ok then (s, signed 24 r.value.toNat) else (s.audErr 6 (0x100 + o), 0)

/-- The crossfade at step `n` of 256 (R204): between its exact values at this step and the next one, a free value picks. -/
def State.fadeAt (s : State) (a b : Int) (n : Nat) : Int × State :=
  let at' (m : Nat) : Int := a * 256 + (b - a) * (m : Int)
  let lo := (min (at' n) (at' (n + 1))).fdiv 256
  let hi := -((-(max (at' n) (at' (n + 1)))).fdiv 256)
  let (d, s) := s.freeIn 0 (hi - lo).toNat
  (lo + (d : Int), s)

/-- The delay line of output `o` (R203, R204). -/
def State.delayOut (s : State) (o k : Nat) (x : Int) : State × Int :=
  let on := s.bitAt Reg.AUD_CTRL 2
  let s := if on then
      let (t, r) := s.busWrite 21 0 (16 * (s.reg Reg.AUD_DLBASE).toNat + o * 49152 + k % 49152) (wdI x)
      if r = .ok then t else t.audErr 6 (0x100 + o)
    else s
  let c := s.inEff (Reg.AUD_OUT_CFG o)
  let want := if on && bit c 23 then some (getF c Fd.AUD_OUT_CFG_DLY) else none
  let tap : TapSt := Tab.get {} s.aud.taps o
  let tap : TapSt := if want = tap.cur then tap else ⟨tap.cur, want, 0⟩
  let next : TapSt := { tap with step := Nat.min 256 (tap.step + 1) }
  let next : TapSt := if next.step = 256 then { next with old := next.cur } else next
  let s := s.updAud (fun a => { a with taps := Tab.put {} a.taps o next })
  let tapped (s : State) (d : Option Nat) : State × Int := match d with
    | none => (s, x)
    | some d => s.ringRead o k d
  let (s, b) := tapped s tap.cur
  if tap.step = 256 then (s, b)
  else
    let (s, a) := tapped s tap.old
    let (y, s) := s.fadeAt a b tap.step
    (s, y)

/-- The pilot or test tone of the night round is added to output `o` at index `k` (R179, R225). -/
def State.pilotOut (s : State) (o k : Nat) (x : Int) : State × Int :=
  match s.nrToneOn o k with
  | none => (s, x)
  | some t =>
    let (y, s) := s.toneSample t k
    s.sat (x + y)

/-- Output `o` of index `k`, from the crosspoint to its crossing (R179 steps 5 to 7). -/
def State.outputOf (s : State) (k : Nat) (gs : List (Nat × Nat × Nat)) (xs : List Int) (o : Nat) : State × Int :=
  let (s, x) := s.sat (crossSum gs xs o)
  if 48 ≤ o then (s, x)
  else
    let (s, x) := s.trimOut o x
    let (s, x) := s.delayOut o k x
    if o < 32 then s.pilotOut o k x else (s, x)

/-- Record ring `r` takes a sample of bus `12 + r` (R207). -/
def State.recordBus (s : State) (r : Nat) (x : Int) : State :=
  let c := Reg.AUD_REC_CTRL r
  if !s.bitAt c 23 then s
  else
    let p := (s.reg (Reg.AUD_REC_PTR r)).toNat
    let (s, k) := s.busWrite 21 0 (16 * (s.reg (Reg.AUD_REC_BASE r)).toNat + p) (wdI x)
    let s := if k = .ok then s else s.audErr 6 (0x80 + 4 * r)
    if (s.reg (Reg.AUD_REC_LEN r)).toNat ≤ p + 1 then
      ((s.setReg (Reg.AUD_REC_PTR r) 0).setBit Reg.AUD_EVT 10).publishIf (s.bitAt c 15) (s.fld c Fd.AUD_REC_CTRL_TINE)
    else s.setReg (Reg.AUD_REC_PTR r) (wd (p + 1))

/-- The samples of index `k` go to the crossings, the returns and the record rings (R179 step 7). A port whose clocks do not run
keeps the latest 32 of its crossing. -/
def State.outputsGo (s : State) (k : Nat) (ys : List Int) : State :=
  let y (o : Nat) : Int := ys.getD o 0
  let s := forN 4 (fun t s => s.updPort t (fun p =>
    let q := p.outq ++ [(k, (List.range 8).map (fun i => wdI (y (8 * t + i))))]
    { p with outq := q.drop (q.length - 32) })) s
  let s := forN 16 (fun o s => if bit (s.inEff (Reg.AUD_LNKOUT o)) 23 then s.linkOut o k (wdI (y (32 + o))) else s) s
  let s := forN 4 (fun r s => s.recordBus r (y (60 + r))) s
  s.updAud (fun a => { a with returns := (List.range 12).map (fun r => wdI (y (48 + r))) })

/-- May index `k` be computed: at most AHEAD samples ahead of the clocked side (R179)? -/
def State.audMay (s : State) (k : Nat) : Bool :=
  let run := (List.range 4).filter (fun t => s.bitAt (Reg.AUD_TDM_STAT t) 23)
  if run.isEmpty then s.audState == 2 || decide (k < s.aud.frame + s.audAhead)
  else run.all (fun t => decide (k < (s.port t).next + s.audAhead))

/-- The samples of an index enter what ambient loop `l` measures (R205, R206). The 10 ms RMS level of an output is taken in blocks of
10 ms; 0 dBFS is the level of a sine at full scale (log entry 140). -/
def State.ambTake (s : State) (l : Nat) (xs ys : List Int) : State :=
  let c := s.reg (Reg.AUD_AMB_CFG l)
  if !bit c 23 then s
  else
    let a : AmbSt := Tab.get {} s.aud.amb l
    let x := (xs.getD (getF c Fd.AUD_AMB_CFG_SRC) 0).natAbs ^ 2
    let outs := (List.range 48).map (fun o => a.outs.getD o 0 + (ys.getD o 0).natAbs ^ 2)
    let blk := a.blk + 1
    let full := decide (s.audFs / 100 ≤ blk)
    let masked (o : Nat) : Bool := s.bitAt (if o < 24 then Reg.AUD_AMB_MASK0 l else Reg.AUD_AMB_MASK1 l) (o % 24)
    let quiet := (List.range 48).all (fun o => !masked o ||
      decide (outs.getD o 0 ^ 10 * 10 ^ getF c Fd.AUD_AMB_CFG_GATE < (2 ^ 45 * blk) ^ 10))
    let next : AmbSt :=
      if !full then { a with n := a.n + 1, blk := blk, blkPow := a.blkPow + x, outs := outs }
      else { n := a.n + 1, q := a.q + (if quiet then blk else 0), pow := a.pow + (if quiet then a.blkPow + x else 0) }
    s.updAud (fun y => { y with amb := Tab.put {} y.amb l next })

/-- Output index `k` (R179). -/
def State.audCompute (s : State) (k : Nat) (pdm sns : List Word) : State :=
  let s := (s.shfBoundary k).audLatch
  let (s, xs) := s.audInputs k pdm
  let s := s.nrTake k xs (sns.map (fun w => signed 24 w.toNat))
  let s := s.nodesStep xs
  let gs := s.gains
  let (s, ys) := gather 64 (fun s o => s.outputOf k gs xs o) s
  let s := forN 4 (fun l s => s.ambTake l xs ys) ((s.trimsStep).outputsGo k ys)
  (s.updAud (fun a => { a with next := some (k + 1), prevIn := xs })).perf 22 0

/-- The engine computes its next output index once its PLL has locked (R178, R179); `pdm` holds the samples of the four
microphones, `sns` those of SNS0 to SNS3 at the instant of the TDM input frame that it takes. -/
def execAudioIndexCompute (pdm sns : List Word) (s : State) : Out :=
  .next (match s.aud.next with
    | some k => if s.dom 15 && decide (s.audState ≠ 0) && s.bitAt Reg.AUD_STAT 21 && s.audMay k then
        s.declaring (fun s => s.audCompute k pdm sns) else s
    | none => s)

/-! ## TDM frames -/

/-- The value of input slot `i` of port `t` in this frame (R200): for how long it has stood, and the bit that says stuck. -/
def State.slotIn (s : State) (t i : Nat) (w : Word) : State × Word :=
  let p := s.port t
  let run := if w ≠ 0 ∧ p.last.getD i 0 = w then Nat.min 48000 (p.runs.getD i 0 + 1) else if w = 0 then 0 else 1
  let a := Reg.AUD_TDM_STAT t
  let was := s.bitAt a i
  let stuck := decide (48000 ≤ run)
  let s := s.putBit a i stuck
  let s := if stuck && !was then s.setBit Reg.AUD_EVT 7 else s
  let fill (l : List Nat) : List Nat := (List.range 8).map (fun j => if j = i then run else l.getD j 0)
  (s.updPort t (fun p => { p with runs := fill p.runs }), if stuck then 0 else w)

/-- Frame `p.next` of a running port: the output samples leave, or silence with an underrun of 8 samples; the input samples
cross, or are dropped with an overrun of 8; bits 7:0 carry the control channel (R29, R30, R177, R199, R200). -/
def State.tdmExchange (s : State) (t : Nat) (slots : List (BitVec 32)) : State :=
  let p := s.port t
  let n := p.next
  let out := p.outq.find? (fun e => e.1 == n)
  let s := if out.isNone then s.audCount Reg.AUD_UNDCNT 8 (some 3) else s
  let sent := (out.map (·.2)).getD (List.replicate 8 0)
  let raw := (List.range 8).map (fun i => wd ((slots.getD i 0).toNat / 256))
  let (s, ws) := gather 8 (fun s i => s.slotIn t i (raw.getD i 0)) s
  let full := decide (32 ≤ p.inq.length)
  let s := if full then s.audCount Reg.AUD_OVRCNT 8 (some 4) else s
  let s := s.updPort t (fun p =>
    { p with next := n + 1, outq := p.outq.filter (fun e => n < e.1), sent := sent, last := raw
             inq := if full then p.inq else p.inq ++ [(n, ws)] })
  let s := s.updAud (fun a => { a with frame := Nat.max a.frame (n + 1) })
  (s.ctlSend t).ctlTake t ((List.range 8).map (fun i => (slots.getD i 0).setWidth 8))

/-- A frame boundary of port `t`: EN takes effect, and a running port exchanges a frame (R177, R178, R200). -/
def State.tdmFrame (s : State) (t : Nat) (slots : List (BitVec 32)) : State :=
  let run := s.bitAt (Reg.AUD_TDM_STAT t) 23
  if s.audState ≠ 2 ∨ !s.dom 15 then s
  else if !s.bitAt (Reg.AUD_TDM_CFG t) 23 then
    if run then s.setReg (Reg.AUD_TDM_STAT t) 0 else s
  else (if run then s else s.portStart t).tdmExchange t slots

def execTdmFrame (t : Fin 4) (slots : List (BitVec 32)) (s : State) : Out := .next (s.tdmFrame t.val slots)

/-! ## Ambient loops -/

/-- An update of loop `l` (R206), once its period of UPD × 100 ms has passed: the samples of the quiet blocks give L. Where SLOPE gives no
whole step, a free value rounds the target. -/
def State.ambUpdate (s : State) (l : Nat) : State :=
  let a := Reg.AUD_AMB_STAT l
  let c := s.reg (Reg.AUD_AMB_CFG l)
  let m : AmbSt := Tab.get {} s.aud.amb l
  if !bit c 23 ∨ s.audState ≠ 2 ∨ m.n < Nat.max 1 (getF c Fd.AUD_AMB_CFG_UPD) * s.audFs / 10 then s
  else
  let s := s.updAud (fun y => { y with amb := Tab.put {} y.amb l { m with n := 0, q := 0, pow := 0 } })
  if 10 * m.q < m.n then s.setFld a ⟨7, 5⟩ 1
  else
    let (level, s) := s.levelOf m.pow (2 ^ 45 * m.q)
    let cal := s.reg (Reg.AUD_AMB_CAL l)
    let win := s.reg (Reg.AUD_AMB_WIN l)
    let slope := Nat.min 32 (getF cal Fd.AUD_AMB_CAL_SLOPE)
    let step : Int := Nat.min 24 (Nat.max 1 (getF cal Fd.AUD_AMB_CAL_STEP))
    let lo := signed 8 (getF win Fd.AUD_AMB_WIN_MIN)
    let hi := signed 8 (getF win Fd.AUD_AMB_WIN_MAX)
    let n := (level + (getF cal Fd.AUD_AMB_CAL_REF : Int)) * (slope : Int)
    let (t, s) : Int × State := if n.fmod 16 = 0 then (n.fdiv 16, s)
      else (n.fdiv 16 + (b2n (bit (Config.freeValue s.freeCtr) 0) : Nat), s.useFree)
    let held := decide (t < lo ∨ hi < t)
    let off := signed 8 (s.fld a Fd.AUD_AMB_STAT_OFFSET)
    let tc := clampI lo hi t
    let off' := if off < lo ∨ hi < off then clampI lo hi off else clampI (off - step) (off + step) tc
    let s := s.setFld a Fd.AUD_AMB_STAT_LEVEL (clampI 0 255 (-level)).toNat
    let s := s.setFld a Fd.AUD_AMB_STAT_OFFSET (wdI off').toNat
    let s := s.setFld a ⟨7, 5⟩ (if t < lo then 4 else if hi < t then 2 else 0)
    let s := if held then s.audCount (Reg.AUD_AMB_EDGE l) 1 (some 6) else s
    s.setTrim l off'

def execAmbientUpdate (l : Fin 4) (s : State) : Out := .next (s.ambUpdate l.val)

end Sys2Proof.Machine
end

