-- ==== Sys2Proof/Machine/Furrow.lean ====
section
/-! DEFINITION. The Furrow engines (R141 to R157): sections, instructions, limits, fetches, and the queued writes as the
compositor applies them. -/
namespace Sys2Proof.Machine

/-- The Furrow engine of beam `b`. -/
def State.fur (s : State) (b : Nat) : FurSt := (s.beam b).fur

/-- Count a Furrow error with its cause and program word offset (R148, R159). -/
def State.furErr (s : State) (b cause ofs : Nat) : State :=
  let a := Reg.HRW_FW_ERRCNT b
  let sat := s.lastCount a
  let s := ((s.bump a).setFld (Reg.HRW_FW_LASTERR b) Fd.HRW_FW_LASTERR_CAUSE cause).setFld (Reg.HRW_FW_LASTERR b)
    Fd.HRW_FW_LASTERR_ADDR ofs
  let s := s.setBit (Reg.HRW_FW_EVT b) 0
  if sat then s.setBit (Reg.HRW_FW_EVT b) 4 else s

/-- Line `m` makes the compositor wait: it counts as late (R154). -/
def State.furLate (s : State) (b : Nat) : State :=
  let a := Reg.HRW_FW_LATECNT b
  let sat := s.lastCount a
  let s := (s.bump a).setBit (Reg.HRW_FW_EVT b) 2
  if sat then s.setBit (Reg.HRW_FW_EVT b) 4 else s

/-- LOOPACT shows whether the loop counter is active. -/
def State.setLoop (s : State) (b : Nat) (l : Option (Nat × Nat)) : State :=
  (s.updFur b (fun f => { f with loop := l })).putBit (Reg.HRW_FW_STAT b) 20 l.isSome

/-! ## The window and the instruction words (R149, R153) -/

/-- The word `p` lies in the window that begins at `w` (R153). -/
def inWindow (w p : Nat) : Bool := decide (w ≤ p ∧ p < w + 256)

/-- An instruction of a Furrow program (R149). -/
inductive FurIns where
  | fin (skip : BitVec 20)
  | wr (ofs : BitVec 16) (v : Word)
  | wrn (ofs : BitVec 16) (vs : List Word)
  | wrf (ofs : BitVec 16) (mask v : Word)
  | add (ofs : BitVec 16) (delta : Word)
  | jmp (target : BitVec 20)
  | loop (count : BitVec 12) (target : BitVec 20)
  | pub (tine : Tine)
  | waitl (line : BitVec 13)
  | skipev (k : Fin 4)
  | halt
  | reserved (op : BitVec 4)
  deriving DecidableEq, Repr

/-- Words of the instruction whose first word is `w` (R149). -/
def furLen (w : Word) : Nat :=
  match w.toNat / 2 ^ 20 with
  | 1 => 2
  | 2 => 1 + (if w.toNat / 2 ^ 16 % 16 = 0 then 16 else w.toNat / 2 ^ 16 % 16)
  | 3 => 3
  | 4 => 2
  | 6 => 2
  | _ => 1

/-- The instruction that the words begin with, by bits 23:20 of the first (R149). -/
def decodeFurrow (ws : List Word) : Option FurIns :=
  let w := ws.headD 0
  if ws.length < furLen w then none
  else
    let x := ws.getD 1 0
    some (match w.toNat / 2 ^ 20 with
      | 0 => .fin (w.setWidth 20)
      | 1 => .wr (w.setWidth 16) x
      | 2 => .wrn (w.setWidth 16) ((ws.drop 1).take (furLen w - 1))
      | 3 => .wrf (w.setWidth 16) x (ws.getD 2 0)
      | 4 => .add (w.setWidth 16) x
      | 5 => .jmp (w.setWidth 20)
      | 6 => .loop (w.setWidth 12) (x.setWidth 20)
      | 7 => .pub (w.setWidth 6)
      | 8 => .waitl (w.setWidth 13)
      | 9 => .skipev (Fin.ofNat 4 w.toNat)
      | 15 => .halt
      | n => .reserved (BitVec.ofNat 4 n))

/-- The window takes its 256 words, one read for each 12-word line; `r` is what the first read answers. A read that meets an error
response yields words 0 and counts with cause 8, at the first word it would have read (R153). -/
def State.furLoad (s : State) (b : Nat) (r : BusResp) : State :=
  let f := s.fur b
  let base := 16 * (s.reg (Reg.HRW_FW_ACTBASE b)).toNat
  let p := s.ownerRes 1 b
  let (ws, t) := (List.range 23).foldl (fun (acc : List Word × State) k =>
    let (ws, s) := acc
    let first := base + f.win
    let lo := Nat.max first (12 * (first / 12 + k))
    let hi := Nat.min (first + 256) (12 * (first / 12 + k) + 12)
    let as := (List.range (hi - lo)).map (lo + ·)
    if as = [] then acc
    else
      let t := s.noteFetches (17 + b) p [lo]
      if (k = 0 ∧ r ≠ .ok) ∨ as.any (s.fetchBad p) then (ws ++ as.map (fun _ => 0), t.furErr b 8 (lo - base))
      else (ws ++ as.map (s.fetchZ p), t)) ([], s)
  t.updFur b (fun f => { f with held := ws })

/-- The window moves to begin at word `p` unless it holds that word, and its words are fetched ahead (R153). -/
def State.furWindow (s : State) (b p : Nat) : State :=
  if !(s.fur b).held.isEmpty && inWindow (s.fur b).win p then s
  else (s.updFur b (fun f => { f with win := p })).furLoad b .ok

/-- Where execution has come to a word outside the window, at the head of an instruction or inside one, the window moves there and the
engine waits for its read (R153). -/
def State.furGo (s : State) (b : Nat) : State :=
  let f := s.fur b
  if f.run.isNone then s
  else if f.held.isEmpty || !inWindow f.win f.pos then
    s.updFur b (fun f => { f with win := f.pos, held := [], part := [], fetching := true })
  else
    let ws := f.held.drop (f.pos - f.win)
    if ws.length < furLen (ws.headD 0) then
      s.updFur b (fun f => { f with win := f.win + 256, held := [], part := ws, fetching := true })
    else s

/-- The instruction at the engine's word. -/
def State.furIns (s : State) (b : Nat) : Option FurIns :=
  let f := s.fur b
  decodeFurrow (f.part ++ f.held.drop (f.pos + f.part.length - f.win))

/-! ## Sections -/

/-- The section for line `m` starts at the engine's word; a window elsewhere moves there ahead of it (R153). One whose
deadline has passed counts as late (R154). -/
def State.furBegin (s : State) (b m : Nat) : State :=
  let late := (s.fur b).late.contains m
  let s := s.furWindow b (s.fur b).pos
  let s := (s.updFur b (fun f => { f with run := some m, words := 0, writes := 0, skip := 0, fetching := false, part := [],
                                          late := f.late.filter (· != m) })).furGo b
  if late then s.furLate b else s

/-- The first of the waiting lines that has a section starts it (R141, R149): END and WAITL name the first line that may
have one. -/
def State.furPickFrom (s : State) (b : Nat) : List Nat → State
  | [] => s.updFur b (fun f => { f with todo := [] })
  | m :: ms =>
    if m < (s.fur b).waitl.getD 0 then s.furPickFrom b ms
    else (s.updFur b (fun f => { f with todo := ms })).furBegin b m

/-- Where no section runs and the program has not halted, the next one starts. -/
def State.furPick (s : State) (b : Nat) : State :=
  if (s.fur b).run.isSome ∨ s.bitAt (Reg.HRW_FW_STAT b) 22 then s else s.furPickFrom b (s.fur b).todo

/-- The lines `ms` are the coming lines of a Headland (R141). -/
def State.furComing (s : State) (b : Nat) (ms : List Nat) : State :=
  if !s.bitAt (Reg.HRW_FW_STAT b) 23 || s.bitAt (Reg.HRW_FW_STAT b) 22 then s
  else (s.updFur b (fun f => { f with todo := f.todo ++ ms })).furPick b

/-- The deadline of the section for line `m` passes (R154). -/
def State.furDeadline (s : State) (b m : Nat) : State :=
  if (s.fur b).run = some m then s.furLate b
  else if (s.fur b).todo.contains m then s.updFur b (fun f => { f with late := f.late ++ [m] })
  else s

/-- Has the section for line `m` ended, or is there none (R142)? -/
def State.furEnded (s : State) (b m : Nat) : Bool := (s.fur b).run != some m && !(s.fur b).todo.contains m

/-- STAT.LINE takes the line of the section that has run. -/
def State.furShowLine (s : State) (b : Nat) : State :=
  match (s.fur b).run with
  | some m => s.setFld (Reg.HRW_FW_STAT b) Fd.HRW_FW_STAT_LINE m
  | none => s

/-- The running section is cut, as are those that wait (R157). -/
def State.furCut (s : State) (b : Nat) : State :=
  (s.furShowLine b).updFur b (fun f => { f with run := none, todo := [], fetching := false, late := [] })

/-- HALT (R149). -/
def State.furHaltNow (s : State) (b : Nat) : State := (s.furShowLine b).furHalt b

/-- The section ends, and no section runs before line `next` (R149). -/
def State.furEnd (s : State) (b next : Nat) : State :=
  ((s.furShowLine b).updFur b (fun f => { f with run := none, waitl := some next })).furPick b

/-- A limit is reached: its cause, CAP, and HALT (R152). -/
def State.furLimit (s : State) (b cause ofs : Nat) : State :=
  ((s.furErr b cause ofs).setBit (Reg.HRW_FW_EVT b) 1).furHaltNow b

/-! ## Instructions -/

/-- `n` program words have been executed or skipped (R152). -/
def State.furAdvance (s : State) (b n : Nat) : State :=
  (s.updFur b (fun f => { f with words := f.words + n, pos := (f.pos + n) % 2 ^ 20, part := [] })).perf (18 + b) 5 n

/-- Does the engine of beam `b` execute: a section runs, no fetch is awaited, the beam is on and not frozen (R153, R463)? -/
def State.furReady (s : State) (b : Nat) : Bool :=
  (s.fur b).run.isSome && !(s.fur b).fetching && s.dom (domOfBeam b) && !s.frozen (3 + b)

/-- The instruction `i`, of which `n` words are taken at once, does `act` given its own word offset where it is the one that the program
holds at the engine's word; after a SKIPEV that took effect it is passed over whole. A word beyond 256 is not executed (R149, R151,
R152). -/
def State.furOp (s : State) (b : Nat) (i : FurIns) (n : Nat) (act : Nat → State → State) : State :=
  if !s.furReady b || s.furIns b != some i then s
  else
    let f := s.fur b
    if 256 < f.words + n then (s.furAdvance b (256 - f.words)).furLimit b 6 f.pos
    else
      let t := s.furAdvance b n
      if f.skip ≠ 0 then (t.updFur b (fun f => { f with skip := 0 })).furGo b else (act f.pos t).furGo b

/-- May a Furrow program write the offset (R147)? -/
def furWritable (o : Nat) : Bool :=
  o == 0x20 || decide (0x30 ≤ o ∧ o < 0x40) || o == 0x81 || o == 0x82 ||
  (decide (0x100 ≤ o ∧ o < 0x180) && decide (1 ≤ o % 16 ∧ o % 16 ≤ 9)) ||
  (decide (0x180 ≤ o ∧ o < 0x1C0) && (o % 32 == 9 || o % 32 == 13 || o % 32 == 15)) ||
  decide (0x1000 ≤ o ∧ o < 0x2000)

/-- One write of an instruction at word `at0` is executed: counted, checked for offset and owner, queued for the line of the
section (R143, R148, R152). -/
def State.furWrite (s : State) (b at0 ofs : Nat) (op : FurOp) : State :=
  match (s.fur b).run with
  | none => s
  | some m =>
    if 64 ≤ (s.fur b).writes then s.furLimit b 5 at0
    else
      let s := s.updFur b (fun f => { f with writes := f.writes + 1 })
      if !furWritable ofs then s.furErr b 2 at0
      else if !(s.ownerBM b ofs).allows (s.ownerRes 1 b) true then s.furErr b 3 at0
      else s.updFur b (fun f => { f with queue := f.queue ++ [⟨m, ofs, op, at0⟩] })

def execFurrowWr (b : BeamIx) (ofs : BitVec 16) (v : Word) (s : State) : Out :=
  .next (s.furOp b.val (.wr ofs v) 2 (fun p s => s.furWrite b.val p ofs.toNat (.set v)))

def execFurrowWrf (b : BeamIx) (ofs : BitVec 16) (mask v : Word) (s : State) : Out :=
  .next (s.furOp b.val (.wrf ofs mask v) 3 (fun p s => s.furWrite b.val p ofs.toNat (.mask mask v)))

def execFurrowAdd (b : BeamIx) (ofs : BitVec 16) (delta : Word) (s : State) : Out :=
  .next (s.furOp b.val (.add ofs delta) 2 (fun p s => s.furWrite b.val p ofs.toNat (.add delta)))

/-- The writes of a WRN, one word after the other, until a limit ends the section (R149, R152). -/
def State.furMany (s : State) (b at0 : Nat) : Nat → List Word → State
  | _, [] => s
  | o, v :: vs =>
    if (s.fur b).run.isNone then s
    else if 256 ≤ (s.fur b).words then s.furLimit b 6 at0
    else ((s.furAdvance b 1).furWrite b at0 (o % 65536) (.set v)).furMany b at0 (o + 1) vs

/-- WRN of 1 to 16 values (R149); a skipped one is passed over whole. -/
def execFurrowWrn (b : BeamIx) (ofs : BitVec 16) (vs : List Word) (s : State) : Out :=
  if vs.length = 0 ∨ 16 < vs.length then .refused .illFormed
  else if (s.fur b.val).skip ≠ 0 then .next (s.furOp b.val (.wrn ofs vs) (1 + vs.length) (fun _ s => s))
  else .next (s.furOp b.val (.wrn ofs vs) 1 (fun p s => s.furMany b.val p ofs.toNat vs))

def execFurrowEnd (b : BeamIx) (skip : BitVec 20) (s : State) : Out :=
  .next (s.furOp b.val (.fin skip) 1 (fun _ s => s.furEnd b.val (((s.fur b.val).run.getD 0) + 1 + skip.toNat)))

/-- WAITL: a LINE of the section's line or less acts as END 0 (R149). -/
def execFurrowWaitl (b : BeamIx) (line : BitVec 13) (s : State) : Out :=
  .next (s.furOp b.val (.waitl line) 1 (fun _ s => s.furEnd b.val (Nat.max line.toNat (((s.fur b.val).run.getD 0) + 1))))

def execFurrowHalt (b : BeamIx) (s : State) : Out := .next (s.furOp b.val .halt 1 (fun _ s => s.furHaltNow b.val))

/-- A reserved opcode acts as HALT and counts with cause 1 (R149). -/
def execFurrowReservedOpcode (b : BeamIx) (op : BitVec 4) (s : State) : Out :=
  .next (s.furOp b.val (.reserved op) 1 (fun p s => (s.furErr b.val 1 p).furHaltNow b.val))

/-- Continue at program word `t`. -/
def State.furJump (s : State) (b t : Nat) : State := s.updFur b (fun f => { f with pos := t })

def execFurrowJmp (b : BeamIx) (target : BitVec 20) (s : State) : Out :=
  .next (s.furOp b.val (.jmp target) 1 (fun _ s => s.furJump b.val target.toNat))

/-- LOOP (R150): one counter, known by the address of the LOOP that loaded it. -/
def State.furLoop (s : State) (b at0 count target : Nat) : State :=
  let step (n : Nat) (s : State) : State :=
    if n = 0 then s.setLoop b none else (s.setLoop b (some (at0, n - 1))).furJump b target
  match (s.fur b).loop with
  | none => step count s
  | some (a, n) => if a = at0 then step n s else (s.furErr b 7 at0).setLoop b none

def execFurrowLoop (b : BeamIx) (count : BitVec 12) (target : BitVec 20) (s : State) : Out :=
  .next (s.furOp b.val (.loop count target) 2 (fun p s => s.furLoop b.val p count.toNat target.toNat))

def execFurrowPub (b : BeamIx) (tine : Tine) (s : State) : Out :=
  .next (s.furOp b.val (.pub tine) 1 (fun _ s => s.publish tine.toNat))

/-- SKIPEV (R151). -/
def execFurrowSkipev (b : BeamIx) (k : Fin 4) (s : State) : Out :=
  .next (s.furOp b.val (.skipev k) 1 (fun _ s =>
    let a := Reg.HRW_FW_SUB b.val k.val
    if s.bitAt a 23 then (s.clrBit a 23).updFur b.val (fun f => { f with skip := 1 }) else s))

/-- A read outside the window returns and the instruction goes on, with the rest of the window behind it; where it was an error response
the words read as 0, END 0, and it counts with cause 8 (R153). -/
def execFurrowFetchResponse (b : BeamIx) (r : BusResp) (s : State) : Out :=
  let b := b.val
  let f := s.fur b
  .next (if !f.fetching || f.run.isNone then s
    else (s.furLoad b r).updFur b (fun f => { f with fetching := false }))

/-- An event on tine `t` reaches the event latches (R151). -/
def State.furTineEvent (s : State) (t : Nat) : State :=
  forN 2 (fun b s => if !s.dom (domOfBeam b) then s else forN 4 (fun k s =>
    let a := Reg.HRW_FW_SUB b k
    if s.bitAt a 7 && s.fld a Fd.HRW_FW_SUB_TINE == t then (if s.bitAt a 23 then s.setBit a 22 else s.setBit a 23) else s) s) s

/-! ## Queued writes -/

/-- Is the layer that offset `o` of a beam's window belongs to in the static group (R130, R155)? The scaler of a bitmap
layer of the group counts with it. -/
def State.groupField (s : State) (b o : Nat) : Bool :=
  if o = 0x20 ∨ o = 0x21 ∨ o = 0x25 ∨ o = 0x26 ∨ o = 0x80 ∨ o = 0x81 ∨ o = 0x82 then decide (s.flatState b ≠ 0)
  else if 0x30 ≤ o ∧ o < 0x40 then s.inGroup b (o % 8)
  else if 0x100 ≤ o ∧ o < 0x180 ∧ o % 16 ≤ 9 then s.inGroup b ((o - 0x100) / 16)
  else if 0x180 ≤ o ∧ o < 0x1C0 then
    (List.range 8).any (fun l => s.inGroup b l && s.lyKind b l == 3 && s.lyScl b l == (o - 0x180) / 32)
  else false

/-- The group leaves FLAT for DIRTY at a frame Headland (R129). -/
def State.flatDirty (s : State) (b : Nat) : State :=
  (s.setFld (Reg.BM_FLATSTAT b) Fd.BM_FLATSTAT_STATE 1).setBit (Reg.BM_CEVT b) 2

/-- A Furrow write for line `m` has changed a field of the group: as a latch at the Headland in which its section ran (R155). For lines 0
to 2 that was the frame Headland before this frame: a group in FLAT is DIRTY in this frame, whose image is not whole where lines were
composed before the write showed it. For a later line the invalidation counts at the next frame Headland. -/
def State.furTouch (s : State) (b m : Nat) : State :=
  if 2 < m then s.updFlat b (fun f => { f with inval := true })
  else if s.flatState b ≠ 2 then s
  else
    let first := (s.beam b).comp.next == 0
    (s.flatDirty b).updFlat b (fun f => { f with clean := f.clean && first })

/-- The bits of the register at `a` that exist. -/
def regMask (a : Nat) : Word :=
  match regSpec a with
  | some q => q.fields.foldl (fun m f => m ||| maskF (fieldPlace f)) 0
  | none => 0

/-- What a queued write makes of the old value (R149). -/
def FurOp.value (op : FurOp) (old : Word) : Word :=
  match op with
  | .set v => v
  | .mask m v => (old &&& ~~~ m) ||| (v &&& m)
  | .add d => old + d

/-- Is a value of HSTEP out of its range (R147)? -/
def hstepBad (o : Nat) (v : Word) : Bool :=
  decide (0x180 ≤ o) && decide (o < 0x1C0) && o % 32 == 13 && decide (v.toNat < 0x1000 ∨ 0x40000 < v.toNat)

/-- The compositor applies a queued write (R143 to R149). -/
def State.furApply (s : State) (b : Nat) (w : FurWrite) : State :=
  let a := 0x8070000 + 0x10000 * b + w.ofs
  if 0x1000 ≤ w.ofs then s.writePal b (w.ofs - 0x1000) (w.op.value (s.reg a))
  else
    let live := decide (0x100 ≤ w.ofs ∧ w.ofs < 0x180 ∧ w.ofs % 16 = 9)
    let old := if live then s.useLive a else s.useEff a
    let mask := if 0x30 ≤ w.ofs ∧ w.ofs < 0x38 then wd 0x3F1 else regMask a
    let v := (old &&& ~~~ mask) ||| (w.op.value old &&& mask)
    if hstepBad w.ofs v then s.furErr b 4 w.word
    else
      let t := s.setWork a v
      if v ≠ old && s.groupField b w.ofs then t.furTouch b w.line else t

/-- The writes queued for lines up to `m` are applied in order (R143). -/
def State.furApplyTo (s : State) (b m : Nat) : State :=
  let q := (s.fur b).queue
  let s := s.updFur b (fun f => { f with queue := q.filter (fun w => m < w.line) })
  (q.filter (fun w => w.line ≤ m)).foldl (fun s w => s.furApply b w) s

end Sys2Proof.Machine
end

