-- ==== Sys2Proof/Machine/BeamLatch.lean ====
section
/-! DEFINITION. What latches at a frame Headland: targeted latching (R86), the layer set (R111), the scaler sets (R122), the
other frame-latched fields, the watched regions (R133), the static group (R128 to R130), the output copy (R132), the
Furrow pointer (R156). -/
namespace Sys2Proof.Machine

/-- The address of offset `o` of beam `b`'s window. -/
def bmAt (b o : Nat) : Nat := 0x8070000 + 0x10000 * b + o

/-- The nine registers of the layer set (R111). -/
def layerOffs : List Nat := (List.range 8).map (fun l => 0x30 + l) ++ [0x21]

/-- The registers of scaler `k`'s set (R122). -/
def scalerOffs (k : Nat) : List Nat := (List.range 18).map (fun j => 0x180 + 0x20 * k + j)

/-- The frame-latched registers outside the layer set, the scaler sets and the watched regions. -/
def singleOffs : List Nat :=
  [0x20, 0x25, 0x26, 0x28, 0x29, 0x2A, 0x80, 0x81, 0x82, 0x90, 0x91, 0x95] ++ (List.range 8).map (fun l => 0x38 + l) ++
  (List.range 8).flatMap (fun l => (List.range 9).map (fun k => 0x100 + 0x10 * l + k))

/-- All frame-latched registers but the regions'. -/
def frameOffs : List Nat := singleOffs ++ layerOffs ++ scalerOffs 0 ++ scalerOffs 1

/-- May ARM hold the field: does it belong to the plot of the beam, and was it not staged by a staged message (R86)? -/
def State.heldByArm (s : State) (b o : Nat) : Bool :=
  decide (s.ownerBM b o = .plot (s.ownerRes 1 b)) && !(s.beam b).byMessage.contains o

/-- The value that the field has once the latch is over, if it is not rejected. -/
def State.latchVal (s : State) (b : Nat) (held : List Nat) (o : Nat) : Word :=
  if held.contains o then s.inEff (bmAt b o) else s.reg (bmAt b o)

/-- The fields latch, but for those held. -/
def State.latchOffs (s : State) (b : Nat) (held offs : List Nat) : State :=
  offs.foldl (fun s o => if held.contains o then s else s.latch (bmAt b o)) s

/-- The staged values of a rejected set are discarded (R111, R122). -/
def State.discardOffs (s : State) (b : Nat) (held offs : List Nat) : State :=
  let s := offs.foldl (fun s o => if held.contains o then s else s.setReg (bmAt b o) (s.inEff (bmAt b o))) s
  (s.bmErr b).setBit (Reg.BM_CEVT b) 9

/-- Is anything of the set staged anew? A staged value equal to the one in effect is nothing new, so after a rejection, which discards
the staged values, a rewrite of the value in effect starts no check and leaves SETOK as it is: the spec is silent on it, DESIGN CHOICE
(log entry 127). -/
def State.stagedAnew (s : State) (b : Nat) (held offs : List Nat) : Bool :=
  offs.any (fun o => s.latchVal b held o != s.inEff (bmAt b o))

/-! ## Layer set and scaler sets -/

/-- Is the layer set valid (R110, R111): KIND 0 to 4, at most one sprite layer, at most two scaled layers on distinct scalers,
positions a permutation? -/
def layerSetOk (ctrl : List Word) (stack : Word) : Bool :=
  let kind (w : Word) : Nat := getF w Fd.BM_LY_CTRL_KIND
  let scaled := ctrl.filter (fun w => kind w == 2 || kind w == 3)
  ctrl.all (fun w => decide (kind w ≤ 4)) && decide (ctrl.countP (fun w => kind w == 1) ≤ 1) &&
  decide (scaled.length ≤ 2) && decide (scaled.countP (fun w => getF w Fd.BM_LY_CTRL_SCL == 0) ≤ 1) &&
  decide (scaled.countP (fun w => getF w Fd.BM_LY_CTRL_SCL == 1) ≤ 1) &&
  (List.range 8).all (fun q => (List.range 8).any (fun l => stack.toNat / 2 ^ (3 * l) % 8 == q))

/-- The layer set latches if it is valid (R111). -/
def State.latchLayers (s : State) (b : Nat) (held : List Nat) : State :=
  if !s.stagedAnew b held layerOffs then s
  else if layerSetOk ((List.range 8).map (fun l => s.latchVal b held (0x30 + l))) (s.latchVal b held 0x21) then
    s.latchOffs b held layerOffs
  else s.discardOffs b held layerOffs

/-- Is a scaler set valid (R118, R122)? `ws` holds the registers FMT to KEY, `w` is the canvas width. -/
def scalerSetOk (w : Nat) (ws : List Word) : Bool :=
  let n (j : Nat) : Nat := (ws.getD j 0).toNat
  let f := ws.getD 0 0
  decide (0x1000 ≤ n 13 ∧ n 13 ≤ 0x40000 ∧ 0x1000 ≤ n 14 ∧ n 14 ≤ 0x40000) &&
  decide (1 ≤ n 7 ∧ n 5 + n 7 ≤ 8192 ∧ 1 ≤ n 8 ∧ n 6 + n 8 ≤ 8191) &&
  decide (1 ≤ n 11 ∧ n 11 ≤ w ∧ 1 ≤ n 12) &&
  decide (getF f Fd.BM_SC_FMT_CHROMA ≤ 2 ∧ getF f Fd.BM_SC_FMT_MATRIX ≤ 2) &&
  (!bit f 11 || decide (n 13 = 0x10000 ∧ n 14 = 0x10000 ∧ n 15 = 0 ∧ n 16 = 0))

/-- Scaler `k`'s set latches if it is valid (R122). -/
def State.latchScaler (s : State) (b : Nat) (held : List Nat) (k : Nat) : State :=
  let offs := scalerOffs k
  let a := Reg.BM_SC_STAT b k
  if !s.stagedAnew b held offs then s
  else if scalerSetOk (s.canvasW b) (offs.map (fun o => s.latchVal b held o)) then
    let s := s.latchOffs b held offs
    let s := (s.setBit a 0).putBit a 1 (bit (s.inEff (Reg.BM_SC_FMT b k)) 12)
    s.updBeam b (fun x => { x with scalersSet := if x.scalersSet.contains k then x.scalersSet else x.scalersSet ++ [k] })
  else (s.discardOffs b held offs).clrBit a 0

/-! ## Watched regions -/

/-- A number of frame periods of the timing set in effect, in ticks, rounded up. -/
def State.periodTicks (s : State) (b k : Nat) : Nat :=
  let (n, d) := periodOf (s.timingSet b)
  (k * n + d - 1) / d

/-- Watched region `n` latches (R133): a change of MODE or of the rectangle ends the validity of its signature (R138); MODE 2
starts the wait of R136, and MODE 3 acts as MODE 2. -/
def State.latchRegion (s : State) (b n : Nat) : State :=
  let a := Reg.BM_WR_CTRL b n
  let old := s.effFld a Fd.BM_WR_CTRL_MODE
  let new := s.fld a Fd.BM_WR_CTRL_MODE
  let moved := old != new || (List.range 4).any (fun j => s.reg (a + 1 + j) != s.inEff (a + 1 + j))
  let at' := s.timebase.toNat + s.periodTicks b 2
  let s := forN 9 (fun j s => s.latch (a + j)) s
  s.updRegion b n (fun r =>
    { r with fresh := r.fresh && !moved, noframeAt := if new < 2 then none else if old < 2 then some at' else r.noframeAt })

/-! ## Targeted latch -/

/-- The index of the frame that follows the present Headland (R85, R86). -/
def State.nextIndex (s : State) (b : Nat) : Nat :=
  if s.extLock b then ((s.reg (Reg.BM_FCNT b)).toNat + 1) % 2 ^ 24
  else match (s.beam b).gen.chosen with
    | some (_, k) => k
    | none => (s.beam b).gen.index + 1

/-- The targeted latch takes place (R86). -/
def State.targetDone (s : State) (b : Nat) (late : Bool) : State :=
  let s := ((s.clrBit (Reg.BM_TGT b) 23).setBit (Reg.BM_TGTSTAT b) 22).setBit (Reg.BM_CEVT b) 11
  if late then (s.bump (Reg.BM_TGTSTAT b)).setBit (Reg.BM_CEVT b) 12 else s

/-- What ARM holds at this Headland, with the effect of a target reached or passed (R86). -/
def State.armHolds (s : State) (b : Nat) : List Nat × State :=
  if !s.bitAt (Reg.BM_TGT b) 23 then ([], s)
  else
    let d := subMod (s.fld (Reg.BM_TGT b) Fd.BM_TGT_FRAME) (s.nextIndex b) 65536
    if d = 0 then ([], s.targetDone b false)
    else if 32768 ≤ d then ([], s.targetDone b true)
    else (frameOffs.filter (s.heldByArm b), s)

/-- The latch of R63 step 1 at a frame Headland. -/
def State.latchFrame (s : State) (b : Nat) : State :=
  let (held, s) := s.armHolds b
  let s := s.latchOffs b held singleOffs
  let s := s.latchLayers b held
  let s := (s.latchScaler b held 0).latchScaler b held 1
  let s := s.putBit (Reg.BM_SPBANK b) 1 (bit (s.inEff (Reg.BM_SPBANK b)) 0)
  forN 16 (fun n s => s.latchRegion b n) s

/-! ## Static group -/

/-- The group and the ignored layers that the fields in effect give (R128). -/
def State.formGroup (s : State) (b : Nat) : List Nat × List Nat :=
  let r := (List.range 8).foldl (fun (acc : List Nat × List Nat × Bool) q =>
    let (grp, ign, opened) := acc
    match s.layerAt b q with
    | none => acc
    | some l =>
      let c := s.inEff (Reg.BM_LY_CTRL b l)
      let k := getF c Fd.BM_LY_CTRL_KIND
      if !bit c 0 || s.plotFenced (s.lyPlot b l) then acc
      else if opened && bit c 11 && (k == 4 || k == 3 || (k == 0 && !bit (s.inEff (Reg.BM_TL_CFG b l)) 12)) then
        (grp ++ [l], ign, true)
      else (grp, if bit c 11 then ign ++ [l] else ign, false)) ([], [], true)
  (r.1, r.2.1)

/-- Does each range recorded in the frame lie within the range watched for the same layer and source (R129)? -/
def withinWatched (f : FlatSt) : Bool :=
  f.recorded.all (fun e => match e.2, Tab.get none f.watched e.1 with
    | none, _ => true
    | some _, none => false
    | some (lo, hi), some (wl, wh) => decide (wl ≤ lo ∧ hi ≤ wh))

/-- Set FLATSTAT.STATE, and RANGES to the number of watched ranges. -/
def State.setFlat (s : State) (b st : Nat) (watched : Tab (Option (Nat × Nat))) : State :=
  let s := s.updFlat b (fun f => { f with watched := watched })
  (s.setFld (Reg.BM_FLATSTAT b) Fd.BM_FLATSTAT_STATE st).setFld (Reg.BM_FLATSTAT b) Fd.BM_FLATSTAT_RANGES watched.length

/-- The group is formed and its state moves (R128, R129). `changed` are the offsets whose value in effect, or working value,
this Headland has changed. -/
def State.flatHeadland (s : State) (b : Nat) (changed : List Nat) : State :=
  let f := (s.beam b).flat
  let st := s.flatState b
  let touched := changed.any (s.groupField b)
  let old := (List.range 8).filter (s.inGroup b)
  let (grp, ign) := s.formGroup b
  let touched := touched || (!old.isEmpty && old != grp.mergeSort)
  let s := if ign.any (fun l => !f.ignored.contains l) then s.setBit (Reg.BM_CEVT b) 3 else s
  let s := s.setFld (Reg.BM_FLATSTAT b) Fd.BM_FLATSTAT_GROUP (grp.foldl (fun n l => n + 2 ^ l) 0)
  let s := s.updFlat b (fun f => { f with recorded := [], clean := true, inval := false, broken := false, ignored := ign })
  if grp.isEmpty then (if st = 2 then s.setBit (Reg.BM_CEVT b) 2 else s).setFlat b 0 []
  else if st = 0 then s.setFlat b 1 []
  else if st = 1 then
    if f.clean && !f.inval && !touched && withinWatched f then (s.setFlat b 2 f.recorded).setBit (Reg.BM_CEVT b) 1
    else s.setFlat b 1 f.recorded
  else if touched || f.inval then s.flatDirty b
  else s

/-! ## Output copy -/

/-- The output copy of the frame that starts (R132): not while the beam's plot is fenced (R342), and in MODE 2 not after the one frame
whose last word is on its way. -/
def State.copyHeadland (s : State) (b : Nat) : State :=
  let c := s.inEff (Reg.BM_CAPCTRL b)
  let o := (s.beam b).out
  let mode := getF c Fd.BM_CAPCTRL_MODE
  let on := bit c 0 && !s.plotFenced (s.ownerRes 1 b)
  let last := mode == 2
  let waits := (o.capEnd.map (·.2.2)).getD false
  let take := on && (if mode = 1 then o.capSkip == 0 else if last then !waits else true)
  let skip := if !on ∨ mode ≠ 1 then 0 else if o.capSkip = 0 then getF c Fd.BM_CAPCTRL_N else o.capSkip - 1
  let s := s.updOut b (fun o => { o with capOn := take, capOnce := take && last, capSkip := skip, capOvr := false })
  s.putBit (Reg.BM_CAPSTAT b) 23 (take || o.capEnd.isSome)

/-! ## Furrow -/

/-- The working values of beam `b` are its software values again (R144). -/
def State.resetWork (s : State) (b : Nat) : State :=
  { s with work := s.work.keep (fun a => a < bmAt b 0 || bmAt b 0xFFFF < a) }

/-- The offsets whose value in use differs between two states, the live TLn_KEY among them by its working value (R130, R155). -/
def changedOffs (b : Nat) (s t : State) : List Nat :=
  frameOffs.filter (fun o => s.inEff (bmAt b o) != t.inEff (bmAt b o) || s.useEff (bmAt b o) != t.useEff (bmAt b o)) ++
  ((List.range 8).map (fun l => 0x109 + 0x10 * l)).filter (fun o => s.useLive (bmAt b o) != t.useLive (bmAt b o))

/-- The Furrow pointer latches, unless the beam is frozen (R156, R463). -/
def State.latchFurrow (s : State) (b : Nat) : State :=
  if s.frozen (3 + b) then s
  else ((s.latch (Reg.HRW_FW_CTRL b)).latch (Reg.HRW_FW_BASE b)).clrBit (Reg.HRW_FW_STAT b) 21

/-- The steps of R156 after the working values' reset: ACTBASE, HALT and the loop counter, the sections for lines 0, 1, 2,
the first from word 0. -/
def State.furHeadland (s : State) (b : Nat) : State :=
  let base := s.inEff (Reg.HRW_FW_BASE b)
  let s := if base ≠ s.reg (Reg.HRW_FW_ACTBASE b) then
    (s.setBit (Reg.HRW_FW_EVT b) 3).updFur b (fun f => { f with held := [] }) else s
  let s := (s.setReg (Reg.HRW_FW_ACTBASE b) base).setLoop b none
  let a := Reg.HRW_FW_STAT b
  let s := (s.putBit a 22 (s.plotFenced (s.ownerRes 1 b))).putBit a 23 (bit (s.inEff (Reg.HRW_FW_CTRL b)) 0)
  let s := s.updFur b (fun f => { f with pos := 0, waitl := none, part := [] })
  let s := if s.bitAt a 23 && !s.bitAt a 22 then s.furWindow b 0 else s
  s.furComing b [0, 1, 2]

end Sys2Proof.Machine
end

