-- ==== Sys2Proof/Machine/BeamLine.lean ====
section
/-! DEFINITION. The beams at work: Headlands and frame starts (R63, R69, R71, R72, R85), composition line by line and segment by
segment (R105 to R108, R112, R126, R142, R143), the pixels sent with their copies and signatures (R74, R75, R131 to R138). -/
namespace Sys2Proof.Machine

/-- The active columns and rows in effect. -/
def State.hact (s : State) (b : Nat) : Nat := (s.inEff (Reg.BM_HACT b)).toNat
def State.vact (s : State) (b : Nat) : Nat := (s.inEff (Reg.BM_VACT b)).toNat

/-- The plot that owns beam `b`. -/
def State.beamPlot (s : State) (b : Nat) : Nat := s.ownerRes 1 b

/-- Inside a Headland, inside the frame Headland, the present line (BMx_TPOS). -/
def State.inHL (s : State) (b : Nat) : Bool := s.bitAt (Reg.BM_TPOS b) 23
def State.inFH (s : State) (b : Nat) : Bool := s.bitAt (Reg.BM_TPOS b) 22
def State.lineNow (s : State) (b : Nat) : Nat := s.fld (Reg.BM_TPOS b) Fd.BM_TPOS_LINE

/-- Set BMx_TPOS. -/
def State.setTpos (s : State) (b : Nat) (hl fh : Bool) (line : Nat) : State :=
  s.setReg (Reg.BM_TPOS b) (wd (b2n hl * 2 ^ 23 + b2n fh * 2 ^ 22 + line % 8192))

/-! ## Events (R69) -/

/-- Does the generator publish: LOCKED, in HOLD, or in the Headland before a first frame? -/
def State.pubOn (s : State) (b : Nat) : Bool :=
  s.genState b == 2 || s.genState b == 3 || (s.beam b).gen.acq == .headland

/-- Publish an event whose enable and tine are the A or the B half of `a`. -/
def State.bmEvent (s : State) (b a : Nat) (upper : Bool) : State :=
  if !s.pubOn b then s
  else if upper then s.publishIf (s.bitAt a 15) (s.fld a Fd.BM_TINE0_TINE_A)
  else s.publishIf (s.bitAt a 7) (s.fld a Fd.BM_TINE0_TINE_B)

/-- The events of the line Headland of line `n`: LINE, and WM where it is the watermark line. -/
def State.lineEvents (s : State) (b n : Nat) : State :=
  let s := s.bmEvent b (Reg.BM_TINE0 b) true
  if s.pubOn b && s.fld (Reg.BM_WMLINE b) Fd.BM_WMLINE_LINE == n then (s.bmEvent b (Reg.BM_TINE1 b) false).hrwWm b else s

/-! ## The pixels of a line -/

/-- The pixels of line `n` that the compositor has put into the store. -/
def State.composedOf (s : State) (b n : Nat) : List (Option Word) :=
  let c := (s.beam b).comp
  match c.store.find? (fun e => e.1 == n) with
  | some e => e.2
  | none => if c.line = some n then c.pixels else []

/-- The colour that a substituted pixel at column `h` of the line being sent has (R74). -/
def State.underColour (s : State) (b h : Nat) : Word :=
  match (s.beam b).out.under.find? (fun e => h < e.1) with
  | some e => e.2
  | none => s.reg (Reg.BM_UNDER b)

/-- The pixels that leave as line `n` (R74): substituted where they were not in the store when they were taken. -/
def State.sentPixels (s : State) (b n : Nat) : List Word :=
  let ps := (s.composedOf b n).take (s.hact b)
  ps.zipIdx.map (fun x => x.1.getD (s.underColour b x.2)) ++ ((List.range (s.hact b)).drop ps.length).map (s.underColour b)

/-- The pixels of a blank line have left (R71, R74). -/
def State.blankOut (s : State) (b : Nat) : State :=
  if !(s.beam b).out.blank then s
  else
    let ps := (List.range (s.hact b)).map (s.underColour b)
    s.updOut b (fun o => { o with blank := false, under := [], sent := ps })

/-- Line `n` had `k` underrun pixels (R75); its frame is no clean capture frame (R129). -/
def State.underrun (s : State) (b n k : Nat) : State :=
  if k = 0 then s
  else
    let sat := s.lastCount (Reg.BM_UNDCNT b)
    let s := (s.bump (Reg.BM_UNDCNT b)).setReg (Reg.BM_UNDLINE b) (wd n)
    let s := (s.setBit (Reg.BM_TEVT b) 3).perf (18 + b) 1 k
    let s := if sat then s.setBit (Reg.BM_TEVT b) 7 else s
    s.updFlat b (fun f => { f with clean := false })

/-- A signature expected: 32 bits in the pair of registers at `a`. -/
def State.expected (s : State) (a : Nat) : Nat := (s.inEff a).toNat % 256 * 2 ^ 24 + (s.inEff (a + 1)).toNat

/-- Region `n` takes the pixels of row `v` (R133, R134); with its last row it ends. -/
def State.regionRow (s : State) (b n v : Nat) (ps : List Word) : State :=
  let e (o : Nat) : Nat := (s.inEff (Reg.BM_WR_CTRL b n + o)).toNat
  let mode := s.effFld (Reg.BM_WR_CTRL b n) Fd.BM_WR_CTRL_MODE
  let row := (ps.drop (e 1)).take (e 3)
  if mode = 0 ∨ v < e 2 ∨ e 2 + e 4 ≤ v ∨ row = [] then s
  else
    let start : BitVec 32 := if v = e 2 then 0xFFFFFFFF#32 else (s.region b n).crc
    let a := s.expected (Reg.BM_WR_EXPA_HI b n)
    let bb := if bit (s.inEff (Reg.BM_WR_CTRL b n)) 3 then s.expected (Reg.BM_WR_EXPB_HI b n) else a
    let k := (s.beam b).gen.index
    let done := decide (v + 1 = min (e 2 + e 4) (s.vact b))
    s.updRegion b n (fun r =>
      { r with crc := row.foldl crcPixel start, ended := if done then some (mode, a, bb, k) else r.ended })

/-- The output copy of line `v` (R132). Where the crossing was full, free values say which entries were dropped. -/
def State.copyLine (s : State) (b v : Nat) (ps : List Word) : State :=
  let o := (s.beam b).out
  if !o.capOn then s
  else
    let at0 := 16 * (s.inEff (Reg.BM_CAPBASE b)).toNat + v * s.effFld (Reg.BM_CAPSTRIDE b) Fd.BM_CAPSTRIDE_STRIDE
    let k := s.freeCtr
    let dropped (h : Nat) : Bool := o.full && bit (Config.freeValue (k + h / 24)) (h % 24)
    let s := if o.full then { s with freeCtr := k + (ps.length + 23) / 24 } else s
    let s := if o.full then (s.updOut b (fun o => { o with capOvr := true })).setBit (Reg.BM_CEVT b) 5 else s
    let q := ps.zipIdx.filter (fun x => !dropped x.2)
    (q.foldl (fun s x => (s.busWrite (17 + b) (s.beamPlot b) (at0 + x.2) x.1).1) s).perf (18 + b) 7 q.length

/-- Line `v` leaves as a LINE frame on its pixel lanes (R371). -/
def State.lineFrame (s : State) (b v : Nat) (ps : List Word) : State :=
  (s.pixelLanes b v).foldl (fun s n => s.pixelLine n ([wd ((s.beam b).gen.index % 65536), wd v, 0] ++ ps)) s

/-- The compositor gives up line `n` and what was left of it (R74). -/
def State.abandonLine (s : State) (b n : Nat) : State :=
  s.updComp b (fun c =>
    { c with line := if c.line = some n then none else c.line, next := Nat.max c.next (n + 1)
             store := c.store.filter (fun e => n < e.1) })

/-- The last active pixel of line `n` has left: its underrun, its copies and its signatures (R74, R75, R131). -/
def State.lineOut (s : State) (b n : Nat) : State :=
  let ps := s.sentPixels b n
  let s := s.underrun b n (s.hact b - ((s.composedOf b n).take (s.hact b)).countP (·.isSome))
  let s := s.copyLine b n ps
  let s := forN 16 (fun k s => s.regionRow b k n ps) s
  let s := (s.lineFrame b n ps).abandonLine b n
  s.updOut b (fun o => { o with sending := none, framed := false, full := false, under := [], sent := ps })

/-! ## Line Headland -/

/-- The line Headland of active line `n`, not the last one (R63). -/
def State.lineHeadland (s : State) (b n : Nat) : State :=
  let s := s.passTo (s.pixelAt b (n * (s.inEff (Reg.BM_HTOTAL b)).toNat + s.hact b))
  let s := s.lineOut b n
  let s := s.setTpos b true false n
  let s := (s.updOut b (fun o => { o with next := n + 1 })).lineEvents b n
  if n + 4 ≤ s.vact b then s.furComing b [n + 3] else s

/-- A blanking line of the frame Headland begins. The last one is line VTOTAL − 1, but for a transitional Headland, whose lines are
counted on from the new VACT − 1 (R72: DESIGN CHOICE, log entry 128). -/
def State.blankingLine (s : State) (b : Nat) : State :=
  let n := s.lineNow b + 1
  let trans := (s.beam b).gen.trans
  if trans ∨ n < (s.inEff (Reg.BM_VTOTAL b)).toNat then
    let s := if trans then s else s.passTo (s.pixelAt b (n * (s.inEff (Reg.BM_HTOTAL b)).toNat))
    (s.setTpos b true true n).updOut b (fun o => { o with framed := true })
  else s

/-- Pixel HACT of a blanking line of the frame Headland: its line Headland, with its events (R69). Where the line's own start has not been
commanded, it begins with this. -/
def State.blankingHeadland (s : State) (b : Nat) : State :=
  let s := if (s.beam b).out.framed then s else s.blankingLine b
  if !(s.beam b).out.framed then s
  else
    let n := s.lineNow b
    let s := if (s.beam b).gen.trans then s else s.passTo (s.pixelAt b (n * (s.inEff (Reg.BM_HTOTAL b)).toNat + s.hact b))
    (s.updOut b (fun o => { o with framed := false })).lineEvents b n

/-- A blank line of an acquire or a re-lock begins on the grid of the chosen start (R71 step 4): it counts on until the frame Headland, and
publishes nothing. -/
def State.blankLine (s : State) (b : Nat) : State :=
  let vt := (s.inEff (Reg.BM_VTOTAL b)).toNat
  let j := (s.beam b).gen.linesLeft
  if vt - s.vact b < j then
    let s := s.blankOut b
    let s := s.passTo (s.beforeStart b (j * (s.inEff (Reg.BM_HTOTAL b)).toNat))
    let s := s.setTpos b false false (vt - 1 - (j - 1) % Nat.max 1 vt)
    (s.updGen b (fun g => { g with linesLeft := j - 1 })).updOut b (fun o => { o with blank := true, under := [] })
  else s

/-- Pixel HACT of a blank line. -/
def State.blankHeadland (s : State) (b : Nat) : State :=
  if !(s.beam b).out.blank then s
  else
    let s := s.passTo (s.beforeStart b (((s.beam b).gen.linesLeft + 1) * (s.inEff (Reg.BM_HTOTAL b)).toNat - s.hact b))
    (s.blankOut b).setTpos b true false (s.lineNow b)

/-- A Headland begins at the end of an active line, of a blanking line inside the frame Headland, or of a blank line. -/
def State.headlandOf (s : State) (b : Nat) : State :=
  if (s.beam b).gen.acq = .grid then s.blankHeadland b
  else if s.inFH b then s.blankingHeadland b
  else match (s.beam b).out.sending with
    | some n => if n + 1 < s.vact b ∧ (s.beam b).out.framed then s.lineHeadland b n else s
    | none => s

def execLineHeadlandStart (b : BeamIx) (s : State) : Out := .next (s.declaring (fun s => s.headlandOf b.val))

/-! ## Frame Headland -/

/-- A pending copy of a timing set is applied (R72): true where it starts a re-lock. With the same frame period and another geometry
this frame Headland is a transitional one. -/
def State.applyTgo (s : State) (b : Nat) : State × Bool :=
  match (s.beam b).gen.tgo with
  | none => (s, false)
  | some ws =>
    let old := s.timingSet b
    let same := decide (setN old 9 = setN ws 9 ∧ setN old 8 = setN ws 8 ∧ setN old 6 * setN ws 7 = setN ws 6 * setN old 7)
    let s := ((s.applySet b ws).updGen b (fun g => { g with tgo := none })).clrBit (Reg.BM_TSTAT b) 4
    let moved := (timingRegs b).zipIdx.any (fun x => old.getD x.2 0 != ws.getD x.2 0)
    if same then (s.updGen b (fun g => { g with trans := moved }), false) else (s.relock b, true)

/-- The frame Headland up to its latch: the last line leaves, a late section is cut, queued writes are applied (R157). -/
def State.closeFrame (s : State) (b : Nat) : State :=
  let last := s.vact b - 1
  let s := s.blankOut b
  let s := if (s.beam b).out.sending = some last then s.lineOut b last else s
  let s := (s.furCut b).furApplyTo b 8191
  let k := (s.beam b).gen.index
  s.updOut b (fun o =>
    if o.capOn then { o with capOn := false, capOnce := false, capOvr := false, capEnd := some (k, o.capOvr, o.capOnce) } else o)

/-- The frame Headland proper (R63), whose first line is VACT − 1 of the geometry then in effect (for a transitional Headland the
new one: log entry 128): the latch, the working values, the static group, the output copy, the events, the Furrow
program. -/
def State.frameHeadland (s : State) (b : Nat) : State :=
  let t := (if s.frozen (3 + b) then s else s.latchFrame b).latchFurrow b
  let u := t.resetWork b
  let u := (u.flatHeadland b (changedOffs b s u)).copyHeadland b
  let u := u.updComp b (fun _ => {})
  let u := u.updOut b (fun o => { o with next := 0, sending := none, framed := false })
  let u := u.setTpos b true true (u.vact b - 1)
  let u := (u.bmEvent b (Reg.BM_TINE0 b) false).lineEvents b (u.vact b - 1)
  u.furHeadland b

/-- May the frame Headland of beam `b` start: the last line has been sent, or an acquire or re-lock has come to it? -/
def State.headlandDue (s : State) (b : Nat) : Bool :=
  (s.beam b).gen.acq == .grid ||
  ((s.genState b == 2 || s.genState b == 3) && (s.beam b).out.sending == some (s.vact b - 1) && (s.beam b).out.framed)

/-- The start of a frame Headland, at its instant on the grid. With a Fallow entry under way the beam stops there (R446). -/
def State.frameHeadlandStart (s : State) (b : Nat) : State :=
  if !s.headlandDue b then s
  else
    let acq := (s.beam b).gen.acq == .grid
    let ws := s.timingSet b
    let s := s.passTo (if acq then s.beforeStart b (headlandPixels ws) else s.pixelAt b ((setN ws 3 - 1) * setN ws 1 + setN ws 0))
    let s := s.closeFrame b
    let stops := match s.pwr.target with
      | some (1, _) => true
      | _ => false
    if stops then s.tenOff b
    else
      let (s, relocks) := s.applyTgo b
      if relocks then s
      else (if acq then s.updGen b (fun g => { g with acq := .headland }) else s).frameHeadland b

def execFrameHeadlandStart (b : BeamIx) (s : State) : Out := .next (s.declaring (fun s => s.frameHeadlandStart b.val))

/-! ## Frame start -/

/-- A first frame leaves at instant `at0`: LOCKED, and after a re-lock the number of blank frames, in periods of the new timing rounded
up, which is at most 2 in SRC 0 and 3 in SRC 1 (R71, R72, R73). -/
def State.firstFrame (s : State) (b at0 : Nat) : State :=
  let g := (s.beam b).gen
  if g.acq ≠ .headland then s
  else
    let (n, d) := periodOf (s.timingSet b)
    let most := if s.extLock b then 3 else 2
    let blank (t : Nat) : Nat := Nat.min most (((at0 - t) * d + n - 1) / Nat.max 1 n)
    let s := match g.relockAt with
      | some t => s.setFld (Reg.BM_TSTAT b) Fd.BM_TSTAT_BLANKCNT (blank t)
      | none => s
    ((s.setGenState b 2).setBit (Reg.BM_TEVT b) 0).updGen b (fun g =>
      { g with acq := .none, relockAt := none, slewing := false, cand := none })

/-- The phase error in ns that BMx_PHERR reports: within ±10 ns (R65), within ±20 ns while a reference change slews the timebase (R66),
and of any size while a HOLD's error is slewed out, which ends once it is below 10 ns (R67). -/
def State.phaseReport (s : State) (b : Nat) : State :=
  let v := (Config.freeValue s.freeCtr).toNat
  let s := s.useFree
  let slew := (s.beam b).gen.slewing
  let e : Int := if slew then signed 16 v
    else if !s.extLock b && s.fld Reg.LNK_REFSTAT Fd.LNK_REFSTAT_SLEW == 1 then (v % 41 : Nat) - 20 else (v % 21 : Nat) - 10
  let s := s.setReg (Reg.BM_PHERR b) (wd ((e % 65536).toNat))
  if slew ∧ -10 < e ∧ e < 10 then s.updGen b (fun g => { g with slewing := false }) else s

/-- The instant and index of the frame start after the one at `at0` with index `k` (R65): in SRC 0 exact on the system's grid; in SRC 1 a
period on, until an accepted edge says better. -/
def State.startAfter (s : State) (b at0 k : Nat) : Nat × Nat :=
  let (n, d) := s.gridPeriod b
  if s.extLock b then (at0 + n / Nat.max 1 d, k + 1)
  else (s.effFld (Reg.BM_PHASE b) Fd.BM_PHASE_V + (k + 1) * n / Nat.max 1 d, k + 1)

/-- A frame starts (R62), at its computed instant (R65): the index and the count, START, GLK_OUT, the deadlines of the sections for lines 0, 1 and 2, and line
0, which begins to be sent. -/
def State.frameStart (s : State) (b : Nat) : State :=
  if !s.inFH b then s
  else
    let (at0, k) := (s.beam b).gen.chosen.getD (s.timebase.toNat, (s.beam b).gen.index + 1)
    let next := s.nextIndex b
    let s := (s.passTo at0).firstFrame b at0
    let n := s.reg (Reg.BM_FCNT b)
    let s := s.setReg (Reg.BM_FCNT b) (n + 1)
    let s := if n = 0xFFFFFF then s.setBit (Reg.BM_TEVT b) 6 else s
    let after := s.startAfter b at0 k
    let s := s.updGen b (fun g => { g with index := next, chosen := some after, startAt := at0, trans := false })
    let s := (s.setReg (Reg.BM_SFRAME b) (wd next)).phaseReport b
    let s := s.bmEvent b (Reg.BM_TINE1 b) true
    let pulse := s.fld (Reg.BM_TCTRL 0) Fd.BM_TCTRL_GLKSEL == b + 1 && (s.genState b == 2 || s.genState b == 3)
    let s := if pulse then s.updGen b (fun g => { g with glkOut := g.glkOut + 1 }) else s
    let s := ((s.furDeadline b 0).furDeadline b 1).furDeadline b 2
    (s.setTpos b false false 0).updOut b (fun o => { o with sending := some 0, framed := false, next := 0 })

def execFrameStart (b : BeamIx) (s : State) : Out := .next (s.declaring (fun s => s.frameStart b.val))

/-! ## Sending -/

/-- Line `n` begins to be sent (R142): the deadline of the section for line `n + 2` passes (R154); a full crossing of the output copy drops
entries (R132). -/
def State.lineSend (s : State) (b n : Nat) (full : Bool) : State :=
  let s := s.passTo (s.pixelAt b (n * (s.inEff (Reg.BM_HTOTAL b)).toNat))
  let s := if n = 0 then s else (s.setTpos b false false n).furDeadline b (n + 2)
  s.updOut b (fun o => { o with sending := some n, next := n + 1, framed := true, full := full })

/-- A line begins to be sent: a blank line of an acquire or a re-lock, the next active line, or in the frame Headland the next blanking
line. -/
def State.lineBegins (s : State) (b : Nat) (full : Bool) : State :=
  let o := (s.beam b).out
  if (s.beam b).gen.acq = .grid then s.blankLine b
  else if s.inFH b then s.blankingLine b
  else if o.sending = some 0 ∧ !o.framed then s.lineSend b 0 full
  else if o.sending.isNone && s.inHL b && decide (0 < o.next ∧ o.next < s.vact b) then s.lineSend b o.next full
  else s

def execLineSendStart (b : BeamIx) (full : Bool) (s : State) : Out := .next (s.declaring (fun s => s.lineBegins b.val full))

/-! ## Composition -/

/-- Has line `m − 2` begun to be sent; for lines 0 and 1, has the frame Headland begun (R142)? -/
def State.lineOpen (s : State) (b m : Nat) : Bool :=
  match (s.beam b).out.sending with
  | some n => decide (m ≤ n + 2)
  | none => if s.inFH b then decide (m < 2) else s.inHL b && decide (m ≤ (s.beam b).out.next + 1)

/-- The plots whose layers count as disabled, from this line on (R342); a group layer among them breaks the image (R129). -/
def State.takeFences (s : State) (b : Nat) : State :=
  let fenced := (List.range 8).filter (fun p => s.plotFenced p)
  let broken := (List.range 8).any (fun l => s.inGroup b l && s.plotFenced (s.lyPlot b l))
  let s := s.updComp b (fun c => { c with fenced := fenced })
  if broken then s.updFlat b (fun f => { f with broken := true, clean := false }) else s

/-- Is the sprite layer enabled, and not treated as disabled by a fence or absent under level 3 (R105, R126)? -/
def State.spritesOn (s : State) (b : Nat) : Bool :=
  (List.range 8).any (fun l => s.lyKind b l == 1 && s.lyOn b l && !s.lyShed b l)

/-- The sprite plane selects for line `m`, if its layer is on (R105, R106). -/
def State.selectLine (s : State) (b m : Nat) : State :=
  if s.spritesOn b then
    let (draw, dc, dp) := s.selectSprites b m
    let s := (s.bumpBy (Reg.BM_SPCNTDROP b) dc).bumpBy (Reg.BM_SPPXDROP b) dp
    let s := if dc + dp = 0 then s else s.setBit (Reg.BM_CEVT b) 7
    let s := (s.perf (18 + b) 3 draw.length).perf (18 + b) 4 (dc + dp)
    s.updComp b (fun c => { c with draw := draw })
  else s.updComp b (fun c => { c with draw := [] })

/-- The compositor starts line `m`: queued Furrow writes, then selection (R143). -/
def State.compLine (s : State) (b m : Nat) : State :=
  let s := s.furApplyTo b m
  let s := s.updComp b (fun c => { c with line := some m, next := m + 1, seg := 0, pixels := [], spLevel := 0, lyLevel := false })
  (s.takeFences b).selectLine b m

/-- The compositor starts its next line where nothing is being composed, the line store has room for it, and R142 lets it. -/
def execCompositorLineStart (b : BeamIx) (s : State) : Out :=
  let b := b.val
  let c := (s.beam b).comp
  .next (if c.line.isNone && decide (c.next < s.vact b) && decide (c.store.length < 3) && s.lineOpen b c.next &&
      s.furEnded b c.next then s.compLine b c.next else s)

/-- Sprite shedding at the start of a segment (R106, R107), whether or not the sprite layer is on: a level, once reached, holds, and a
line counts once. -/
def State.shedSprites (s : State) (b t : Nat) : State :=
  let c := (s.beam b).comp
  let a := Reg.BM_SPSHED b
  let n := if t < 16 * s.fld a Fd.BM_SPSHED_SHED2 then 2 else if t < 16 * s.fld a Fd.BM_SPSHED_SHED1 then 1 else 0
  if n ≤ c.spLevel then s
  else
    let shed (k : Nat) : Nat := c.draw.countP (fun e => !bit (sprW e 1) 23 && (decide (2 ≤ k) || (decide (1 ≤ k) && bit (sprW e 1) 22)))
    let s := s.updComp b (fun c => { c with spLevel := n })
    let s := s.perf (18 + b) 4 (shed n - shed c.spLevel)
    if c.spLevel = 0 then (s.bump (Reg.BM_SPSHEDCNT b)).setBit (Reg.BM_CEVT b) 8 else s

/-- Level 3 (R126): layers with SHED are absent for the rest of the line; a group layer among them spoils a capture frame. -/
def State.shedLayers (s : State) (b t : Nat) : State :=
  if (s.beam b).comp.lyLevel ∨ 16 * s.fld (Reg.BM_LYSHED b) Fd.BM_LYSHED_SHED3 ≤ t then s
  else
    let lost := (List.range 8).any (fun l => s.inGroup b l && bit (s.lyCtrl b l) 10)
    let s := (s.bump (Reg.BM_LYSHEDCNT b)).setBit (Reg.BM_CEVT b) 6
    let s := s.updComp b (fun c => { c with lyLevel := true })
    if lost then s.updFlat b (fun f => { f with clean := false }) else s

/-- Does the plane at stack position `q` fetch in a segment with the highest covering layer at `cover` (R125, R129)? A tile
plane with lifted pixels at or above it does; a group layer does while its group is DIRTY. -/
def State.fetchesAt (s : State) (b : Nat) (cover : Option Nat) (q : Nat) : Bool :=
  match cover with
  | none => true
  | some c => decide (c ≤ q) || (match s.planeAt b q with
      | .layer l => (s.lyKind b l == 0 && bit (s.inEff (Reg.BM_TL_CFG b l)) 12 &&
          decide (c ≤ s.effFld (Reg.BM_TL_CFG b l) Fd.BM_TL_CFG_PRIPOS)) || 
          (s.inGroup b l && (s.flatState b == 1 || (s.beam b).flat.broken))
      | _ => false)

/-- What one plane fetches at active pixel (h, v): plot and addresses. -/
def State.fetchesOf (s : State) (b q h v : Nat) : List (Nat × Nat) :=
  let cx := s.canvasX b h
  let cy := s.canvasY b v
  match s.planeAt b q with
  | .nothing => []
  | .flat => [(s.beamPlot b, s.flatAddr b h v)]
  | .layer l =>
    if s.lyKind b l = 1 then
      (s.beam b).comp.draw.flatMap (fun e => if s.sprShed b e then [] else (s.sprPix b e cx cy).src0.map (fun a => (s.spriteOwner b, a)))
    else
      let p := s.planePix b l cx cy
      (p.src0 ++ p.src1).map (fun a => (s.lyPlot b l, a))

/-- The fetches of a segment of line `v`: modified lines come from their cache, and each 12-word line that meets an error
response is counted (R49, R97, R123). -/
def State.segFetches (s : State) (b v : Nat) (cover : Option Nat) (cols : List Nat) : State :=
  let qs := (List.range 8).filter (s.fetchesAt b cover)
  let as := (qs.flatMap (fun q => cols.flatMap (fun h => s.fetchesOf b q h v))).eraseDups
  let lines := (as.map (fun x => (x.1, 12 * (x.2 / 12)))).eraseDups
  let flat := (qs.filter (fun q => s.planeAt b q == .flat)).length * cols.length
  let stopped := (List.range 8).any (fun q => !(s.fetchesAt b cover q) && s.planeAt b q != .nothing)
  let bads := as.filter (fun x => s.fetchBad x.1 x.2)
  let s := lines.foldl (fun s x =>
    match bads.find? (fun y => y.1 == x.1 && 12 * (y.2 / 12) == x.2) with
    | some y => (s.noteFetches (17 + b) y.1 [y.2]).bmErr b
    | none =>
      let ys := as.filter (fun y => y.1 == x.1 && 12 * (y.2 / 12) == x.2)
      s.noteFetches (17 + b) x.1 (ys.take 1 |>.map (·.2))) s
  let s := s.perf (18 + b) 6 flat
  if stopped then s.perf (18 + b) 2 else s

/-- The range recorded under `k` takes in the addresses (R130). -/
def State.recordRange (s : State) (b k : Nat) (as : List Nat) : State :=
  s.updFlat b (fun f => { f with recorded := as.foldl (fun t a =>
    Tab.put none t k (some (match Tab.get none t k with
      | none => (a, a)
      | some (lo, hi) => (Nat.min lo a, Nat.max hi a)))) f.recorded })

/-- In DIRTY: the ranges that the group layers fetch are recorded, and the pixels of the group's image are written to the flat
area (R129, R130). -/
def State.captureSeg (s : State) (b v : Nat) (cols : List Nat) : State :=
  if s.flatState b ≠ 1 ∨ (s.beam b).flat.broken then s
  else
    let px := cols.map (fun h => (s.flatAddr b h v, s.groupPix b h v))
    let rec' := (List.range 8).filter (fun l => s.inGroup b l && s.lyOn b l && !s.lyShed b l)
    let fetched := rec'.map (fun l => (l, cols.map (fun h => s.planePix b l (s.canvasX b h) (s.canvasY b v))))
    let s := fetched.foldl (fun s e =>
      (s.recordRange b (2 * e.1) (e.2.flatMap (·.src0))).recordRange b (2 * e.1 + 1) (e.2.flatMap (·.src1))) s
    px.foldl (fun s x =>
      let (t, r) := s.busWrite (17 + b) (s.beamPlot b) x.1 x.2
      if r = .ok then t else t.updFlat b (fun f => { f with clean := false })) s

/-- Segment `g` of line `v` is composed (R112); with its last segment the line is whole and goes to the store. A pixel whose own period has passed comes too
late for the island, which has sent a substitute (R74). -/
def State.composeSeg (s : State) (b v g : Nat) : State :=
  let cols := ((List.range 64).map (fun i => 64 * g + i)).filter (fun h => h < s.hact b)
  let cover := s.coverPos b g v
  let ht := (s.inEff (Reg.BM_HTOTAL b)).toNat
  let late (h : Nat) : Bool := !s.inFH b && (s.beam b).gen.acq == .none && decide (s.pixelAt b (v * ht + h) < s.timebase.toNat)
  let px := cols.map (fun h => if late h then none else some (s.composePix b cover h v))
  let s := (s.segFetches b v cover cols).captureSeg b v cols
  let s := s.updComp b (fun c => { c with seg := g + 1, pixels := c.pixels ++ px })
  if s.hact b ≤ 64 * (g + 1) then
    (s.updComp b (fun c => { c with line := none, pixels := [], store := c.store ++ [(v, c.pixels)] })).perf (18 + b) 0
  else s

/-- The compositor starts the next segment of its line (R112): shedding goes by the tolerance that the beam then declares (R107,
R126). -/
def State.segment (s : State) (b : Nat) : State :=
  match (s.beam b).comp.line with
  | none => s
  | some v =>
    let t := s.beamTol b
    ((s.shedSprites b t).shedLayers b t).composeSeg b v (s.beam b).comp.seg

def execSegmentStart (b : BeamIx) (s : State) : Out := .next (s.declaring (fun s => s.segment b.val))

/-! ## Copy and signatures -/

/-- The last word of a captured frame is written (R132); after the one frame of MODE 2 the beam clears EN. -/
def State.captureDone (s : State) (b : Nat) : State :=
  let o := (s.beam b).out
  match o.capEnd with
  | none => s
  | some (k, ovr, once) =>
    let a := Reg.BM_CAPSTAT b
    let s := (s.setFld a Fd.BM_CAPSTAT_FRAME (k % 65536)).putBit a 22 ovr
    let s := (s.putBit a 23 o.capOn).setBit (Reg.BM_CEVT b) 4
    let s := s.updOut b (fun o => { o with capEnd := none })
    let c := Reg.BM_CAPCTRL b
    if once then (s.clrBit c 0).setEff c (s.inEff c &&& ~~~ oneBit 0) else s

def execCaptureFrameDone (b : BeamIx) (s : State) : Out := .next (s.captureDone b.val)

/-- A mismatch of region `n`: its cause and count, MIS, the tine, and the report to the holder of the regions' plot (R135 to
R137). -/
def State.mismatch (s : State) (b n cause frame : Nat) : State :=
  let a := Reg.BM_WR_STAT b n
  let s := (s.setFld a Fd.BM_WR_STAT_CAUSE cause).bump a
  let s := s.setBit (Reg.BM_WRSTAT b) n
  let s := s.publishIf (s.bitAt (Reg.BM_WRTINE b) 7) (s.fld (Reg.BM_WRTINE b) Fd.BM_WRTINE_TINE)
  s.safety (s.ownerRes 15 b) 1 (b * 2 ^ 15 + cause * 2 ^ 12 + n) frame

/-- Region `n`'s last pixel is out (R135). -/
def State.regionCompare (s : State) (b n : Nat) : State :=
  let r := s.region b n
  match r.ended with
  | none => s
  | some (mode, ea, eb, k) =>
    let sig := ~~~ r.crc
    let at' := s.timebase.toNat + s.periodTicks b 2
    let s := s.updRegion b n (fun r =>
      { r with ended := none, sig := some (sig, k), fresh := true, noframeAt := r.noframeAt.map (fun _ => at') })
    if mode = 1 then s.setBit (Reg.BM_CEVT b) 10
    else if sig.toNat = ea ∨ sig.toNat = eb then s
    else s.mismatch b n 1 k

def execRegionCompare (b : BeamIx) (n : Fin 16) (s : State) : Out := .next (s.regionCompare b.val n.val)

/-- A region in MODE 2 has waited its frame periods without a comparison (R136). The report's frame index is 0: no frame was compared, and
the spec says no other value (R137, R328: DESIGN CHOICE, log entry 129). -/
def State.regionNoframe (s : State) (b n : Nat) : State :=
  match (s.region b n).noframeAt with
  | none => s
  | some t =>
    if s.timebase.toNat < t then s
    else
      let at' := s.timebase.toNat + s.periodTicks b 1
      (s.updRegion b n (fun r => { r with noframeAt := some at' })).mismatch b n 2 0

def execRegionNoframe (b : BeamIx) (n : Fin 16) (s : State) : Out := .next (s.regionNoframe b.val n.val)

end Sys2Proof.Machine
end

