-- ==== Sys2Proof/Machine/Transactions.lean ====
section
/-! DEFINITION. Transactions (R40 to R50, R340): tags, the arbitration of each bank, the response. -/
namespace Sys2Proof.Machine

/-! ## Issue -/

/-- The class in which a requester sends: 16 Steward control; 17 and 18 beam fetch for reads and normal for the output copy; the
others normal (R15). -/
def classOf (r : Nat) (op : TxnOp) : ReqClass :=
  if r = 16 then .steward else if (r = 17 ∨ r = 18) ∧ opWrites op = false then .beam else .normal

/-- The plot that a requester's transaction carries: of a core its owner, of a beam, the Harrow and the Drill the plot that
it works for, 0 of the others (R40). -/
def State.txnPlot (s : State) (r p : Nat) : Nat :=
  if r < 16 then s.corePlot r else if 17 ≤ r ∧ r ≤ 20 then p else 0

/-- WEIGHT of plot `p`. -/
def State.weight (s : State) (p : Nat) : Nat := s.fld (Reg.FAB_QOS p) Fd.FAB_QOS_WEIGHT

/-- The snoops that the directory sends for a line: to the core that holds it modified for a read, to every other core that
holds it for a write (R49). -/
def State.sendSnoops (s : State) (r : Nat) (w : Bool) (ln : Nat) : State :=
  let cs := (List.range 16).filter (fun c =>
    c != r && match s.cached c ln with
      | some l => w || l.st == .modified
      | none => false)
  { s with fab := { s.fab with snoops := s.fab.snoops ++ cs.map (fun c => ⟨c, ln, w⟩) } }

/-- The field memory side of an issue: a sleeping bank wakes, which a beam fetch that waits on it shows in BEAMLATE (R48);
snoops leave for the lines of the transaction (R49). -/
def State.issueField (s : State) (r a : Nat) (c : ReqClass) (op : TxnOp) : State :=
  if fieldWords ≤ a then s
  else
    let k := s.bank a
    let s := if s.sleeps k then (if c = .beam then (s.startWake k).setBit Reg.FAB_EVT 2 else s.startWake k) else s
    (linesOf a (opLen op)).foldl (fun s ln => s.sendSnoops r (opWrites op) ln) s

/-- A request takes tag `t`, and its plot's weight of this moment (R19), and goes to its bank or block (R40, R41). -/
def State.takeTag (s : State) (x : Txn) (t : Nat) : State :=
  let x := { x with tag := t, weight := s.weight x.plot }
  let s := (State.countTags { s with fab := { s.fab with inflight := s.fab.inflight ++ [x] } }).perf 17 0
  s.issueField x.req x.addr x.cls x.op

/-- Requester `r` issues one access: it is refused with an error response, which it counts in its own block (R56), or it waits for
a tag, or it takes one (R41, R45). -/
def State.issueOne (s : State) (r p a : Nat) (c : ReqClass) (op : TxnOp) : State :=
  match s.gate r p a (opWrites op) with
  | some e => ((s.refuse r p a e).countOwn r e).answer r errResp
  | none =>
    let x : Txn := { tag := 0, req := r, plot := p, cls := c, addr := a, op := op, result := none, weight := 0 }
    match s.drawTag r c with
    | none => State.perf { s with fab := { s.fab with waiters := s.fab.waiters ++ [x] } } 17 1
    | some t => s.takeTag x t

/-- An access lies in one line of field memory (R35): the accesses that the words from `a` make. -/
def opParts (a : Nat) (op : TxnOp) : List (Nat × TxnOp) :=
  let k := 12 - a % 12
  if fieldWords ≤ a ∨ opLen op ≤ k then [(a, op)]
  else match op with
    | .read n => [(a, .read k), (a + k, .read (n - k))]
    | .write ws => [(a, .write (ws.take k)), (a + k, .write (ws.drop k))]

/-- Requester `r` issues a transaction, in each line that it touches. -/
def State.issueTxn (s : State) (r p a : Nat) (op : TxnOp) : State :=
  (opParts a op).foldl (fun s x => s.issueOne r p x.1 (classOf r op) x.2) s

/-- A transaction has 1 to 12 words: a line is the largest unit of one access (R35). -/
def opOk (op : TxnOp) : Bool := decide (1 ≤ (opLen op) ∧ (opLen op) ≤ 12)

def execTransactionIssue (req : Req) (plot : Fin 8) (a : Addr) (op : TxnOp) (s : State) : Out :=
  if !opOk op then .refused .illFormed
  else .next (s.issueTxn req.val (s.txnPlot req.val plot.val) a.toNat op)

/-! ## Arbitration -/

/-- The requests that bank `k` may grant now: those in wait whose lines wait for no snoop and for no earlier request (R50)
and are not held by a LOCK read of the Steward (R299), in order of arrival. -/
def State.candidates (s : State) (k : Nat) : List Txn :=
  let waits := s.fab.inflight.filter (fun x => x.result.isNone && s.txnBank x.addr == some k)
  waits.zipIdx.filterMap (fun x =>
    if s.uc.lock.any (fun b => x.1.req != 16 && (linesOf x.1.addr (opLen x.1.op)).contains (lineNo b)) ||
      (waits.take x.2).any (shareLines x.1) || s.fab.snoops.any (fun n => (linesOf x.1.addr (opLen x.1.op)).contains n.line)
    then none else some x.1)

/-- A grant counter of bank `k`: 0 to 7 the grants of each plot, 8 the grants of the present window of 16, 9 those of beam
fetch among them. -/
def State.grants (s : State) (k i : Nat) : Nat := Tab.get 0 s.fab.grants (16 * k + i)

def State.setGrants (s : State) (k i n : Nat) : State :=
  { s with fab := { s.fab with grants := Tab.put 0 s.fab.grants (16 * k + i) n } }

/-- The plots with requests among `xs`, each with the weight that its first request took (R19). -/
def plotsOf (xs : List Txn) : List (Nat × Nat) :=
  xs.foldl (fun ps x => if ps.any (fun e => e.1 == x.plot) then ps else ps ++ [(x.plot, x.weight)]) []

/-- The plots that may be served: weight 0 only where no plot of another weight waits (R43). -/
def heavyPlots (ps : List (Nat × Nat)) : List (Nat × Nat) :=
  let heavy := ps.filter (fun e => e.2 != 0)
  if heavy.isEmpty then ps else heavy

/-- The plot that is served next at arbiter `k`: the least part of its weight used, the first to wait among equals; plots of weight 0
in equal turns (R43). -/
def State.nextPlot (s : State) (k : Nat) (ps : List (Nat × Nat)) : Nat :=
  let ps := heavyPlots ps
  (ps.foldl (fun b e =>
    if s.grants k e.1 * Nat.max 1 b.2 < s.grants k b.1 * Nat.max 1 e.2 then e else b) (ps.headD (0, 0))).1

/-- Count a normal grant of plot `p`; once every plot that may be served has used its weight, the turn begins again. -/
def State.countNormal (s : State) (k p : Nat) (ps : List (Nat × Nat)) : State :=
  let s := s.setGrants k p (s.grants k p + 1)
  if (heavyPlots ps).all (fun e => decide (Nat.max 1 e.2 ≤ s.grants k e.1)) then
    forN 8 (fun q s => s.setGrants k q 0) s else s

/-- Does beam fetch take every grant it needs: SHARE 0, or a beam's tolerance at or below 16 × URGENT (R44)? -/
def State.beamUrgent (s : State) : Bool :=
  let u := 16 * s.fld Reg.FAB_BEAMSHARE Fd.FAB_BEAMSHARE_URGENT
  s.fld Reg.FAB_BEAMSHARE Fd.FAB_BEAMSHARE_SHARE == 0 ||
    decide (s.beamTol 0 ≤ u) || decide (s.beamTol 1 ≤ u)

/-- Count a grant of the window of 16 that limits beam fetch while normal requests wait (R44). Which 16 grants SHARE is held against
the spec does not say: DESIGN CHOICE, blocks of 16 that begin anew when no normal request waits, Steward control left aside (log
entry 116). -/
def State.countWindow (s : State) (k : Nat) (beam normalWaits : Bool) : State :=
  if !normalWaits ∨ s.grants k 8 = 15 then (s.setGrants k 8 0).setGrants k 9 0
  else (s.setGrants k 8 (s.grants k 8 + 1)).setGrants k 9 (s.grants k 9 + b2n beam)

/-- RESA or RESB of plot `p` (R340). -/
def State.bres (s : State) (b p : Nat) : Nat :=
  s.fld (Reg.PLT_BRES p) (if b = 0 then Fd.PLT_BRES_RESA else Fd.PLT_BRES_RESB)

/-- Grants of beam `b` at bank `k` in its present window of 16: 0 to 7 of each plot, 8 of all (R340). -/
def State.beamGrants (s : State) (k b i : Nat) : Nat := Tab.get 0 s.fab.beamGrants (16 * (2 * k + b) + i)

def State.setBeamGrants (s : State) (k b i n : Nat) : State :=
  { s with fab := { s.fab with beamGrants := Tab.put 0 s.fab.beamGrants (16 * (2 * k + b) + i) n } }

/-- The beam fetch that is granted: the oldest one with a reservation left, else the oldest (R340). -/
def State.nextBeam (s : State) (k : Nat) (xs : List Txn) : Option Txn :=
  match xs.find? (fun x => decide (s.beamGrants k (x.req - 17) x.plot < s.bres (x.req - 17) x.plot)) with
  | some x => some x
  | none => xs.head?

/-- Count a beam-fetch grant in its window. -/
def State.countBeam (s : State) (k : Nat) (x : Txn) : State :=
  let b := x.req - 17
  if s.beamGrants k b 8 = 15 then forN 9 (fun i s => s.setBeamGrants k b i 0) s
  else (s.setBeamGrants k b x.plot (s.beamGrants k b x.plot + 1)).setBeamGrants k b 8 (s.beamGrants k b 8 + 1)

/-- The next grant of bank `k` (R43, R44, R340); none while nothing can be granted. -/
def State.grantNext (s : State) (k : Nat) : Option (State × Txn) :=
  let cs := s.candidates k
  match cs.find? (fun x => x.cls == .steward) with
  | some x => some (s, x)
  | none =>
    let bs := cs.filter (fun x => x.cls == .beam)
    let ns := cs.filter (fun x => x.cls == .normal)
    let share := s.fld Reg.FAB_BEAMSHARE Fd.FAB_BEAMSHARE_SHARE
    match (if ns.isEmpty || s.beamUrgent || decide (s.grants k 9 < share) then s.nextBeam k bs else none) with
    | some x => some (((s.countBeam k x).countWindow k true !ns.isEmpty).perf 17 4, x)
    | none =>
      let ps := plotsOf ns
      let p := s.nextPlot k ps
      match ns.find? (fun x => x.plot == p) with
      | some x => some ((s.countNormal k p ps).countWindow k false true, x)
      | none => none

/-- Bank `k` grants requests until the one with tag `t` has been carried out; not while it sleeps. -/
def State.grantUntil (s : State) (k t : Nat) : (fuel : Nat) → State
  | 0 => s
  | fuel + 1 =>
    if s.sleeps k then s
    else match s.grantNext k with
      | none => s
      | some (s, x) =>
        let s := s.perform x
        if x.tag = t then s else s.grantUntil k t fuel

/-! ## The response -/

/-- A tag is free: of the requests that wait for one and can now draw it, the plot-weighted order picks the next (R41, R43). -/
def State.serveWaiter (s : State) : Option State :=
  let can := s.fab.waiters.filter (fun x => (s.drawTag x.req x.cls).isSome)
  let ps := plotsOf (can.map (fun x => { x with weight := s.weight x.plot }))
  let p := s.nextPlot 32 ps
  match can.find? (fun x => x.plot == p) with
  | none => none
  | some x =>
    match s.drawTag x.req x.cls with
    | none => none
    | some t =>
      let s := { s with fab := { s.fab with waiters := s.fab.waiters.erase x } }
      some ((s.countNormal 32 p ps).takeTag x t)

/-- Every waiting request that the free tags serve. -/
def State.serveWaiters (s : State) : (fuel : Nat) → State
  | 0 => s
  | fuel + 1 =>
    match s.serveWaiter with
    | none => s
    | some t => t.serveWaiters fuel

/-- The transaction with tag `t` ends: its tag is free (R40). -/
def State.freeTag (s : State) (t : Nat) : State :=
  let s := State.countTags { s with fab := { s.fab with inflight := s.fab.inflight.filter (fun y => y.tag != t) } }
  s.serveWaiters s.fab.waiters.length

/-- The response of the transaction with tag `t`: its bank grants it, or its block answers; the requester takes the words and
the tag returns (R40, R45). A request that its bank cannot serve yet stays in wait. -/
def State.respond (s : State) (t : Nat) : State :=
  match s.fab.inflight.find? (fun x => x.tag == t) with
  | none => s
  | some x =>
    let s := if x.result.isSome then s
      else match s.txnBank x.addr with
        | some k => s.grantUntil k t s.fab.inflight.length
        | none => s.perform x
    match (s.fab.inflight.find? (fun x => x.tag == t)).bind (·.result) with
    | none => s
    | some (ws, k) =>
      (s.freeTag t).answer x.req ⟨ws.headD 0, ws.drop 1, k⟩

def execTransactionResponse (tag : BitVec 14) (s : State) : Out := .next (s.respond tag.toNat)

end Sys2Proof.Machine
end

