-- ==== Sys2Proof/Machine/Bursts.lean ====
section
/-! DEFINITION. The Drill's bursts (R412 to R415, R418): the choice of a channel and the words that one burst moves. -/
namespace Sys2Proof.Machine

/-- Is the FIFO behind request line `n` a transmit FIFO: UART0 to UART3, I2C0, I2C1, the flash (R427)? -/
def lineTransmits (n : Nat) : Bool := n < 4 || n == 8 || n == 10 || n == 12

/-- Is request line `n` asserted (R427): a transmit FIFO of 16 words has room for 8, a receive FIFO holds 8; lines 14 to 31 never? -/
def State.requestLine (s : State) (n : Nat) : Bool :=
  let k := Tab.get 0 s.drl.fifo n
  decide (n < 14) && (if lineTransmits n then decide (k ≤ 8) else decide (8 ≤ k))

/-- May channel `c` run a burst: enabled, an active block with words left, and every pacer that it uses grants (R415)? -/
def State.drlMay (s : State) (c : Nat) : Bool :=
  let x := Reg.DRL_CH_XCFG c
  s.bitAt (Reg.DRL_CH_CTRL c) 23 && s.bitAt (Reg.DRL_CH_CTRL c) 21 && decide (s.reg (Reg.DRL_CH_ACNT c) ≠ 0) &&
  (!s.bitAt x 23 || s.requestLine (s.fld x Fd.DRL_CH_XCFG_REQ)) &&
  (!s.bitAt (Reg.DRL_CH_CFG c) 23 || s.drl.grant.getLsbD c)

/-- The priority of channel `c`. -/
def State.drlPri (s : State) (c : Nat) : Nat := s.fld (Reg.DRL_CH_CTRL c) Fd.DRL_CH_CTRL_PRI

/-- The channel that runs at a burst boundary (R414): the highest priority, and within it the next after the one that ran
last. -/
def State.drlPick (s : State) : Option Nat :=
  [3, 2, 1, 0].findSome? (fun p =>
    let last := Tab.get 31 s.drl.last p
    ((List.range 32).map (fun i => (last + 1 + i) % 32)).find? (fun c => s.drlPri c == p && s.drlMay c))

/-- Words of a burst (R412): BURST, where 0 and values above 16 act as 16, or the words left. -/
def State.drlSize (s : State) (c : Nat) : Nat :=
  let b := s.fld (Reg.DRL_CH_CFG c) Fd.DRL_CH_CFG_BURST
  Nat.min (if b = 0 ∨ 16 < b then 16 else b) (s.reg (Reg.DRL_CH_ACNT c)).toNat

/-- The addresses of a burst of `n` words, grouped into accesses (R412): one for each line of field memory while the address
advances, else one for each word. -/
def burstAccesses (a n : Nat) (inc : Bool) : List (List Nat) :=
  if !inc then List.replicate n [a]
  else
    let as := (List.range n).map (a + ·)
    if a + n ≤ fieldWords then ((as.map lineNo).eraseDups).map (fun ln => as.filter (fun x => lineNo x == ln))
    else as.map (fun x => [x])

/-- An error of channel `c`, with its cause, sets EVT.ERR (R418). -/
def State.drlFail (s : State) (c cause : Nat) : State := (s.drlErr cause c).setBit (Reg.DRL_CH_EVT c) 4

/-- The reads of a burst: an access that fails gives 0 words and counts with cause 4 (R418). -/
def State.drlRead (s : State) (c : Nat) (rd : BusResp) (as : List (List Nat)) : State × List Word :=
  let p := s.ownerRes 5 c
  as.foldl (fun acc g =>
    let acc := (acc.1.passTag, acc.2)
    if rd ≠ .ok then (acc.1.drlFail c 4, acc.2 ++ g.map (fun _ => 0))
    else
      let (t, ws, ok) := g.foldl (fun (x : State × List Word × Bool) a =>
        let (t, r) := x.1.busRead 20 p a
        (t, x.2.1 ++ [r.value], x.2.2 && r.kind == .ok)) (acc.1, [], true)
      if ok then (t, acc.2 ++ ws) else (t.drlFail c 4, acc.2 ++ g.map (fun _ => 0))) (s, [])

/-- The writes of a burst: a write that fails is lost and counts with cause 5, once for each access (R418). -/
def State.drlWrite (s : State) (c : Nat) (wr : BusResp) (as : List (List Nat)) (ws : List Word) : State :=
  let p := s.ownerRes 5 c
  (as.foldl (fun (acc : State × List Word) g =>
    let rest := acc.2.drop g.length
    let acc := (acc.1.passTag, acc.2)
    if wr ≠ .ok then (acc.1.drlFail c 5, rest)
    else
      let (t, ok) := (g.zip acc.2).foldl (fun (x : State × Bool) e =>
        let (t, k) := x.1.busWrite 20 p e.1 e.2
        (t, x.2 && k == .ok)) (acc.1, true)
      ((if ok then t else t.drlFail c 5), rest)) (s, ws)).1

/-- An address register and its segment after `n` words from `a`; what lies past the address space is kept aside (R473). -/
def State.drlStep (s : State) (c reg : Nat) (seg : Fld) (a : Nat) : State :=
  let x := Reg.DRL_CH_XCFG c
  (s.setReg reg (wd a)).setEff x (putF (s.inEff x) seg (a / 2 ^ 24 % 16))

/-- The present source and destination of channel `c`; they do not wrap (R473). -/
def State.drlSrc (s : State) (c : Nat) : Nat :=
  b2n (s.drl.srcPast.getLsbD c) * 2 ^ 28 + s.effFld (Reg.DRL_CH_XCFG c) Fd.DRL_CH_XCFG_SSEG * 2 ^ 24 +
    (s.reg (Reg.DRL_CH_ASRC c)).toNat

def State.drlDst (s : State) (c : Nat) : Nat :=
  b2n (s.drl.dstPast.getLsbD c) * 2 ^ 28 + s.effFld (Reg.DRL_CH_XCFG c) Fd.DRL_CH_XCFG_DSEG * 2 ^ 24 +
    (s.reg (Reg.DRL_CH_ADST c)).toNat

/-- One burst of channel `c`. -/
def State.drlRun (s : State) (c : Nat) (rd wr : BusResp) : State :=
  let g := Reg.DRL_CH_CFG c
  let n := s.drlSize c
  let sinc := s.bitAt g 6
  let dinc := s.bitAt g 5
  let src := s.drlSrc c
  let dst := s.drlDst c
  let src' := if sinc then src + n else src
  let dst' := if dinc then dst + n else dst
  let (s, ws) := s.drlRead c rd (burstAccesses src n sinc)
  let s := s.drlWrite c wr (burstAccesses dst n dinc) ws
  let s := s.drlStep c (Reg.DRL_CH_ASRC c) Fd.DRL_CH_XCFG_SSEG src'
  let s := s.drlStep c (Reg.DRL_CH_ADST c) Fd.DRL_CH_XCFG_DSEG dst'
  let s := s.drlPast c (decide (2 ^ 28 ≤ src')) (decide (2 ^ 28 ≤ dst'))
  let s := s.setReg (Reg.DRL_CH_ACNT c) (s.reg (Reg.DRL_CH_ACNT c) - wd n)
  if s.bitAt g 7 then s else s.drlGrant c false

/-- At a burst boundary the Drill runs one burst of the channel that it chooses; a channel of higher priority that does so in
the middle of another's block displaces it (R414). A frozen Drill starts none (R463), nor does one that finds no tag (R41). -/
def State.drlBurst (s : State) (rd wr : BusResp) : State :=
  if s.frozen 1 || (s.drawTag 20 .normal).isNone then s
  else match s.drlPick with
    | none => s
    | some c =>
      let displaced := match s.drl.cur with
        | some d => d != c && s.drlMay d && decide (s.drlPri d < s.drlPri c)
        | none => false
      let s := if displaced then s.perf 21 2 else s
      let s : State := { s with drl := { s.drl with last := Tab.put 31 s.drl.last (s.drlPri c) c, cur := some c } }
      (s.drlRun c rd wr).perf 21 0

/-- The words that the peripheral FIFOs hold at this boundary, in the order of their request lines; the others keep theirs. The rate
at which a peripheral takes or brings words is its own (log entry 118). -/
def State.setFifos (s : State) (ks : List (Fin 17)) : State :=
  { s with drl := { s.drl with fifo := (ks.take 14).zipIdx.foldl (fun t x => Tab.put 0 t x.2 x.1.val) s.drl.fifo } }

def execDrillBurst (fifo : List (Fin 17)) (rd wr : BusResp) (s : State) : Out := .next ((s.setFifos fifo).drlBurst rd wr)

end Sys2Proof.Machine
end

