-- ==== Sys2Proof/Machine/Flags.lean ====
section
/-! DEFINITION. The arithmetic of Kyobel 24 and its flags (R251, R252, R254, R256, R257). -/
namespace Sys2Proof.Machine

/-- What an operation makes of N, Z, C and V; `none` keeps a flag. -/
structure Flags where
  n : Option Bool := none
  z : Option Bool := none
  c : Option Bool := none
  v : Option Bool := none
  deriving DecidableEq, Repr

/-- Put bit `i` of a word where a value is given. -/
def putOpt (w : Word) (i : Nat) : Option Bool → Word
  | none => w
  | some b => if b then w ||| oneBit i else w &&& ~~~ oneBit i

/-- STATUS with new flags: N 23, Z 22, C 21, V 20 (R246). -/
def withFlags (st : Word) (f : Flags) : Word := putOpt (putOpt (putOpt (putOpt st 23 f.n) 22 f.z) 21 f.c) 20 f.v

/-- N and Z of a result. -/
def flagsNZ (r : Word) : Flags := { n := some (bit r 23), z := some (r == 0) }

/-- The signed value of a word (R242). -/
def sx (w : Word) : Int := w.toInt

/-- Is the number outside the signed range of a word? -/
def overWord (i : Int) : Bool := decide (i < -8388608) || decide (8388607 < i)

/-- `a + b + c`: C the carry out of bit 23, V signed overflow (R252). -/
def addFlags (a b : Word) (c : Bool) : Word × Flags :=
  let r := a + b + wd (b2n c)
  (r, { flagsNZ r with c := some (decide (16777216 ≤ a.toNat + b.toNat + b2n c)),
                       v := some (overWord (sx a + sx b + b2n c)) })

/-- `a − b − (1 − c)`: C is 1 where no borrow occurs (R252). -/
def subFlags (a b : Word) (c : Bool) : Word × Flags :=
  let r := a - b - wd (b2n (!c))
  (r, { flagsNZ r with c := some (decide (b.toNat + b2n (!c) ≤ a.toNat)),
                       v := some (overWord (sx a - sx b - b2n (!c))) })

/-- A number held to the signed range of a word. -/
def satWord (i : Int) : Word := wdI (clampI (-8388608) 8388607 i)

/-- ADDS: the sum held to the signed range, C of the plain sum (R252). -/
def addsFlags (a b : Word) : Word × Flags :=
  let r := satWord (sx a + sx b)
  (r, { flagsNZ r with c := (addFlags a b false).2.c, v := (addFlags a b false).2.v })

/-- SUBS. -/
def subsFlags (a b : Word) : Word × Flags :=
  let r := satWord (sx a - sx b)
  (r, { flagsNZ r with c := (subFlags a b true).2.c, v := (subFlags a b true).2.v })

/-- A result with N and Z only. -/
def logicFlags (r : Word) : Word × Flags := (r, flagsNZ r)

/-- C of a shift: the last bit shifted out, kept for count 0 (R252). -/
def shiftFlags (r : Word) (n : Nat) (out : Bool) : Word × Flags :=
  (r, { flagsNZ r with c := if n = 0 then none else some out, v := some false })

/-- SHL by `n`, 0 to 63. -/
def shlFlags (a : Word) (n : Nat) : Word × Flags := shiftFlags (a <<< n) n (decide (n ≤ 24) && bit a (24 - n))

/-- SHR by `n`. -/
def shrFlags (a : Word) (n : Nat) : Word × Flags := shiftFlags (a >>> n) n (decide (1 ≤ n) && bit a (n - 1))

/-- SAR by `n`. -/
def sarFlags (a : Word) (n : Nat) : Word × Flags :=
  shiftFlags (a.sshiftRight n) n (decide (1 ≤ n) && bit (a.sshiftRight (n - 1)) 0)

/-- ROR by `n` mod 24: the last bit rotated out of bit 0 is bit 23 of the result. The count that keeps C is that after the mod
(DEDUCED, log entry 28). -/
def rorFlags (a : Word) (n : Nat) : Word × Flags :=
  let r := a.rotateRight (n % 24)
  shiftFlags r (n % 24) (bit r 23)

/-- NEG (R252). -/
def negFlags (a : Word) : Word × Flags := subFlags 0 a true

/-- ABS: 0x80_0000 gives 0x7F_FFFF with V (R251). -/
def absFlags (a : Word) : Word × Flags :=
  let r := if bit a 23 then (if a = 0x800000 then 0x7FFFFF else 0 - a) else a
  (r, { flagsNZ r with v := some (a == 0x800000) })

/-- Leading zero bits. -/
def clzWord (a : Word) : Nat :=
  match (List.range 24).find? (fun i => bit a (23 - i)) with
  | some i => i
  | none => 24

/-- CLZ writes Z. -/
def clzFlags (a : Word) : Word × Flags := (wd (clzWord a), { z := some (clzWord a == 0) })

/-- The signed minimum. -/
def minWord (a b : Word) : Word := if sx a ≤ sx b then a else b

/-- The signed maximum. -/
def maxWord (a b : Word) : Word := if sx a ≤ sx b then b else a

/-! ## Multiply and divide -/

/-- The signed value of the accumulator. -/
def accInt (a : BitVec 48) : Int := a.toInt

/-- The accumulator that holds a number modulo 2^48. -/
def accOf (i : Int) : BitVec 48 := BitVec.ofInt 48 i

/-- Is the number outside the signed range of the accumulator: does it wrap (R254)? -/
def overAcc (i : Int) : Bool := decide (i < -140737488355328) || decide (140737488355327 < i)

/-- MFR: the accumulator rounded to MH and held to the largest positive value, with V (R254). -/
def mfrFlags (a : BitVec 48) : Word × Flags :=
  let i := accInt a + 8388608
  if 140737488355327 < i then (0x7FFFFF, { v := some true })
  else (wdI (i / 16777216), { v := some false })

/-- The quotient of DIV, truncated toward zero, and whether the divisor is 0 (R256). -/
def divWord (a b : Word) : Word × Bool :=
  if b = 0 then (if bit a 23 then 0x800000 else 0x7FFFFF, true)
  else (satWord (Int.tdiv (sx a) (sx b)), false)

/-- The quotient of DIVU. -/
def divuWord (a b : Word) : Word × Bool :=
  if b = 0 then (0x7FFFFF, true) else (wd (a.toNat / b.toNat), false)

/-- The remainder of the signed division: that of the truncated quotient. -/
def remWord (a b : Word) : Word := wdI (Int.tmod (sx a) (sx b))

/-! ## Conditions -/

/-- Does Bcc with code `c` branch on these flags (R257)? -/
def condHolds (st : Word) (c : Nat) : Bool :=
  let n := bit st 23
  let z := bit st 22
  let cy := bit st 21
  let v := bit st 20
  match c with
  | 0 => z
  | 1 => !z
  | 2 => cy
  | 3 => !cy
  | 4 => n
  | 5 => !n
  | 6 => v
  | 7 => !v
  | 8 => cy && !z
  | 9 => !cy || z
  | 10 => n == v
  | 11 => n != v
  | 12 => !z && n == v
  | _ => z || n != v

end Sys2Proof.Machine
end

