-- ==== Sys2Proof/Machine/Operands.lean ====
section
/-! DEFINITION. The formats of R250: first words of instructions, immediates and offsets. -/
namespace Sys2Proof.Machine

/-- A first word: opcode over bits 15:0. -/
def insWord (op low : Nat) : Word := wd (op * 65536 + low % 65536)

/-- Format R. -/
def fmtR (op : Nat) (d a b : RegNo) : Word := insWord op (d.toNat * 4096 + a.toNat * 256 + b.toNat * 16)

/-- Format I. -/
def fmtI (op : Nat) (d a : RegNo) (imm : BitVec 8) : Word := insWord op (d.toNat * 4096 + a.toNat * 256 + imm.toNat)

/-- Format K. -/
def fmtK (op : Nat) (d : RegNo) (imm : BitVec 12) : Word := insWord op (d.toNat * 4096 + imm.toNat)

/-- Format J. -/
def fmtJ (op : Nat) (off : BitVec 16) : Word := insWord op off.toNat

/-- imm8, sign-extended. -/
def sx8 (i : BitVec 8) : Word := i.signExtend 24

/-- imm8, zero-extended. -/
def zx8 (i : BitVec 8) : Word := i.zeroExtend 24

/-- imm12, sign-extended. -/
def sx12 (i : BitVec 12) : Word := i.signExtend 24

/-- off16, signed. -/
def sx16 (i : BitVec 16) : Word := i.signExtend 24

/-- The count of a register shift, bits 5:0 (R251). -/
def shiftCount (b : Word) : Nat := b.toNat % 64

end Sys2Proof.Machine
end

