-- ==== Sys2Proof/Machine/Caches.lean ====
section
/-! DEFINITION. Page translation, the caches and the store buffer of a processor (R272 to R275, R278 to R283, R293). -/
namespace Sys2Proof.Machine

/-! ## Translation -/

/-- STATUS.DET at a core; at the Steward it has no effect (R283, R293). -/
def State.det (s : State) (p : Nat) : Bool := p != 16 && bit (s.proc p).status 5

/-- The plot whose table translates for processor `p`, and which its accesses carry: 0 at the Steward. -/
def State.plotOf (s : State) (p : Nat) : Nat := s.reqPlot p

/-- The page-table entry of virtual address `v` (R280). -/
def State.pte (s : State) (p : Nat) (v : Word) : Word := s.reg (Reg.PLT_PT (s.plotOf p) (v.toNat / 65536))

/-- Translate `v` for an access that needs the permission bits of mask `need`: the exception cause, or the physical address and
whether the access is handled as on a Device page (R280, R281, R283). The Steward adds its segment and has no page table
(R293, R294). -/
def State.translate (s : State) (p : Nat) (v need : Word) : Except Nat (Nat × Bool) :=
  if p = 16 then .ok ((s.proc 16).dseg.toNat % 16 * 2 ^ 24 + v.toNat, true)
  else
    let e := s.pte p v
    if !bit e 23 then .error 4
    else if e &&& need ≠ need ∨ (!(s.proc p).sup && !bit e 19) then .error 5
    else .ok (getF e ⟨11, 0⟩ * 65536 + v.toNat % 65536, bit e 18 || decide (0x180 ≤ getF e ⟨11, 0⟩) || s.det p)

/-- R, W and X of an entry. -/
def needR : Word := oneBit 22
def needW : Word := oneBit 21
def needX : Word := oneBit 20

/-- The translation cache of 32 entries takes the page, most recently used first (R282). Every copy is dropped before a change of
its entry is acknowledged, so a copy never differs from the table. -/
def State.touchTlb (s : State) (p : Nat) (v : Word) : State :=
  if p = 16 then s
  else s.updProc p (fun x => { x with tlb := (v.toNat / 65536 :: x.tlb.filter (· != v.toNat / 65536)).take 32 })

/-! ## Lines -/

/-- The set of a line (R278). -/
def setOf (ln : Nat) : Nat := ln % 341

/-- Least recently used lines beyond the four ways of the set of `ln`, where `key` is the line of an entry (R278). -/
def victims {α : Type} (key : α → Nat) (l : List α) (ln : Nat) : List α :=
  (l.filter (fun x => setOf (key x) == setOf ln)).drop 4

/-- The instruction cache takes line `ln` (R278). -/
def takeIline (l : List Nat) (ln : Nat) : List Nat :=
  let l := ln :: l.filter (· != ln)
  let out := victims id l ln
  l.filter (fun x => !out.contains x)

/-- Core `c` sends a line back to its directory (R51). It has one writeback under way to each quadrant (R45), so an earlier one
arrives first. -/
def State.sendWb (s : State) (c ln : Nat) (ws : List Word) : State :=
  let q := quadrantOf s.ilv ln
  let s := match s.fab.wbs.find? (fun w => w.core == c && quadrantOf s.ilv w.line == q) with
    | some w => s.takeWriteback c w.line
    | none => s
  { s with fab := { s.fab with wbs := s.fab.wbs ++ [⟨c, ln, ws⟩] } }

/-- The data cache of core `c` takes a line; a modified victim is sent back. -/
def State.takeLine (s : State) (c : Nat) (x : CLine) : State :=
  let l := x :: (s.proc c).dcache.filter (fun y => y.line != x.line)
  let out := victims (·.line) l x.line
  let s := s.updProc c (fun p => { p with dcache := l.filter (fun y => !out.contains y) })
  out.foldl (fun s y => if y.st = .modified then s.sendWb c y.line y.words else s) s

/-- The directory turns to a request of a core for line `ln`: its bank wakes (R48), what queued for the line before it comes first
(R50), and the request takes its tag and gives it back (R40). -/
def State.atLine (s : State) (ln : Nat) : State := ((s.wakeFor (12 * ln)).serveLine ln).passTag

/-- Core `c` reads a line for sharing: exclusive where no other core holds it (R49), which invalidates a static group that watches
the line (R130). -/
def State.fillLine (s : State) (c ln : Nat) : State :=
  let s := (s.atLine ln).shareLine ln
  let others := (List.range 16).any (fun d => d != c && (s.cached d ln).isSome)
  let s := forN 16 (fun d s =>
    if d ≠ c ∧ (s.cached d ln).isSome then
      s.updProc d (fun p => { p with dcache := p.dcache.map (fun y => if y.line = ln then { y with st := .shared } else y) })
    else s) s
  let t := s.takeLine c ⟨ln, if others then .shared else .exclusive, s.cohLine ln⟩
  if others then t else t.touchLine c ln

/-- Core `c` is granted a line for writing (R49, R50, R130). -/
def State.ownLine (s : State) (c ln : Nat) : State :=
  let s := (s.atLine ln).invalidateLine c ln
  (s.takeLine c ⟨ln, .modified, s.cohLine ln⟩).touchLine c ln

/-- Does core `c` hold the line so that a store needs no request? -/
def State.ownsLine (s : State) (c ln : Nat) : Bool :=
  match s.cached c ln with
  | some l => l.st != .shared
  | none => false

/-- A use of a cached line makes it the most recently used (R278). -/
def State.useLine (s : State) (c ln : Nat) : State :=
  match s.cached c ln with
  | some x => s.updProc c (fun p => { p with dcache := x :: p.dcache.filter (fun y => y.line != ln) })
  | none => s

/-- Core `c` stores a word in its data cache, which allocates on write (R278). -/
def State.cacheStore (s : State) (c a : Nat) (v : Word) : State :=
  let ln := lineNo a
  let s := (if s.ownsLine c ln then s.touchLine c ln else s.ownLine c ln).useLine c ln
  s.updProc c (fun p =>
    { p with dcache := p.dcache.map (fun y => if y.line = ln then ⟨ln, .modified, y.words.set (a % 12) v⟩ else y) })

/-- Write back and invalidate the data cache, and invalidate the instruction cache, of core `c` (R283). -/
def State.flushCaches (s : State) (c : Nat) : State :=
  let l := (s.proc c).dcache
  let s := s.updProc c (fun p => { p with dcache := [], icache := [] })
  l.foldl (fun s y => if y.st = .modified then s.sendWb c y.line y.words else s) s

/-! ## The store buffer -/

/-- An event of a core's counters (R464); the Steward's counters have other events. -/
def State.corePerf (s : State) (p code : Nat) : State := if p = 16 then s else s.perf p code

/-- The value of the youngest store that has not reached its line and holds physical address `a` (R273). -/
def State.storeForward (s : State) (p a : Nat) : Option Word :=
  let x := s.proc p
  ((x.drains ++ x.stores).reverse.find? (fun e => e.paddr == a)).map (·.value)

/-- A store of core `p` to a Normal page reaches its line; a failing one makes a bus error pending (R272, R275). -/
def State.settleStore (s : State) (p : Nat) (e : StoreEnt) : State :=
  match s.gateIn p e.paddr true with
  | some x =>
    ((s.refuse p (s.plotOf p) e.paddr x).corePerf p 9).updProc p (fun y => { y with imprecise := y.imprecise ++ [(3, e.vaddr)] })
  | none =>
    if s.det p then (((s.wakeFor e.paddr).serveAt e.paddr).passTag).cohStore p e.paddr e.value
    else s.cacheStore p e.paddr e.value

/-- Does the store need nothing of the fabric, since core `p` owns its line? -/
def State.storesInCache (s : State) (p : Nat) (e : StoreEnt) : Bool := !s.det p && s.ownsLine p (lineNo e.paddr)

/-- A buffered store is refused by the fence of its plot (R56): a bus error becomes pending (R275). -/
def State.refuseStore (s : State) (p : Nat) (e : StoreEnt) : State :=
  (s.corePerf p 9).updProc p (fun y => { y with imprecise := y.imprecise ++ [(3, e.vaddr)] })

/-- A store that has not yet left the buffer reaches its line, unless a fence refuses its request. -/
def State.issueStore (s : State) (p : Nat) (e : StoreEnt) : State :=
  if s.refuses (s.plotOf p) && !s.storesInCache p e then s.refuseStore p e else s.settleStore p e

/-- Every store of processor `p` reaches its line, in program order. -/
def State.flushStores (s : State) (p : Nat) : State :=
  let x := s.proc p
  let s := x.drains.foldl (fun s e => s.settleStore p e) (s.updProc p (fun x => { x with drains := [], stores := [] }))
  State.countTags (x.stores.foldl (fun s e => s.issueStore p e) s)

/-- Are stores of processor `p` under way? -/
def State.storing (s : State) (p : Nat) : Bool := !(s.proc p).stores.isEmpty || !(s.proc p).drains.isEmpty

/-- The class in which processor `p` sends (R15). -/
def procClass (p : Nat) : ReqClass := if p = 16 then .steward else .normal

/-- The oldest store leaves the buffer (R272): into a line that the core owns it goes at once, else it takes a tag (R40) and waits
for the fabric's answer, as does each one behind it. Without a tag it stays (R41); a fence of its plot refuses it (R56). -/
def State.drainStore (s : State) (p : Nat) : State :=
  match (s.proc p).stores with
  | [] => s
  | e :: es =>
    let t := s.updProc p (fun x => { x with stores := es })
    if (s.proc p).drains.isEmpty && s.ownsLine p (lineNo e.paddr) then t.settleStore p e
    else if s.refuses (s.plotOf p) then t.refuseStore p e
    else if (s.drawTag p (procClass p)).isNone then s
    else ((t.updProc p (fun x => { x with drains := x.drains ++ [e] })).countTags).perf 17 0

def execStoreBufferDrain (p : Proc) (s : State) : Out := .next (s.drainStore p.val)

/-! ## Whole accesses -/

/-- Processor `p` waits for the answer of an access, or no more; the access holds a tag meanwhile (R40). -/
def State.setWait (s : State) (p : Nat) (w : Option WaitOp) : State :=
  (s.updProc p (fun x => { x with wait := w })).countTags

/-- Is the line of `a` held by a LOCK read of the Steward's sequencer that waits for its write (R299, R253)? -/
def State.locked (s : State) (a : Nat) : Bool :=
  match s.uc.lock with
  | some b => decide (a < fieldWords ∧ b < fieldWords) && lineNo a == lineNo b
  | none => false

/-- Processor `p` reads the word at `a`, through its data cache unless `dev`: whether it is good (R270, R278, R280). -/
def State.procRead (s : State) (p a : Nat) (dev : Bool) : State × Word × Bool :=
  if dev then
    let (s, x) := (s.serveAt a).txnRead p (s.plotOf p) a
    (s, x.value, x.kind == .ok)
  else if (s.cached p (lineNo a)).isSome then (s.useLine p (lineNo a), s.cohWord a, true)
  else match s.gateIn p a false with
    | some e => (s.refuse p (s.plotOf p) a e, 0, false)
    | none => let s := s.fillLine p (lineNo a); (s, s.cohWord a, true)

/-- Processor `p` writes the word at `a`: whether the fabric took it. A failing store to a Normal page raises its error later
(R275). -/
def State.procWrite (s : State) (p : Nat) (v : Word) (a : Nat) (dev : Bool) (w : Word) : State × Bool :=
  if dev then
    let (s, k) := (s.serveAt a).txnWrite p (s.plotOf p) a w
    (s, k == .ok)
  else (s.settleStore p ⟨v, a, w⟩, true)

/-- The same read as a new request, which a fence of the plot refuses (R56). -/
def State.newRead (s : State) (p a : Nat) (dev : Bool) : State × Word × Bool :=
  if s.refuses (s.plotOf p) && (dev || (s.cached p (lineNo a)).isNone) then (s, 0, false) else s.procRead p a dev

/-- The same write as a new request. -/
def State.newWrite (s : State) (p : Nat) (v : Word) (a : Nat) (dev : Bool) (w : Word) : State × Bool :=
  if dev && s.refuses (s.plotOf p) then (s, false)
  else if dev then s.procWrite p v a true w
  else (s.issueStore p ⟨v, a, w⟩, true)

end Sys2Proof.Machine
end

