-- ==== Sys2Proof/Machine/Harrow.lean ====
section
/-! DEFINITION. The Harrow's commands as its lists hold them, their fetches, and the bursts (R160 to R166, R169, R171, R172). -/
namespace Sys2Proof.Machine

/-- Do something to the running list: it is the head of the active queue, between commands or in a FILL or COPY. -/
def State.hrwActive (s : State) (act : Nat → HrwList → State → State) : State :=
  if !s.hrwRuns then s
  else match s.hrw.active with
    | none => s
    | some q => match s.hrwQueue q with
      | [] => s
      | l :: _ => if l.ended ∨ l.wait.isSome then s else act q l s

/-- Replace the running list of queue `q`. -/
def State.setList (s : State) (q : Nat) (l : HrwList) : State := s.setQueue q (l :: (s.hrwQueue q).drop 1)

/-! ## Commands -/

/-- A command of a list (R161). -/
inductive HrwIns where
  | fin
  | surf (fmt : BitVec 2) (sel : Bool) (base : Word) (stride : BitVec 14)
  | clip (en : Bool) (x0 y0 x1 y1 : BitVec 13)
  | lut (base : Word)
  | key (en : Bool) (key : Word)
  | fill (alpha : BitVec 6) (xdir ydir : Bool) (colour : Word) (dx dy : BitVec 13) (w h : BitVec 14)
  | copy (alpha : BitVec 6) (xdir ydir : Bool) (pal : BitVec 9) (sx sy dx dy : BitVec 13) (w h : BitVec 14)
  | waitwm (b : BeamIx)
  | pub (tine : Tine)
  | reserved (op : BitVec 4)
  deriving DecidableEq, Repr

/-- Words of the command whose first word is `w` (R161). -/
def hrwLen (w : Word) : Nat :=
  match w.toNat / 2 ^ 20 with
  | 1 => 3 | 2 => 5 | 3 => 2 | 4 => 2 | 5 => 6 | 6 => 7 | _ => 1

/-- The command that the words spell, by bits 23:20 of the first (R161). -/
def decodeHarrow (ws : List Word) : HrwIns :=
  let w := ws.headD 0
  let x (i : Nat) : Word := ws.getD i 0
  let c (i : Nat) : BitVec 13 := (x i).setWidth 13
  let e (i : Nat) : BitVec 14 := (x i).setWidth 14
  let al : BitVec 6 := BitVec.ofNat 6 (w.toNat / 2 ^ 14)
  match w.toNat / 2 ^ 20 with
  | 0 => .fin
  | 1 => .surf (BitVec.ofNat 2 (w.toNat / 2 ^ 16)) (bit w 0) (x 1) (e 2)
  | 2 => .clip (bit w 0) (c 1) (c 2) (c 3) (c 4)
  | 3 => .lut (x 1)
  | 4 => .key (bit w 0) (x 1)
  | 5 => .fill al (bit w 13) (bit w 12) (x 1) (c 2) (c 3) (e 4) (e 5)
  | 6 => .copy al (bit w 13) (bit w 12) (w.setWidth 9) (c 1) (c 2) (c 3) (c 4) (e 5) (e 6)
  | 7 => .waitwm (Fin.ofNat 2 w.toNat)
  | 8 => .pub (w.setWidth 6)
  | n => .reserved (BitVec.ofNat 4 n)

/-- The checks of R163. -/
def surfOk (fmt : Nat) (sel : Bool) (stride : Nat) : Bool := (sel || fmt == 0) && decide (1 ≤ stride)
def clipOk (en : Bool) (x0 y0 x1 y1 : Nat) : Bool := !en || decide (x0 ≤ x1 ∧ y0 ≤ y1)
def rectOk (ps : List Nat) (w h : Nat) : Bool :=
  decide (1 ≤ w ∧ w ≤ 8192 ∧ 1 ≤ h ∧ h ≤ 8192) &&
  ps.zipIdx.all (fun p => decide (p.1 + (if p.2 % 2 = 0 then w else h) ≤ 8192))

/-- Does a command pass its check (R163)? -/
def HrwIns.ok : HrwIns → Bool
  | .surf fmt sel _ stride => surfOk fmt.toNat sel stride.toNat
  | .clip en x0 y0 x1 y1 => clipOk en x0.toNat y0.toNat x1.toNat y1.toNat
  | .fill _ _ _ _ dx dy w h => rectOk [dx.toNat, dy.toNat] w.toNat h.toNat
  | .copy _ _ _ _ sx sy dx dy w h => rectOk [sx.toNat, sy.toNat, dx.toNat, dy.toNat] w.toNat h.toNat
  | _ => true

/-- The words of the command at `a`, one read for each 12-word line; `r` is what the first read answers. A read that meets an error
response yields words 0 and counts with cause 5 (R172). -/
def State.hrwWords (s : State) (q pos a : Nat) (r : BusResp) : State × List Word :=
  let p := s.hrwPlot q
  let n := if r ≠ .ok ∨ s.fetchBad p a then 1 else hrwLen (s.fetchZ p a)
  let as := (List.range n).map (a + ·)
  ((as.map (· / 12)).eraseDups).foldl (fun (acc : State × List Word) ln =>
    let mine := as.filter (fun x => x / 12 == ln)
    let t := (acc.1.noteFetches 19 p (mine.take 1)).passTag
    if (ln = a / 12 ∧ r ≠ .ok) ∨ mine.any (s.fetchBad p) then (t.hrwErr 5 q pos, acc.2 ++ mine.map (fun _ => 0))
    else (t, acc.2 ++ mine.map (s.fetchZ p))) (s, [])

/-- A command of the running list is fetched and checked (R163): one that fails is skipped whole, with cause 2, and one that passes waits
to be executed. -/
def State.hrwFetch (s : State) (q : Nat) (l : HrwList) (r : BusResp) : State :=
  let (s, ws) := s.hrwWords q l.pos (16 * l.base + l.pos) r
  if (decodeHarrow ws).ok then s.setList q { l with cmd := some ws }
  else (s.setList q { l with at0 := l.pos, pos := l.pos + ws.length }).hrwErr 2 q l.pos

/-- A command fetch returns (R163, R172); with no tag to draw it waits (R41). -/
def execHarrowFetchResponse (r : BusResp) (s : State) : Out :=
  .next (s.hrwActive (fun q l s =>
    if l.job.isSome || l.cmd.isSome || (s.drawTag 19 .normal).isNone then s else s.hrwFetch q l r))

/-- The command `i` is executed where it is the one fetched for the running list. -/
def State.hrwCommand (s : State) (i : HrwIns) (act : Nat → HrwList → State → State) : State :=
  s.hrwActive (fun q l s =>
    match l.cmd with
    | none => s
    | some ws =>
      if l.job.isSome ∨ decodeHarrow ws ≠ i then s
      else
        let l := { l with at0 := l.pos, pos := l.pos + ws.length, cmd := none }
        act q l (s.setList q l))

/-- END: the list ends, which is a decision point (R161, R168). -/
def execHarrowEnd (s : State) : Out :=
  .next (s.hrwCommand .fin (fun q l s => (s.setList q { l with ended := true }).hrwArbitrate))

/-! ## Surfaces, clip, key, table -/

def execSurf (fmt : BitVec 2) (sel : Bool) (base : Word) (stride : BitVec 14) (s : State) : Out :=
  .next (s.hrwCommand (.surf fmt sel base stride) (fun q l s =>
    s.setList q (if sel then { l with src := (base.toNat, stride.toNat, fmt.toNat) }
      else { l with dst := (base.toNat, stride.toNat) })))

def execClip (en : Bool) (x0 y0 x1 y1 : BitVec 13) (s : State) : Out :=
  .next (s.hrwCommand (.clip en x0 y0 x1 y1) (fun q l s =>
    s.setList q { l with clip := if en then some (x0.toNat, y0.toNat, x1.toNat, y1.toNat) else none }))

def execLut (base : Word) (s : State) : Out :=
  .next (s.hrwCommand (.lut base) (fun q l s => s.setList q { l with lut := base.toNat }))

def execHarrowKey (en : Bool) (key : Word) (s : State) : Out :=
  .next (s.hrwCommand (.key en key) (fun q l s => s.setList q { l with key := if en then some key else none }))

/-! ## Reading -/

/-- Words that the Harrow reads for queue `q`: each 12-word line that answers with an error counts with cause 3, and its words
are 0 (R172). -/
def State.hrwReads (s : State) (q at0 : Nat) (rd : BusResp) (as : List Nat) : State × List (Nat × Word) :=
  let p := s.hrwPlot q
  let lines := (as.map (· / 12)).eraseDups
  lines.foldl (fun acc ln =>
    let mine := as.filter (fun a => a / 12 == ln)
    let acc := (acc.1.passTag, acc.2)
    if rd ≠ .ok then (acc.1.hrwErr 3 q at0, acc.2 ++ mine.map (fun a => (a, 0)))
    else
      let (t, vs, ok) := mine.foldl (fun (x : State × List (Nat × Word) × Bool) a =>
        let (t, r) := x.1.busRead 19 p a
        (t, x.2.1 ++ [(a, r.value)], x.2.2 && r.kind == .ok)) (acc.1, [], true)
      if ok then (t, acc.2 ++ vs) else (t.hrwErr 3 q at0, acc.2 ++ mine.map (fun a => (a, 0)))) (s, [])

/-- The word read at `a`. -/
def readAt (vs : List (Nat × Word)) (a : Nat) : Word := Tab.get 0 vs a

/-- Bits per pixel and pixels per word of a surface format (R160). -/
def fmtBits : Nat → Nat
  | 1 => 3 | 2 => 6 | 3 => 12 | _ => 24
def fmtPix (fmt : Nat) : Nat := 24 / fmtBits fmt

/-- The table that an indexed COPY with `pal` needs: for which list, base, format and PAL (R165). -/
def HrwList.tableKey (l : HrwList) (pal : Nat) : Nat × Nat × Nat × Nat := (l.id, l.lut, l.src.2.2, pal)

/-- Must the table be loaded: is the source indexed, and does the internal table hold another (R165)? -/
def State.hrwNeeds (s : State) (l : HrwList) (pal : Nat) : Bool :=
  l.src.2.2 != 0 && (s.hrw.table.map (·.1)) != some (l.tableKey pal)

/-- The next read of a table load (R165): the entries of one 12-word line. -/
def State.hrwTable (s : State) (q : Nat) (l : HrwList) (pal : Nat) (r : BusResp) : State :=
  let key := l.tableKey pal
  let got := match s.hrw.loading with
    | some (k, ws) => if k = key then ws else []
    | none => []
  let n := 2 ^ fmtBits l.src.2.2
  let a := 16 * l.lut + pal * n % 4096 + got.length
  let k := Nat.min (n - got.length) (12 - a % 12)
  let (s, vs) := s.hrwReads q l.at0 r ((List.range k).map (a + ·))
  let ws := got ++ vs.map (·.2)
  if ws.length < n then { s with hrw := { s.hrw with loading := some (key, ws) } }
  else { s with hrw := { s.hrw with loading := none, table := some (key, ws) } }

/-! ## FILL and COPY -/

def execFill (alpha : BitVec 6) (xdir ydir : Bool) (colour : Word) (dx dy : BitVec 13) (w h : BitVec 14) (s : State) : Out :=
  .next (s.hrwCommand (.fill alpha xdir ydir colour dx dy w h) (fun q l s =>
    let j : HrwJob := ⟨false, alpha.toNat, xdir, ydir, 0, colour, 0, 0, dx.toNat, dy.toNat, w.toNat, h.toNat, 0, 0, [], none, []⟩
    s.setList q { l with job := some j }))

def execCopy (alpha : BitVec 6) (xdir ydir : Bool) (pal : BitVec 9) (sx sy dx dy : BitVec 13) (w h : BitVec 14)
    (s : State) : Out :=
  .next (s.hrwCommand (.copy alpha xdir ydir pal sx sy dx dy w h) (fun q l s =>
    let j : HrwJob := ⟨true, alpha.toNat, xdir, ydir, pal.toNat, 0, sx.toNat, sy.toNat, dx.toNat, dy.toNat, w.toNat, h.toNat,
      0, 0, [], none, []⟩
    s.setList q { l with job := some j }))

/-- The offset in the rectangle of step `n` along one axis of `len` pixels. -/
def stepAt (rev : Bool) (len n : Nat) : Nat := if rev then len - 1 - n else n

/-- Destination pixel of step `c` of the present row. -/
def HrwJob.dstAt (j : HrwJob) (c : Nat) : Nat × Nat := (j.dx + stepAt j.xdir j.w c, j.dy + stepAt j.ydir j.h j.row)

/-- Source pixel of step `c` of the present row. -/
def HrwJob.srcAt (j : HrwJob) (c : Nat) : Nat × Nat := (j.sx + stepAt j.xdir j.w c, j.sy + stepAt j.ydir j.h j.row)

/-- Is the pixel inside the clip rectangle (R164 step 1)? -/
def HrwList.inClip (l : HrwList) (p : Nat × Nat) : Bool :=
  match l.clip with
  | none => true
  | some (x0, y0, x1, y1) => decide (x0 ≤ p.1 ∧ p.1 ≤ x1 ∧ y0 ≤ p.2 ∧ p.2 ≤ y1)

/-- The word that holds a destination pixel, and a source pixel (R160). -/
def HrwList.dstWord (l : HrwList) (p : Nat × Nat) : Nat := 16 * l.dst.1 + p.2 * l.dst.2 + p.1
def HrwList.srcWord (l : HrwList) (p : Nat × Nat) : Nat := 16 * l.src.1 + p.2 * l.src.2.1 + p.1 / fmtPix l.src.2.2

/-- The steps of the row that are left and not clipped. -/
def HrwList.stepsLeft (l : HrwList) (j : HrwJob) : List Nat :=
  ((List.range j.w).drop j.col).filter (fun c => l.inClip (j.dstAt c))

/-- The steps that the next write burst covers: those at the front whose destinations lie in one 12-word line (R169). -/
def HrwList.burstSteps (l : HrwList) (j : HrwJob) : List Nat :=
  match l.stepsLeft j with
  | [] => []
  | c :: cs => c :: cs.takeWhile (fun d => l.dstWord (j.dstAt d) / 12 == l.dstWord (j.dstAt c) / 12)

/-- Does R166 order this COPY's result: FMT 0, one BASE and STRIDE, and the directions that it names? -/
def HrwList.ordered (l : HrwList) (j : HrwJob) : Bool :=
  l.src.2.2 == 0 && l.src.1 == l.dst.1 && l.src.2.1 == l.dst.2 &&
  (if j.dy = j.sy then (if j.dx = j.sx then true else j.xdir == decide (j.sx < j.dx)) else j.ydir == decide (j.sy < j.dy))

/-- The source pixel of step `c`: its raw value and its colour, none where the key drops it (R164 steps 2 to 4). -/
def State.hrwPixel (s : State) (l : HrwList) (j : HrwJob) (c : Nat) (w : Word) : Option Word :=
  let fmt := l.src.2.2
  let d := fmtBits fmt
  let v := w.toNat / 2 ^ (24 - d * ((j.srcAt c).1 % fmtPix fmt + 1)) % 2 ^ d
  let keyed := match l.key with
    | some k => v == k.toNat % 2 ^ d
    | none => false
  if keyed then none
  else if fmt = 0 then some (wd v)
  else some ((s.hrw.table.map (fun t => t.2.getD v 0)).getD 0)

/-- One step of a burst: the source word that a COPY takes, old or new where no order is given (R166); the pixel; the write.
`ow` holds the words overwritten in this command. -/
def State.hrwStep (s : State) (q : Nat) (l : HrwList) (j : HrwJob) (wr : BusResp) (src dst : List (Nat × Word)) (c : Nat)
    (ow : Tab (Option Word) × List (Nat × Word) × Bool) : State × (Tab (Option Word) × List (Nat × Word) × Bool) :=
  let (olds, news, bad) := ow
  let da := l.dstWord (j.dstAt c)
  let sa := l.srcWord (j.srcAt c)
  let new := ((news.find? (fun e => e.1 == sa)).map (·.2)).getD (readAt src sa)
  let (w, s) : Word × State := match (if j.copy then Tab.get none olds sa else none) with
    | some old => (if bit (Config.freeValue s.freeCtr) 0 then old else new, s.useFree)
    | none => (new, s)
  match (if j.copy then s.hrwPixel l j c w else some j.colour) with
  | none => (s, ow)
  | some p =>
    let was := readAt dst da
    let out := blend p j.alpha was
    let track := j.copy && !l.ordered j && (Tab.get none olds da).isNone
    let olds := if track then Tab.put none olds da (some (s.cohWord da)) else olds
    if wr ≠ .ok then (s, (olds, news, true))
    else
      let (t, k) := s.busWrite 19 (s.hrwPlot q) da out
      if k = .ok then (t, (olds, (da, out) :: news, bad)) else (t, (olds, news, true))

/-- May the source word of step `c` be one that this command overwrites, where R166 gives no order? -/
def HrwList.unclear (l : HrwList) (j : HrwJob) (cs : List Nat) (c : Nat) : Bool :=
  let a := l.srcWord (j.srcAt c)
  j.copy && !l.ordered j && ((Tab.get none j.olds a).isSome || cs.any (fun d => l.dstWord (j.dstAt d) == a))

/-- The steps of the next write burst whose pixels are written: the key drops the others of a COPY (R164 step 3). -/
def State.hrwLive (s : State) (l : HrwList) (j : HrwJob) : List Nat :=
  let cs := l.burstSteps j
  cs.filter (fun c => !j.copy || l.unclear j cs c || (s.hrwPixel l j c (readAt j.got (l.srcWord (j.srcAt c)))).isSome)

/-- The source words of the next write burst that are not read yet. -/
def HrwList.missing (l : HrwList) (j : HrwJob) : List Nat :=
  if j.copy then ((l.burstSteps j).map (fun c => l.srcWord (j.srcAt c))).eraseDups.filter (fun a => !j.got.any (·.1 == a)) else []

/-- Past the pixels of the next write burst. -/
def HrwList.pass (l : HrwList) (j : HrwJob) (olds : Tab (Option Word)) : HrwList :=
  { l with job := some { j with col := ((l.burstSteps j).getLast?.map (· + 1)).getD j.w, got := [], under := none, olds := olds } }

/-- A read burst of the source: the words missing that lie in one line. Where the key then drops every pixel, nothing is written for
them. -/
def State.hrwSource (s : State) (q : Nat) (l : HrwList) (j : HrwJob) (a : Nat) (r : BusResp) : State :=
  let (s, vs) := s.hrwReads q l.at0 r ((l.missing j).filter (fun x => x / 12 == a / 12))
  let j := { j with got := j.got ++ vs }
  s.setList q (if (l.missing j).isEmpty && (s.hrwLive l j).isEmpty then l.pass j j.olds else { l with job := some j })

/-- A read burst of the destination, with ALPHA below 63: the words of the pixels that are written (R164 step 5). -/
def State.hrwUnder (s : State) (q : Nat) (l : HrwList) (j : HrwJob) (r : BusResp) : State :=
  let (s, vs) := s.hrwReads q l.at0 r ((s.hrwLive l j).map (fun c => l.dstWord (j.dstAt c)))
  s.setList q { l with job := some { j with under := some vs } }

/-- A write burst (R164 step 6). -/
def State.hrwWrite (s : State) (q : Nat) (l : HrwList) (j : HrwJob) (r : BusResp) : State :=
  let (s, olds, _, bad) := (s.hrwLive l j).foldl (fun x c => x.1.hrwStep q l j r j.got (j.under.getD []) c x.2) (s.passTag, (j.olds, [], false))
  (if bad then s.hrwErr 4 q l.at0 else s).setList q (l.pass j olds)

/-- The next burst: one access inside one line (R169), which meets the answer `r`. A table load goes first (R165); then, for the pixels
whose destinations lie in one line, the source words, the destination words where they are blended, and the write. Table reads are no
data bursts. -/
def State.hrwBurst (s : State) (q : Nat) (l : HrwList) (j : HrwJob) (r : BusResp) : State :=
  if (l.burstSteps j).isEmpty then s.setList q (l.pass j j.olds)
  else if j.copy && s.hrwNeeds l j.pal then s.hrwTable q l j.pal r
  else match l.missing j with
    | a :: _ => (s.hrwSource q l j a r).perf 20 0
    | [] =>
      if decide (j.alpha < 63) && j.under.isNone then (s.hrwUnder q l j r).perf 20 0 else (s.hrwWrite q l j r).perf 20 0

/-- A burst is issued where the requester may draw a tag (R41, R169). -/
def execHarrowBurst (r : BusResp) (s : State) : Out :=
  .next (s.hrwActive (fun q l s => match l.job with
    | none => s
    | some j => if (s.drawTag 19 .normal).isNone then s else s.hrwBurst q l j r))

/-- A row ends once its last burst is issued: the next row or the end of the command, and a decision (R166, R168). -/
def State.hrwRowEnd (s : State) (q : Nat) (l : HrwList) (j : HrwJob) : State :=
  if !(l.stepsLeft j).isEmpty then s
  else if j.row + 1 < j.h then (s.setList q { l with job := some { j with row := j.row + 1, col := 0 } }).hrwArbitrate
  else (s.setList q { l with job := none }).hrwArbitrate

def execRowEnd (s : State) : Out :=
  .next (s.hrwActive (fun q l s => match l.job with
    | none => s
    | some j => s.hrwRowEnd q l j))

/-! ## The other commands -/

/-- WAITWM: the list waits for the beam's next WM event, which is a decision point (R168, R171). -/
def execWaitwm (b : BeamIx) (s : State) : Out :=
  .next (s.hrwCommand (.waitwm b) (fun q l s => ((s.setList q { l with wait := some b.val }).perf 20 3).hrwArbitrate))

def execHarrowPub (tine : Tine) (s : State) : Out :=
  .next (s.hrwCommand (.pub tine) (fun _ _ s => s.publish tine.toNat))

/-- A reserved opcode abandons the list with cause 1 (R161). -/
def execHarrowReservedOpcode (op : BitVec 4) (s : State) : Out :=
  .next (s.hrwCommand (.reserved op) (fun q l s =>
    State.hrwArbitrate ((s.hrwErr 1 q l.at0).setQueue q ((s.hrwQueue q).drop 1))))

end Sys2Proof.Machine
end

