-- ==== Sys2Proof/Machine/Pipeline.lean ====
section
/-! DEFINITION. How a processor executes an instruction (R247, R248, R258, R262, R263, R284 to R292): what must hold before
it, what completes it, exceptions, interrupts, halts, samples. -/
namespace Sys2Proof.Machine

/-! ## Status -/

/-- Processor `p` takes a STATUS value at once. DET going to 1 at a core writes back and invalidates its caches (R283). -/
def State.putStatus (s : State) (p : Nat) (v : Word) : State :=
  let was := s.det p
  let s := s.updProc p (fun x => { x with status := statusOf p v })
  if s.det p && !was then s.flushCaches p else s

/-- A pending change of mode bits takes effect (R248). -/
def State.commit (s : State) (p : Nat) (h : Shadow) : State :=
  s.putStatus p (((s.proc p).status &&& ~~~ h.clrBits) ||| h.setBits)

/-- Every pending change takes effect, in the order made (R285 step 2, R289). -/
def State.commitAll (s : State) (p : Nat) : State :=
  (s.proc p).shadows.foldl (fun s h => s.commit p h) (s.updProc p (fun x => { x with shadows := [] }))

/-- The flags of processor `p` after an operation. -/
def State.setFlags (s : State) (p : Nat) (f : Flags) : State :=
  s.updProc p (fun x => { x with status := withFlags x.status f })

/-- Set register W`n` of processor `p`. -/
def State.setW (s : State) (p : Nat) (n : RegNo) (v : Word) : State := s.updProc p (fun x => x.setW n.toNat v)

/-- Register W`n` of processor `p`. -/
def State.getW (s : State) (p : Nat) (n : RegNo) : Word := (s.proc p).reg n.toNat

/-! ## Boundaries -/

/-- Is the Steward's sequencer inside an instruction: a custom one, or one whose microwords are commands (R298)? -/
def State.inMicro (s : State) : Bool := s.uc.custom.isSome || s.uc.mid

/-- The first store address with wrong parity among those that the sequencer reads for the base microcode that begins at offset `o`:
the entry, and what Config.microPath gives (R302). -/
def State.badOnPath (s : State) (o : Nat) : Option Nat :=
  if s.uc.bad.isEmpty then none
  else ((o :: Config.microPath o).map (fun x => (if s.ucLegacy then 0 else s.ucBank * 0x2000) + x % 0x2000)).find? s.uc.bad.contains

/-- Is processor `p` at an instruction boundary that R284 allows: not before a delay slot, not in the shadow of an RTE, not inside
an instruction? -/
def State.boundary (s : State) (p : Nat) : Bool :=
  let x := s.proc p
  x.slot.isNone && x.exit.isNone && x.wait.isNone && !(p == 16 && s.inMicro)

/-- Can processor `p` run: is it powered, started, not stopped by an exception, a machine check, the debugger or a fence, and not
waiting for an access? -/
def State.canRun (s : State) (p : Nat) : Bool :=
  let x := s.proc p
  !x.parked && !x.faulted && !s.halted p && x.wait.isNone &&
    (if p = 16 then s.dom 2 && !s.uc.stopped else s.dom (4 + p / 4) && !s.plotFenced (s.corePlot p))

/-- Is an imprecise exception due at this boundary, one at which an interrupt could be taken, which needs IE 1 (R275 to R277,
R284)? -/
def State.impDue (s : State) (p : Nat) : Bool :=
  s.boundary p && bit (s.proc p).status 6 && !(s.proc p).imprecise.isEmpty && (s.proc p).impDepth == 0

/-- What is due at a boundary after an instruction: a halt of a comparator or a BRK, or the halt after a step (R460, R462). -/
def State.settle (s : State) (p : Nat) : State :=
  if !s.boundary p || (s.proc p).faulted || s.halted p then s
  else match (s.proc p).haltDue with
    | some (why, k) =>
      let s := s.halt p why k false
      s.updProc p (fun x => { x with haltDue := none, atBrk := false })
    | none => if (s.proc p).stepping then s.halt p 4 0 false else s

/-! ## Entry -/

/-- The vector of offset `o` (R287). -/
def vector (x : ProcSt) (o : Nat) : Word := (x.evec &&& 0xFFFFF0) + wd o

/-- Step 5 of R285: the cause, supervisor mode with interrupts off, the vector. -/
def State.enterAt (s : State) (p cause o : Nat) : State :=
  (s.updProc p (fun x =>
    { x with ecause := wd cause, status := statusOf p ((x.status ||| 0x80) &&& ~~~ 0x40), pc := vector x o, slot := none,
             exit := none, accHist := [], waiting := false, cmpDone := false })).corePerf p 8

/-- One more handler runs over that of an imprecise exception (R277). -/
def State.deeper (s : State) (p : Nat) : State :=
  s.updProc p (fun x => { x with impDepth := if x.impDepth = 0 then 0 else x.impDepth + 1 })

/-- Processor `p` takes the exception `cause` with its detail, and EADDR where it has one (R268, R285, R287 to R289, R291, R293): in
the shadow of an RTE a core stops and the Steward has a machine check. `at` is EPC where no branch is in front. -/
def State.takeAt (s : State) (p cause detail : Nat) (ea : Option Word) (epc : Word) : State :=
  if (s.proc p).exit.isSome then
    if p = 16 then s.machineCheck 5 s.uc.upc else s.updProc p (fun x => { x with faulted := true })
  else
    let s := (s.commitAll p).deeper p
    let s := s.updProc p (fun x =>
      { x with epc := match x.slot with
                 | some (b, _) => b
                 | none => epc,
               estatus := x.status ||| (if x.slot.isSome then 0x100 else 0),
               eaddr := ea.getD x.eaddr })
    s.enterAt p (cause + 256 * detail) (8 * cause)

/-- An exception of the instruction at PC. -/
def State.take (s : State) (p cause detail : Nat) (ea : Option Word) : State := s.takeAt p cause detail ea (s.proc p).pc

/-- The oldest imprecise exception that is pending is taken (R275 to R277), or at a BARRIER inside the handler of an earlier one the
oldest that was not pending together with that one; what is then pending waits for the return of its handler. -/
def State.takeImprecise (s : State) (p : Nat) : State :=
  let x := s.proc p
  let k := if x.impDepth = 0 then 0 else x.impHeld
  match x.imprecise[k]? with
  | none => s
  | some (c, a) =>
    let s := s.updProc p (fun x => { x with imprecise := x.imprecise.eraseIdx k, impHeld := x.imprecise.length - 1 })
    let s := s.take p c 0 (if c = 3 ∨ c = 11 then some a else none)
    s.updProc p (fun x => { x with impDepth := Nat.max 1 x.impDepth })

/-- Steps 4 and 5 of R285 for an interrupt: the level presented now is acknowledged and vectored to. -/
def State.vectorIrq (s : State) (p : Nat) : State :=
  let (s, l) := s.irqAck p
  s.enterAt p (256 * l) (0x100 + 8 * l)

/-- An interrupt is taken at a boundary (R285). -/
def State.enterIrq (s : State) (p : Nat) : State :=
  let s := (s.commitAll p).deeper p
  (s.updProc p (fun x => { x with epc := x.pc, estatus := x.status })).vectorIrq p

/-- An interrupt taken in place of a return (R292). -/
def State.tailChain (s : State) (p : Nat) : State := (s.commitAll p).vectorIrq p

/-- Does the debugger keep interrupts from the step that runs (R460)? -/
def State.maskedStep (s : State) (p : Nat) : Bool := (s.proc p).stepping && s.bitAt (Reg.DBG_PR_CTRL p) 1

/-- Would processor `p` take an interrupt at this boundary: a request with IE 1 (R285)? -/
def State.irqDue (s : State) (p : Nat) : Bool :=
  s.boundary p && bit (s.proc p).status 6 && s.irqRequest p && !s.maskedStep p

/-- A presented request at processor `p` (R277, R284, R285): imprecise exceptions first; a request ends a WAIT even where IE is 0.
In the shadow of an RTE none is taken; at its end one may replace the return (R292). -/
def State.interrupt (s : State) (p : Nat) : State :=
  if !s.canRun p then s
  else if (s.proc p).exit.isSome then s
  else if s.impDue p then (s.takeImprecise p).settle p
  else if s.irqDue p then (s.enterIrq p).settle p
  else if s.boundary p && s.irqRequest p then s.updProc p (fun x => { x with waiting := false })
  else s

def execInterruptEntry (p : Proc) (s : State) : Out := .next (s.interrupt p.val)

/-- A requested halt is taken at a boundary that R284 allows: not between a branch and its slot, inside an instruction or in the
shadow of an RTE (R458); where an entry falls on the same boundary it completes first, and the halt falls at its vector (R461). -/
def execHaltTaken (p : Proc) (s : State) : Out :=
  let s := if s.bitAt Reg.DBG_HALT p.val then s.interrupt p.val else s
  let x := s.proc p.val
  .next (if s.bitAt Reg.DBG_HALT p.val && x.slot.isNone && x.exit.isNone && x.wait.isNone &&
      !(p.val == 16 && s.uc.custom.isSome) then s.halt p.val 1 0 false else s)

/-! ## Completion -/

/-- A precise sample (R467): every PERIOD-th retired instruction. The cycles that it took are a free value (log entry 5). -/
def State.sample (s : State) (p : Nat) (word : Word) (x : ProcSt) : State :=
  if p = 16 || !s.bitAt (Reg.GLN_SMP_CFG p) 23 then s
  else
    let n := x.since + 1
    if n < Nat.max 1 (s.fld (Reg.GLN_SMP_CFG p) Fd.GLN_SMP_CFG_PERIOD) then s.updProc p (fun y => { y with since := n })
    else
      let bits := b2n x.slot.isSome * 2 ^ 23 + b2n (bit x.status 7) * 2 ^ 22 + b2n (bit x.status 5) * 2 ^ 21 +
        b2n (s.proc p).missed * 2 ^ 20
      let r : List Word := [x.pc, word, wd (bits + (Config.freeValue s.freeCtr).toNat % 65536)]
      let s := s.useFree.updProc p (fun y => { y with since := 0 })
      let a := Reg.GLN_SMP_STAT p
      let fill := (s.proc p).samples.length
      if 32 ≤ fill then
        let lost := s.fld a Fd.GLN_SMP_STAT_LOST
        s.setFld a Fd.GLN_SMP_STAT_LOST (Nat.min 65535 (lost + 1))
      else
        let s := (s.updProc p (fun y => { y with samples := y.samples ++ [r] })).setFld a Fd.GLN_SMP_STAT_FILL (fill + 1)
        if fill + 1 = 16 then s.setBit Reg.GLN_EVT 4 else s

/-- The events of a core that rest on its timing (R464): the cycles since the instruction before, whether it was issued in a pair and
whether its branch was mispredicted are free values, drawn where a counter counts them (log entry 159). -/
def State.cycleCounts (s : State) (p : Nat) : State :=
  if decide (p < 16) && (List.range 4).any (fun k => s.counts p k 0 || s.counts p k 2 || s.counts p k 5) then
    let f := (Config.freeValue s.freeCtr).toNat
    ((s.useFree.perf p 0 (1 + f % 65536)).perf p 2 (f / 65536 % 2)).perf p 5 (f / 131072 % 2)
  else s

/-- The mode changes whose shadow ends with this instruction take effect; the others count it (R248). -/
def State.stepShadows (s : State) (p : Nat) : State :=
  let l := (s.proc p).shadows.map (fun h => { h with left := h.left - 1 })
  (l.filter (fun h => h.left == 0)).foldl (fun s h => s.commit p h)
    (s.updProc p (fun x => { x with shadows := l.filter (fun h => h.left != 0) }))

/-- The shadow of an RTE counts an instruction; at its end STATUS and PC are those of the interrupted context (R291), unless a
request that this context would accept is taken in place of the return (R292). -/
def State.stepExit (s : State) (p : Nat) : State :=
  match (s.proc p).exit with
  | none => s
  | some n =>
    if 1 < n then s.updProc p (fun x => { x with exit := some (n - 1) })
    else if bit (s.proc p).estatus 6 && s.irqRequest p && !s.maskedStep p then s.tailChain p
    else
      (s.putStatus p (s.proc p).estatus).updProc p (fun x => { x with exit := none, pc := x.epc, impDepth := x.impDepth - 1 })

/-- The instruction at PC is complete (R248, R255, R258, R262, R291): `word` its first word, `acc` the accumulator before it,
`next` where execution goes on without a branch in front, `slot` the branch that it is. -/
def State.retire (s : State) (p : Nat) (word : Word) (acc : BitVec 48) (next : Word) (slot : Option (Word × Option Word)) :
    State :=
  let x := s.proc p
  let s := ((s.perf p 1).cycleCounts p).sample p word x
  let target := match x.slot with
    | some (_, t) => t.getD next
    | none => next
  let looping := decide (x.lc ≠ 0) && x.pc == x.lea
  let lc := if looping then x.lc - 1 else x.lc
  let s := s.updProc p (fun y =>
    { y with pc := if looping && lc != 0 then x.lsa else target, lc := lc, slot := slot, cmpDone := false,
             accHist := (acc :: y.accHist).take 3 })
  (s.stepShadows p).stepExit p

/-- What an instruction does. -/
inductive Run where
  /-- It completes, and the next one follows. -/
  | done (s : State)
  /-- It completes, and execution goes on at `pc`. -/
  | goto (s : State) (pc : Word)
  /-- A branch with its delay slot behind it, and its target where taken. -/
  | branch (s : State) (target : Option Word)
  /-- It takes an exception. -/
  | raise (s : State) (cause detail : Nat) (ea : Option Word)
  /-- It waits for the answer of an access (`ProcSt.wait`). -/
  | hold (s : State)
  /-- It waits at issue: nothing has happened but an event that a counter counts. -/
  | stall (code : Option Nat)
  /-- The processor stops at it. -/
  | stop (s : State)

/-- An instruction as the pipeline sees it: its first word, its length, whether it may not stand in a delay slot or in the shadow of
an RTE (R258, R291), whether it may not end a loop (R263), the registers it reads or writes (R270). -/
structure Ins where
  word : Word
  len : Nat := 1
  jump : Bool := false
  endBad : Bool := false
  regs : List RegNo := []
  deriving DecidableEq, Repr

/-- Its opcode. -/
def Ins.op (i : Ins) : Nat := getF i.word ⟨23, 16⟩

/-- The fetch of the word at `v` by processor `p`: an exception cause, or the state with its caches. The word itself is what the
command says (log entry 29). -/
def State.fetchWord (s : State) (p : Nat) (v : Word) : Except (State × Nat) State :=
  if p = 16 then
    let a := (s.proc 16).cseg.toNat % 16 * 2 ^ 24 + v.toNat
    match s.gate 16 0 a false with
    | some e => .error (s.refuse 16 0 a e, 3)
    | none => .ok s
  else match s.translate p v needX with
    | .error c => .error (s, c)
    | .ok (a, dev) =>
      let s := s.touchTlb p v
      if !dev && (s.proc p).icache.contains (lineNo a) then
        .ok (s.updProc p (fun x => { x with icache := takeIline x.icache (lineNo a) }))
      else match s.gate p (s.plotOf p) a false with
        | some e => .error ((s.refuse p (s.plotOf p) a e).corePerf p 9, 3)
        | none =>
          if dev then .ok s
          else .ok ((s.updProc p (fun x => { x with icache := takeIline x.icache (lineNo a), missed := true })).corePerf p 3)

/-- The fetch of an instruction of `n` words: what faults reports EADDR at its own word (R281). -/
def State.fetchIns (s : State) (p n : Nat) : Except (State × Nat × Word) State :=
  let pc := (s.proc p).pc
  match s.fetchWord p pc with
  | .error (s, c) => .error (s, c, pc)
  | .ok s =>
    if n = 2 then match s.fetchWord p (pc + 1) with
      | .error (s, c) => .error (s, c, pc + 1)
      | .ok s => .ok s
    else .ok s

/-- The address that a comparator sees of an instruction at `v`: virtual at a core, physical at the Steward (R462). -/
def State.fetchAddr (s : State) (p : Nat) (v : Word) : Nat :=
  if p = 16 then (s.proc 16).cseg.toNat % 16 * 2 ^ 24 + v.toNat else v.toNat

/-- The fetch matches of the instruction at PC, and of the delay slot of a branch (R462): the halt that one of them asks for, with
whether the slot matched. An instruction in a slot has had its matches with its branch. -/
def State.fetchMatches (s : State) (p : Nat) (branch : Bool) : State × Option (Nat × Bool) :=
  let x := s.proc p
  if x.cmpDone || x.slot.isSome then (s, none)
  else
    let (s, h) := s.cmpHit p 0 (s.fetchAddr p x.pc) x.sup
    let (s, g) := if branch then s.cmpHit p 0 (s.fetchAddr p (x.pc + 1)) x.sup else (s, none)
    (s, match h, g with
        | some k, _ => some (k, false)
        | none, some k => some (k, true)
        | none, none => none)

/-- Does the instruction have a delay slot (R258)? -/
def hasSlot (op : Nat) : Bool := op == 0x40 || op == 0x41 || (decide (0x50 ≤ op) && decide (op ≤ 0x5D))

/-- The instruction, once fetched: the loop-end exception (R263), the jumps that may not stand in a slot or in the shadow of an RTE
(R258, R291), else what it does. -/
def State.decode (s : State) (p : Nat) (i : Ins) (body : State → Run) : Run :=
  let x := s.proc p
  if x.lc ≠ 0 ∧ x.pc = x.lea ∧ (i.endBad ∨ x.slot.isSome) then .raise s 10 0 none
  else if i.jump ∧ (x.slot.isSome ∨ x.exit.isSome) then .raise s 1 i.op none
  else body s

/-- What became of the instruction, carried out on the processor; `s0` is the state before it. -/
def State.finish (s0 : State) (p : Nat) (i : Ins) (acc : BitVec 48) (r : Run) : State :=
  let after (s : State) : Word := (s.proc p).pc + wd i.len
  match r with
  | .done s => (s.retire p i.word acc (after s) none).settle p
  | .goto s pc => (s.retire p i.word acc pc none).settle p
  | .branch s t => s.retire p i.word acc (after s) (some ((s.proc p).pc, t))
  | .raise s c d ea => (s.take p c d ea).settle p
  | .hold s => s
  | .stall none => s0
  | .stall (some c) => s0.corePerf p c
  | .stop s => s

/-- Processor `p` executes the instruction at PC (R277, R284, R460, R462): nothing where it cannot run; an imprecise exception that is
due comes first, as does an interrupt of a step; a WAIT holds it; so does a register that a division has not yet written. -/
def State.issue (s : State) (p : Nat) (i : Ins) (body : State → Run) : State :=
  if !s.canRun p || (p == 16 && s.inMicro) then s
  else if s.impDue p then (s.takeImprecise p).settle p
  else if (s.proc p).waiting && (!s.irqRequest p || s.irqDue p) then s
  else if (s.proc p).stepping && s.irqDue p then (s.enterIrq p).settle p
  else if (s.proc p).longs.any (fun l => l.dest.any (fun d => i.regs.contains d.1)) then s
  else
    let (s', m) := s.fetchMatches p (hasSlot i.op)
    match m with
    | some (k, ds) => (s'.halt p 2 k ds).updProc p (fun x => { x with cmpDone := true })
    | none =>
      let s' := s'.updProc p (fun x => { x with waiting := false, missed := false })
      let acc := (s.proc p).acc
      match s'.fetchIns p i.len with
      | .error (t, c, a) => (t.take p c 0 (some a)).settle p
      | .ok t =>
        match (if p = 16 then s.badOnPath (4 * i.op) else none) with
        | some a => t.machineCheck 1 a
        | none => s.finish p i acc (t.decode p i body)

/-- A core's privilege: is processor `p` in user mode? -/
def State.user (s : State) (p : Nat) : Bool := !(s.proc p).sup

end Sys2Proof.Machine
end

