-- ==== Sys2Proof/Machine/IsaAlu.lean ====
section
/-! DEFINITION. The arithmetic, logic, shift, constant and multiply-unit instructions (R251 to R256). -/
namespace Sys2Proof.Machine

/-- Write a result and its flags. -/
def State.writeAlu (s : State) (p : Nat) (d : RegNo) (x : Word × Flags) : State := (s.setW p d x.1).setFlags p x.2

/-- A format R instruction with a result; `f` gets STATUS, Wa and Wb. -/
def State.aluR (s : State) (p op : Nat) (d a b : RegNo) (f : Word → Word → Word → Word × Flags) : State :=
  s.issue p { word := fmtR op d a b, regs := [d, a, b] } (fun s =>
    .done (s.writeAlu p d (f (s.proc p).status (s.getW p a) (s.getW p b))))

/-- A format R instruction of one source register. -/
def State.aluU (s : State) (p op : Nat) (d a : RegNo) (f : Word → Word × Flags) : State :=
  s.issue p { word := fmtR op d a 0, regs := [d, a] } (fun s => .done (s.writeAlu p d (f (s.getW p a))))

/-- A format I instruction with a result; `f` gets Wa. -/
def State.aluI (s : State) (p op : Nat) (d a : RegNo) (imm : BitVec 8) (f : Word → Word × Flags) : State :=
  s.issue p { word := fmtI op d a imm, regs := [d, a] } (fun s => .done (s.writeAlu p d (f (s.getW p a))))

/-- An instruction that writes flags only. -/
def State.aluF (s : State) (p : Nat) (word : Word) (a b : RegNo) (f : Word → Word → Word × Flags) : State :=
  s.issue p { word := word, regs := [a, b] } (fun s => .done (s.setFlags p (f (s.getW p a) (s.getW p b)).2))

/-- STATUS.C. -/
def carry (st : Word) : Bool := bit st 21

def execNop (p : Proc) (s : State) : Out := .next (s.issue p.val { word := 0 } .done)

def execAdd (p : Proc) (d a b : RegNo) (s : State) : Out :=
  .next (s.aluR p.val 0x01 d a b (fun _ x y => addFlags x y false))

def execAdc (p : Proc) (d a b : RegNo) (s : State) : Out :=
  .next (s.aluR p.val 0x02 d a b (fun st x y => addFlags x y (carry st)))

def execSub (p : Proc) (d a b : RegNo) (s : State) : Out :=
  .next (s.aluR p.val 0x03 d a b (fun _ x y => subFlags x y true))

def execSbc (p : Proc) (d a b : RegNo) (s : State) : Out :=
  .next (s.aluR p.val 0x04 d a b (fun st x y => subFlags x y (carry st)))

def execAnd (p : Proc) (d a b : RegNo) (s : State) : Out :=
  .next (s.aluR p.val 0x05 d a b (fun _ x y => logicFlags (x &&& y)))

def execOr (p : Proc) (d a b : RegNo) (s : State) : Out :=
  .next (s.aluR p.val 0x06 d a b (fun _ x y => logicFlags (x ||| y)))

def execXor (p : Proc) (d a b : RegNo) (s : State) : Out :=
  .next (s.aluR p.val 0x07 d a b (fun _ x y => logicFlags (x ^^^ y)))

def execShl (p : Proc) (d a b : RegNo) (s : State) : Out :=
  .next (s.aluR p.val 0x08 d a b (fun _ x y => shlFlags x (shiftCount y)))

def execShr (p : Proc) (d a b : RegNo) (s : State) : Out :=
  .next (s.aluR p.val 0x09 d a b (fun _ x y => shrFlags x (shiftCount y)))

def execSar (p : Proc) (d a b : RegNo) (s : State) : Out :=
  .next (s.aluR p.val 0x0A d a b (fun _ x y => sarFlags x (shiftCount y)))

def execRor (p : Proc) (d a b : RegNo) (s : State) : Out :=
  .next (s.aluR p.val 0x0B d a b (fun _ x y => rorFlags x (shiftCount y)))

def execMin (p : Proc) (d a b : RegNo) (s : State) : Out :=
  .next (s.aluR p.val 0x0C d a b (fun _ x y => logicFlags (minWord x y)))

def execMax (p : Proc) (d a b : RegNo) (s : State) : Out :=
  .next (s.aluR p.val 0x0D d a b (fun _ x y => logicFlags (maxWord x y)))

def execAdds (p : Proc) (d a b : RegNo) (s : State) : Out :=
  .next (s.aluR p.val 0x0E d a b (fun _ x y => addsFlags x y))

def execSubs (p : Proc) (d a b : RegNo) (s : State) : Out :=
  .next (s.aluR p.val 0x0F d a b (fun _ x y => subsFlags x y))

def execAddi (p : Proc) (d a : RegNo) (imm : BitVec 8) (s : State) : Out :=
  .next (s.aluI p.val 0x10 d a imm (fun x => addFlags x (sx8 imm) false))

def execAndi (p : Proc) (d a : RegNo) (imm : BitVec 8) (s : State) : Out :=
  .next (s.aluI p.val 0x11 d a imm (fun x => logicFlags (x &&& zx8 imm)))

def execOri (p : Proc) (d a : RegNo) (imm : BitVec 8) (s : State) : Out :=
  .next (s.aluI p.val 0x12 d a imm (fun x => logicFlags (x ||| zx8 imm)))

def execXori (p : Proc) (d a : RegNo) (imm : BitVec 8) (s : State) : Out :=
  .next (s.aluI p.val 0x13 d a imm (fun x => logicFlags (x ^^^ zx8 imm)))

def execShli (p : Proc) (d a : RegNo) (n : BitVec 5) (s : State) : Out :=
  .next (s.aluI p.val 0x14 d a (n.zeroExtend 8) (fun x => shlFlags x n.toNat))

def execShri (p : Proc) (d a : RegNo) (n : BitVec 5) (s : State) : Out :=
  .next (s.aluI p.val 0x15 d a (n.zeroExtend 8) (fun x => shrFlags x n.toNat))

def execSari (p : Proc) (d a : RegNo) (n : BitVec 5) (s : State) : Out :=
  .next (s.aluI p.val 0x16 d a (n.zeroExtend 8) (fun x => sarFlags x n.toNat))

def execCmpi (p : Proc) (a : RegNo) (imm : BitVec 8) (s : State) : Out :=
  .next (s.aluF p.val (fmtI 0x17 0 a imm) a a (fun x _ => subFlags x (sx8 imm) true))

def execCmp (p : Proc) (a b : RegNo) (s : State) : Out :=
  .next (s.aluF p.val (fmtR 0x18 0 a b) a b (fun x y => subFlags x y true))

def execTst (p : Proc) (a b : RegNo) (s : State) : Out :=
  .next (s.aluF p.val (fmtR 0x19 0 a b) a b (fun x y => logicFlags (x &&& y)))

def execLdk (p : Proc) (d : RegNo) (imm : BitVec 12) (s : State) : Out :=
  .next (s.issue p.val { word := fmtK 0x1A d imm, regs := [d] } (fun s => .done (s.setW p.val d (sx12 imm))))

def execLdh (p : Proc) (d : RegNo) (imm : BitVec 12) (s : State) : Out :=
  .next (s.issue p.val { word := fmtK 0x1B d imm, regs := [d] } (fun s =>
    .done (s.setW p.val d (putF (s.getW p.val d) ⟨23, 12⟩ imm.toNat))))

def execLdi (p : Proc) (d : RegNo) (w : Word) (s : State) : Out :=
  .next (s.issue p.val { word := fmtK 0x1C d 0, len := 2, regs := [d] } (fun s => .done (s.setW p.val d w)))

def execNeg (p : Proc) (d a : RegNo) (s : State) : Out :=
  .next (s.aluU p.val 0x1D d a negFlags)

def execAbs (p : Proc) (d a : RegNo) (s : State) : Out :=
  .next (s.aluU p.val 0x1E d a absFlags)

def execClz (p : Proc) (d a : RegNo) (s : State) : Out :=
  .next (s.aluU p.val 0x1F d a clzFlags)

/-! ## The multiply unit -/

/-- Set the accumulator. -/
def State.setAcc (s : State) (p : Nat) (a : BitVec 48) : State := s.updProc p (fun x => { x with acc := a })

/-- An instruction of the multiply unit that sets the accumulator; `f` gets Wa and Wb. -/
def State.mulSet (s : State) (p op : Nat) (a b : RegNo) (f : Word → Word → BitVec 48) : State :=
  s.issue p { word := fmtR op 0 a b, regs := [a, b] } (fun s => .done (s.setAcc p (f (s.getW p a) (s.getW p b))))

/-- One that adds to it: it wraps, and with OVT 1 a wrap raises an imprecise exception once it retires (R254, R276). -/
def State.mulAdd (s : State) (p op : Nat) (a b : RegNo) (f : Word → Word → Int) : State :=
  s.issue p { word := fmtR op 0 a b, regs := [a, b] } (fun s =>
    let x := s.proc p
    let i := accInt x.acc + f (s.getW p a) (s.getW p b)
    let cause := if overAcc i && bit x.status 4 then some 7 else none
    .done (s.updProc p (fun x => { x with acc := accOf i, longs := x.longs ++ [⟨none, cause⟩] })))

def execMul (p : Proc) (a b : RegNo) (s : State) : Out := .next (s.mulSet p.val 0x30 a b (fun x y => accOf (sx x * sx y)))

def execMulu (p : Proc) (a b : RegNo) (s : State) : Out :=
  .next (s.mulSet p.val 0x31 a b (fun x y => BitVec.ofNat 48 (x.toNat * y.toNat)))

def execMulf (p : Proc) (a b : RegNo) (s : State) : Out :=
  .next (s.mulSet p.val 0x32 a b (fun x y => accOf (2 * (sx x * sx y))))

def execMac (p : Proc) (a b : RegNo) (s : State) : Out := .next (s.mulAdd p.val 0x33 a b (fun x y => sx x * sx y))

/-- The doubled product that does not fit wraps (R254). -/
def execMacf (p : Proc) (a b : RegNo) (s : State) : Out :=
  .next (s.mulAdd p.val 0x34 a b (fun x y => accInt (accOf (2 * (sx x * sx y)))))

def execMsu (p : Proc) (a b : RegNo) (s : State) : Out := .next (s.mulAdd p.val 0x35 a b (fun x y => -(sx x * sx y)))

/-- The accumulator that MFH, MFL and MFR read: that before the last three instructions, or the present one where an exception
or interrupt was taken among them (R255). -/
def accRead (x : ProcSt) : BitVec 48 := x.accHist.getD 2 x.acc

def execMfh (p : Proc) (d : RegNo) (s : State) : Out :=
  .next (s.issue p.val { word := fmtR 0x36 d 0 0, regs := [d] } (fun s =>
    .done (s.setW p.val d ((accRead (s.proc p.val)).extractLsb' 24 24))))

def execMfl (p : Proc) (d : RegNo) (s : State) : Out :=
  .next (s.issue p.val { word := fmtR 0x37 d 0 0, regs := [d] } (fun s =>
    .done (s.setW p.val d ((accRead (s.proc p.val)).extractLsb' 0 24))))

def execMfr (p : Proc) (d : RegNo) (s : State) : Out :=
  .next (s.issue p.val { word := fmtR 0x38 d 0 0, regs := [d] } (fun s =>
    .done (s.writeAlu p.val d (mfrFlags (accRead (s.proc p.val))))))

def execMta (p : Proc) (a b : RegNo) (s : State) : Out := .next (s.mulSet p.val 0x39 a b (fun x y => x ++ y))

/-- A long operation retires (R276): the oldest DIV or DIVU, or the oldest accumulation, which takes 4 cycles where a division takes 18
and so may pass it (R270). -/
def State.retireLong (s : State) (p : Nat) (div : Bool) : State :=
  match (s.proc p).longs.find? (fun l => l.dest.isSome == div) with
  | none => s
  | some l =>
    s.updProc p (fun x =>
      let x := { x with longs := x.longs.erase l, imprecise := x.imprecise ++ (l.cause.toList.map (fun c => (c, 0))) }
      match l.dest with
      | some (d, v) => x.setW d.toNat v
      | none => x)

/-- A division: its result and its exception come when it retires (R256, R276), at the Steward at once, since it runs one instruction
at a time (R293). -/
def State.divide (s : State) (p op : Nat) (d a b : RegNo) (f : Word → Word → Word × Bool) : State :=
  s.issue p { word := fmtR op d a b, regs := [d, a, b] } (fun s =>
    let q := f (s.getW p a) (s.getW p b)
    let t := s.updProc p (fun x => { x with longs := x.longs ++ [⟨some (d, q.1), if q.2 then some 6 else none⟩] })
    .done (if p = 16 then t.retireLong p true else t))

def execDiv (p : Proc) (d a b : RegNo) (s : State) : Out := .next (s.divide p.val 0x3A d a b divWord)

def execDivu (p : Proc) (d a b : RegNo) (s : State) : Out := .next (s.divide p.val 0x3B d a b divuWord)

def execLongOpRetire (p : Proc) (div : Bool) (s : State) : Out := .next (s.retireLong p.val div)

end Sys2Proof.Machine
end

