-- ==== Sys2Proof/Machine/IsaMem.lean ====
section
/-! DEFINITION. Loads, stores, SWP, cache operations, CALL and RET (R251, R253, R259 to R261, R267, R270, R272 to R275, R281). -/
namespace Sys2Proof.Machine

/-! ## Loads -/

/-- A load or store that matched a comparator halts before the next instruction (R462). -/
def State.dataMatch (s : State) (p kind v a : Nat) : State :=
  let (s, h) := s.cmpHit p kind (if p = 16 then a else v) (s.proc p).sup
  match h with
  | some k => s.updProc p (fun x => { x with haltDue := some (2, k) })
  | none => s

/-- The registers after a load: the base update, which a load of the base itself discards (R253), and the value. -/
def State.loaded (s : State) (p : Nat) (d : RegNo) (upd : Option (RegNo × Word)) (w : Word) : State :=
  let s := match upd with
    | some (b, v) => s.setW p b v
    | none => s
  s.setW p d w

/-- A load of the word at physical address `a` into WD (R270, R273): from the store buffer, from the data cache, or from the
fabric, for whose answer it waits. -/
def State.loadFrom (s : State) (p : Nat) (v : Word) (a : Nat) (dev : Bool) (d : RegNo) (upd : Option (RegNo × Word))
    (word : Word) : Run :=
  let s := (s.touchTlb p v).dataMatch p 1 v.toNat a
  match s.storeForward p a with
  | some w => .done (s.loaded p d upd w)
  | none =>
    if !dev && (s.cached p (lineNo a)).isSome then
      .done ((s.useLine p (lineNo a)).loaded p d upd (s.cohWord a))
    else if s.refuses (s.plotOf p) then .raise (s.corePerf p 9) 3 0 (some v)
    else if (s.drawTag p (procClass p)).isNone then .stall none
    else
      let s := if dev then s else (s.corePerf p 4).updProc p (fun x => { x with missed := true })
      .hold ((s.setWait p (some (.load v a d upd word dev))).perf 17 0)

/-- A load of virtual address `v` (R281). -/
def State.load (s : State) (p : Nat) (v : Word) (d : RegNo) (upd : Option (RegNo × Word)) (word : Word) : Run :=
  match s.translate p v needR with
  | .error c => .raise s c 0 (some v)
  | .ok (a, dev) => s.loadFrom p v a dev d upd word

/-- WA plus an offset. -/
def State.base (s : State) (p : Nat) (a : RegNo) (o : Word) : Word := s.getW p a + o

def execLd (p : Proc) (d a : RegNo) (imm : BitVec 8) (s : State) : Out :=
  let w := fmtI 0x20 d a imm
  .next (s.issue p.val { word := w, regs := [d, a] } (fun s => s.load p.val (s.base p.val a (sx8 imm)) d none w))

def execLdx (p : Proc) (d a b : RegNo) (s : State) : Out :=
  let w := fmtR 0x22 d a b
  .next (s.issue p.val { word := w, regs := [d, a, b] } (fun s =>
    s.load p.val (s.base p.val a (s.getW p.val b)) d none w))

def execLdp (p : Proc) (d a : RegNo) (imm : BitVec 8) (s : State) : Out :=
  let w := fmtI 0x24 d a imm
  .next (s.issue p.val { word := w, regs := [d, a] } (fun s =>
    s.load p.val (s.getW p.val a) d (some (a, s.base p.val a (sx8 imm))) w))

def execPop (p : Proc) (d : RegNo) (s : State) : Out :=
  let w := fmtR 0x27 d 0 0
  .next (s.issue p.val { word := w, regs := [d, 15] } (fun s =>
    s.load p.val (s.getW p.val 15) d (some (15, s.getW p.val 15 + 1)) w))

/-- The cause of a response that is not good: bus error or poisoned access (R275). -/
def busCause : BusResp → Nat
  | .poisoned => 11
  | _ => 3

/-- An access of the instruction at PC fails. -/
def State.failAccess (s : State) (p : Nat) (c : Nat) (v : Word) : State :=
  ((s.corePerf p 9).take p c 0 (some v)).settle p

/-- The answer of a load arrives (R270, R275). A line that a LOCK read holds answers later. -/
def State.loadAnswer (s : State) (p : Nat) (r : BusResp) : State :=
  match (s.proc p).wait with
  | some (.load v a d upd word dev) =>
    if p ≠ 16 ∧ s.locked a ∧ r = .ok then s
    else
      let acc := (s.proc p).acc
      let s := s.setWait p none
      if r ≠ .ok then s.failAccess p (busCause r) v
      else
        let (s, w, ok) := s.procRead p a dev
        if !ok then s.failAccess p 3 v
        else
          let s := s.loaded p d upd w
          (s.retire p word acc ((s.proc p).pc + 1) none).settle p
  | _ => s

def execLoadResponse (p : Proc) (r : BusResp) (s : State) : Out := .next (s.loadAnswer p.val r)

/-! ## Stores -/

/-- The update of the base register by a store; it is discarded where the register stored is the base (R253). -/
def State.updBase (s : State) (p : Nat) (upd : Option (RegNo × Word)) : State :=
  match upd with
  | some (b, v) => s.setW p b v
  | none => s

/-- A store of `w` at physical address `a` (R272, R274): into the store buffer, or on a Device page to the fabric once every
earlier store is acknowledged, for whose acknowledge it waits. -/
def State.storeTo (s : State) (p : Nat) (v : Word) (a : Nat) (dev : Bool) (w : Word) (upd : Option (RegNo × Word))
    (word : Word) : Run :=
  if dev then
    if s.storing p then .stall none
    else if s.refuses (s.plotOf p) then .raise (s.corePerf p 9) 3 0 (some v)
    else if (s.drawTag p (procClass p)).isNone then .stall none
    else
      let s := (s.touchTlb p v).dataMatch p 2 v.toNat a
      .hold ((s.setWait p (some (.store v a w upd word))).perf 17 0)
  else if 8 ≤ (s.proc p).stores.length then .stall (some 6)
  else
    let s := (s.touchTlb p v).dataMatch p 2 v.toNat a
    let s := s.updProc p (fun x => { x with stores := x.stores ++ [⟨v, a, w⟩] })
    .done (s.updBase p upd)

/-- A store of `w` at virtual address `v` (R281). -/
def State.store (s : State) (p : Nat) (v w : Word) (upd : Option (RegNo × Word)) (word : Word) : Run :=
  match s.translate p v needW with
  | .error c => .raise s c 0 (some v)
  | .ok (a, dev) => s.storeTo p v a dev w upd word

def execSt (p : Proc) (d a : RegNo) (imm : BitVec 8) (s : State) : Out :=
  let w := fmtI 0x21 d a imm
  .next (s.issue p.val { word := w, regs := [d, a] } (fun s =>
    s.store p.val (s.base p.val a (sx8 imm)) (s.getW p.val d) none w))

def execStx (p : Proc) (d a b : RegNo) (s : State) : Out :=
  let w := fmtR 0x23 d a b
  .next (s.issue p.val { word := w, regs := [d, a, b] } (fun s =>
    s.store p.val (s.base p.val a (s.getW p.val b)) (s.getW p.val d) none w))

def execStp (p : Proc) (d a : RegNo) (imm : BitVec 8) (s : State) : Out :=
  let w := fmtI 0x25 d a imm
  .next (s.issue p.val { word := w, regs := [d, a] } (fun s =>
    s.store p.val (s.getW p.val a) (s.getW p.val d)
      (if d = a then none else some (a, s.base p.val a (sx8 imm))) w))

def execPush (p : Proc) (d : RegNo) (s : State) : Out :=
  let w := fmtR 0x26 d 0 0
  .next (s.issue p.val { word := w, regs := [d, 15] } (fun s =>
    let v := s.getW p.val 15 - 1
    s.store p.val v (s.getW p.val d) (some (15, v)) w))

/-- Whether a poisoned write was carried out: bit 0 of a free value (R56). -/
def State.poisoned (s : State) (p : Nat) (v : Word) (a : Nat) (dev : Bool) (w : Word) : State :=
  if bit (Config.freeValue s.freeCtr) 0 then (s.useFree.procWrite p v a dev w).1 else s.useFree

/-- The acknowledge of a store to a Device page, or that of the oldest store that left the buffer (R274, R275). -/
def State.storeAnswer (s : State) (p : Nat) (r : BusResp) : State :=
  match (s.proc p).wait with
  | some (.store v a w upd word) =>
    if p ≠ 16 ∧ s.locked a ∧ r = .ok then s
    else
      let acc := (s.proc p).acc
      let s := s.setWait p none
      if r = .poisoned then (s.poisoned p v a true w).failAccess p 11 v
      else if r = .error then s.failAccess p 3 v
      else
        let (s, ok) := s.procWrite p v a true w
        if !ok then s.failAccess p 3 v
        else
          ((s.updBase p upd).retire p word acc ((s.proc p).pc + 1) none).settle p
  | _ =>
    match (s.proc p).drains with
    | [] => s
    | e :: es =>
      if s.locked e.paddr ∧ r = .ok then s
      else
        let s := (s.updProc p (fun x => { x with drains := es })).countTags
        if r = .ok then s.settleStore p e
        else
          let s := if r = .poisoned then s.poisoned p e.vaddr e.paddr false e.value else s
          (s.corePerf p 9).updProc p (fun x => { x with imprecise := x.imprecise ++ [(busCause r, e.vaddr)] })

def execStoreResponse (p : Proc) (r : BusResp) (s : State) : Out := .next (s.storeAnswer p.val r)

/-! ## What the fabric retires -/

/-- The access that processor `p` waits for gets the answer `r`. -/
def State.waitAnswer (s : State) (p : Nat) (r : BusResp) : State :=
  match (s.proc p).wait with
  | some (.load _ _ _ _ _ _) => s.loadAnswer p r
  | some (.store _ _ _ _ _) => s.storeAnswer p r
  | none => s

/-- The accesses of core `c` under way are retired with a poisoned response (R56). -/
def State.retireCore (s : State) (c : Nat) : State :=
  let s := s.waitAnswer c .poisoned
  forN (s.proc c).drains.length (fun _ s => s.storeAnswer c .poisoned) s

/-- The fence time of plot `p` is over (R56): what its units and its cores have under way is retired. -/
def State.fenceRetire (s : State) (p : Nat) : State :=
  let was := s.bitAt Reg.FAB_FENCE p && !s.bitAt Reg.FAB_FENCE (8 + p)
  let s := s.fenceExpire p
  if was then forN 16 (fun c s => if s.corePlot c = p then s.retireCore c else s) s else s

def execFenceTimeout (p : Fin 8) (s : State) : Out := .next (s.fenceRetire p.val)

/-- Does a processor's access under way pass the port? -/
def State.waitsAtPort (s : State) (p port : Nat) : Bool :=
  match (s.proc p).wait with
  | some (.load _ a _ _ _ _) => s.passesPort p a port
  | some (.store _ a _ _ _) => s.passesPort p a port
  | none => false

/-- A port without an acknowledge drops the transfer of requester `r` that passes it (R33): the access that a processor waits for,
else the oldest store that has left its buffer, else the oldest transaction. -/
def State.timeoutPort (s : State) (port r : Nat) : State :=
  let s := s.countTimeout port r
  if r ≤ 16 && s.waitsAtPort r port then s.waitAnswer r .error
  else match (if r < 16 then (s.proc r).drains.head? else none) with
    | some e => if (s.proc r).wait.isNone && s.passesPort r e.paddr port then s.storeAnswer r .error else s.dropAtPort port r
    | none => s.dropAtPort port r

def execHandshakeTimeout (port : BitVec 6) (req : Req) (s : State) : Out :=
  .next (s.timeoutPort port.toNat req.val)

/-! ## SWP and CACHE -/

/-- The exchange of SWP at the directory, with no other access between its read and its write (R253). -/
def State.swap (s : State) (p a : Nat) (w : Word) : State × Word × Bool :=
  match regionOf a with
  | .field a =>
    match s.gate p (s.plotOf p) a true with
    | some e => (s.refuse p (s.plotOf p) a e, 0, false)
    | none =>
      let s := ((s.wakeFor a).serveAt a).passTag
      (s.cohStore p a w, s.cohWord a, true)
  | _ =>
    let (s, x) := s.busRead p (s.plotOf p) a
    if x.kind ≠ .ok then (s, 0, false)
    else
      let (s, k) := s.busWrite p (s.plotOf p) a w
      (s, x.value, k == .ok)

def execSwp (p : Proc) (d a b : RegNo) (s : State) : Out :=
  .next (s.issue p.val { word := fmtR 0x28 d a b, regs := [d, a, b] } (fun s =>
    let p := p.val
    let v := s.getW p a
    match s.translate p v (needR ||| needW) with
    | .error c => .raise s c 0 (some v)
    | .ok (pa, _) =>
      if p ≠ 16 ∧ s.locked pa then .stall none
      else
        let s := (((s.touchTlb p v).flushStores p).dataMatch p 1 v.toNat pa).dataMatch p 2 v.toNat pa
        let (t, w, ok) := s.swap p pa (s.getW p b)
        if ok then .done (t.setW p d w) else .raise (t.corePerf p 9) 3 0 (some v)))

/-- A CACHE operation on the line of Wa: nothing at the Steward (R267, R293). The address must translate and be allowed in the
present mode (DEDUCED, log entry 30); the buffered stores come first (R274). -/
def State.cacheOp (s : State) (p : Nat) (a : RegNo) (op : Nat) (f : State → Nat → State) : State :=
  s.issue p { word := fmtI 0x29 0 a (BitVec.ofNat 8 op), regs := [a] } (fun s =>
    if p = 16 then .done s
    else if op = 1 ∧ s.user p then .raise s 2 0x29 none
    else
      let v := s.getW p a
      match s.translate p v 0 with
      | .error c => .raise s c 0 (some v)
      | .ok (pa, _) => .done (f ((s.touchTlb p v).flushStores p) (lineNo pa)))

/-- Drop line `ln` from the data cache of core `c`. -/
def State.dropLine (s : State) (c ln : Nat) : State :=
  s.updProc c (fun x => { x with dcache := x.dcache.filter (fun y => y.line != ln) })

/-- Write a modified line back; the core keeps it shared. -/
def State.writebackLine (s : State) (c ln : Nat) : State :=
  match s.cached c ln with
  | some l =>
    if l.st = .modified then
      (s.updProc c (fun x => { x with dcache := x.dcache.map (fun y => if y.line = ln then { y with st := .shared } else y) })).sendWb
        c ln l.words
    else s
  | none => s

def execCacheWriteback (p : Proc) (a : RegNo) (s : State) : Out :=
  .next (s.cacheOp p.val a 0 (fun s ln => s.writebackLine p.val ln))

def execCacheInvalidate (p : Proc) (a : RegNo) (s : State) : Out :=
  .next (s.cacheOp p.val a 1 (fun s ln => s.dropLine p.val ln))

def execCacheFlush (p : Proc) (a : RegNo) (s : State) : Out :=
  .next (s.cacheOp p.val a 2 (fun s ln => (s.writebackLine p.val ln).dropLine p.val ln))

def execCacheIinvalidate (p : Proc) (a : RegNo) (s : State) : Out :=
  .next (s.cacheOp p.val a 3 (fun s ln =>
    s.updProc p.val (fun x => { x with icache := x.icache.filter (· != ln) })))

/-! ## CALL and RET -/

/-- The words that a call stores, in the order of R259, from `sp` downward. -/
def frameWords (x : ProcSt) (mask : BitVec 15) (ra : Word) : List Word :=
  (((List.range 15).reverse.filter (fun n => mask.getLsbD n)).map x.reg) ++ [wd mask.toNat, ra]

/-- The first of the accesses that does not translate: its place in the order, cause and address. -/
def State.badAccess (s : State) (p : Nat) (need : Word) (vs : List Word) : Option (Nat × Nat × Word) :=
  (vs.zipIdx).findSome? (fun x =>
    match s.translate p x.1 need with
    | .error c => some (x.2, c, x.1)
    | .ok _ => none)

/-- Store the words at their addresses until one fails; its place. -/
def State.storeAll (s : State) (p : Nat) (ws : List (Word × Word)) : State × Option Word :=
  ws.foldl (fun x e =>
    match x.2, x.1.translate p e.1 needW with
    | none, .ok (a, dev) =>
      let s := ((x.1.touchTlb p e.1).dataMatch p 2 e.1.toNat a)
      let (s, ok) := s.newWrite p e.1 a dev e.2
      (s, if ok then none else some e.1)
    | _, _ => x) (s, none)

/-- The words of a call that a fault cuts off "may already have been written" (R261): one by one, a free value says. -/
def State.storeSome (s : State) (p : Nat) (ws : List (Word × Word)) : State :=
  ws.foldl (fun s e => if bit (Config.freeValue s.freeCtr) 0 then (s.useFree.storeAll p [e]).1 else s.useFree) s

/-- A call: the frame, W15 and the target, whole or not at all (R259, R261). -/
def State.call (s : State) (p : Nat) (mask : BitVec 15) (target : Word) : Run :=
  let x := s.proc p
  let ws := frameWords x mask (x.pc + 2)
  let sp := x.reg 15
  let as := (List.range ws.length).map (fun i => sp - wd (i + 1))
  let s := s.flushStores p
  match s.badAccess p needW as with
  | some (i, c, v) => .raise (s.storeSome p ((as.zip ws).take i)) c 0 (some v)
  | none =>
    let (s, bad) := s.storeAll p (as.zip ws)
    match bad with
    | some v => .raise (s.corePerf p 9) 3 0 (some v)
    | none => .goto (s.setW p 15 (sp - wd ws.length)) target

/-- The registers that a mask names, and W15. -/
def maskRegs (mask : BitVec 15) : List RegNo :=
  15 :: ((List.range 15).filter (fun n => mask.getLsbD n)).map (fun n => BitVec.ofNat 4 n)

def execCall (p : Proc) (mask : BitVec 15) (target : Word) (s : State) : Out :=
  .next (s.issue p.val { word := insWord 0x42 mask.toNat, len := 2, jump := true, endBad := true, regs := maskRegs mask }
    (fun s => s.call p.val mask target))

def execCallr (p : Proc) (mask : BitVec 15) (a : RegNo) (s : State) : Out :=
  .next (s.issue p.val { word := insWord 0x43 mask.toNat, len := 2, jump := true, endBad := true, regs := a :: maskRegs mask }
    (fun s => s.call p.val mask (s.getW p.val a)))

/-- Load the words at `vs` in order; the first failure with its cause and address. -/
def State.loadAll (s : State) (p : Nat) (vs : List Word) : State × List Word × Option (Nat × Word) :=
  vs.foldl (fun x v =>
    let (s, ws, bad) := x
    match bad with
    | some _ => x
    | none =>
      match s.translate p v needR with
      | .error c => (s, ws, some (c, v))
      | .ok (a, dev) =>
        let s := (s.touchTlb p v).dataMatch p 1 v.toNat a
        match s.storeForward p a with
        | some w => (s, ws ++ [w], none)
        | none =>
          let s := if !dev && (s.cached p (lineNo a)).isNone then
              (s.corePerf p 4).updProc p (fun x => { x with missed := true }) else s
          let (s, w, ok) := s.newRead p a dev
          (s, ws ++ [w], if ok then none else some (3, v))) (s, [], none)

/-- A return (R260): the return address, the mask, the registers that it names. -/
def State.ret (s : State) (p : Nat) : Run :=
  let fail (s : State) (c : Nat) (v : Word) : Run := .raise (if c = 3 then s.corePerf p 9 else s) c 0 (some v)
  let sp := (s.proc p).reg 15
  match s.loadAll p [sp, sp + 1] with
  | (s, _, some (c, v)) => fail s c v
  | (s, ws, none) =>
    let ns := (List.range 15).filter (fun n => bit (ws.getD 1 0) n)
    if (s.proc p).longs.any (fun l => l.dest.any (fun d => ns.contains d.1.toNat)) then .stall none
    else match s.loadAll p ((List.range ns.length).map (fun i => sp + 2 + wd i)) with
    | (s, _, some (c, v)) => fail s c v
    | (s, vs, none) =>
      let s := s.setW p 15 (sp + 2 + wd ns.length)
      .goto ((ns.zip vs).foldl (fun s e => s.setW p (BitVec.ofNat 4 e.1) e.2) s) (ws.getD 0 0)

def execRet (p : Proc) (s : State) : Out :=
  .next (s.issue p.val { word := 0x440000, jump := true, endBad := true, regs := [15] }
    (fun s => s.ret p.val))

end Sys2Proof.Machine
end

