-- ==== Sys2Proof/Machine/IsaFlow.lean ====
section
/-! DEFINITION. Branches, loops, traps, return from exception, barriers, waits and special registers (R246 to R249, R257, R258,
R262 to R264, R266, R284, R291, R458). -/
namespace Sys2Proof.Machine

/-! ## Branches -/

/-- A branch of PC + off16 (R257, R258). -/
def State.branchTo (s : State) (p : Nat) (off : BitVec 16) : Word := (s.proc p).pc + sx16 off

def execJmp (p : Proc) (off : BitVec 16) (s : State) : Out :=
  .next (s.issue p.val { word := fmtJ 0x40 off, jump := true, endBad := true } (fun s =>
    .branch s (some (s.branchTo p.val off))))

def execJr (p : Proc) (a : RegNo) (s : State) : Out :=
  .next (s.issue p.val { word := fmtR 0x41 0 a 0, jump := true, endBad := true, regs := [a] } (fun s =>
    .branch s (some (s.getW p.val a))))

def execBcc (p : Proc) (cond : Fin 14) (off : BitVec 16) (s : State) : Out :=
  .next (s.issue p.val { word := fmtJ (0x50 + cond.val) off, jump := true, endBad := true } (fun s =>
    .branch s (if condHolds (s.proc p.val).status cond.val then some (s.branchTo p.val off) else none)))

/-! ## Loops -/

/-- LOOP and LOOPR, of opcode `op`, with count `n` (R262). -/
def State.openLoop (s : State) (p op : Nat) (n : Word) (ofs : BitVec 16) : Run :=
  if ofs.toNat < 2 then .raise s 1 op none
  else
    let pc := (s.proc p).pc
    let lea := pc + wd ofs.toNat
    let s := s.updProc p (fun x => { x with lc := n, lsa := pc + 2, lea := lea })
    if n = 0 then .goto s (lea + 1) else .done s

def execLoop (p : Proc) (n : BitVec 12) (ofs : BitVec 16) (s : State) : Out :=
  .next (s.issue p.val { word := fmtK 0x45 0 n, len := 2, jump := true, endBad := true } (fun s =>
    s.openLoop p.val 0x45 (n.zeroExtend 24) ofs))

def execLoopr (p : Proc) (a : RegNo) (ofs : BitVec 16) (s : State) : Out :=
  .next (s.issue p.val { word := fmtR 0x46 0 a 0, len := 2, jump := true, endBad := true, regs := [a] } (fun s =>
    s.openLoop p.val 0x46 (s.getW p.val a) ofs))

/-! ## Traps, returns, waits -/

/-- TRAP completes, and its exception is taken behind it (R268). -/
def execTrap (p : Proc) (imm : BitVec 8) (s : State) : Out :=
  let w := fmtI 0x47 0 0 imm
  .next (s.issue p.val { word := w, jump := true, endBad := true } (fun s =>
    let p := p.val
    let x := s.proc p
    .stop (((s.retire p w x.acc (x.pc + 1) none).take p 8 imm.toNat none).settle p)))

/-- RTE opens its shadow of three instructions (R291). -/
def execRte (p : Proc) (s : State) : Out :=
  .next (s.issue p.val { word := 0x480000, jump := true, endBad := true } (fun s =>
    if s.user p.val then .raise s 2 0x48 none
    else .done (s.updProc p.val (fun x => { x with exit := some 4 }))))

/-- WAIT stops issue until a request arrives (R284). -/
def execWait (p : Proc) (s : State) : Out :=
  .next (s.issue p.val { word := 0x4A0000, jump := true } (fun s =>
    if s.user p.val then .raise s 2 0x4A none
    else .done (s.updProc p.val (fun x => { x with waiting := true }))))

/-- BRK halts the processor while a session is open, in a delay slot or an RTE shadow at the next boundary; else it takes a
breakpoint exception (R268, R458). -/
def execBrk (p : Proc) (s : State) : Out :=
  .next (s.issue p.val { word := 0x4B0000 } (fun s =>
    if !s.session then .raise s 9 0 none
    else if s.boundary p.val then .stop (s.halt p.val 3 0 false)
    else .done (s.updProc p.val (fun x => { x with haltDue := some (3, 0) }))))

/-- BARRIER (R266): kind L waits for long operations and takes their exceptions, kind S for the stores; PTW reaches the pads at once
and nothing is fetched ahead, so kinds P and I are complete. -/
def execBarrier (p : Proc) (kind : BitVec 4) (s : State) : Out :=
  .next (s.issue p.val { word := insWord 0x49 kind.toNat } (fun s =>
    let p := p.val
    let k := if kind = 0 then 0xF#4 else kind
    if k.getLsbD 0 ∧ !(s.proc p).longs.isEmpty then .stall none
    else if k.getLsbD 1 ∧ s.storing p then .stall none
    else if k.getLsbD 0 ∧ (if (s.proc p).impDepth = 0 then 0 else (s.proc p).impHeld) < (s.proc p).imprecise.length then
      .stop ((s.takeImprecise p).settle p)
    else .done s))

/-! ## Special registers -/

/-- Why an MFS or MTS of register `n` is refused: 1 reserved number, 2 privilege (R246); no privilege exception at the Steward
(R293). -/
def State.specialErr (s : State) (p n : Nat) (write : Bool) : Option Nat :=
  if 12 ≤ n ∧ (p ≠ 16 ∨ 14 ≤ n) then some 1
  else if p = 16 then none
  else if write ∧ n = 9 then some 2
  else if s.user p ∧ n ≠ 0 ∧ n ≠ 5 ∧ n ≠ 6 ∧ n ≠ 7 ∧ n ≠ 9 then some 2
  else none

def execMfs (p : Proc) (d : RegNo) (n : BitVec 8) (s : State) : Out :=
  .next (s.issue p.val { word := fmtI 0x4C d 0 n, regs := [d] } (fun s =>
    match s.specialErr p.val n.toNat false with
    | some c => .raise s c 0x4C none
    | none => .done (s.setW p.val d ((s.special p.val n.toNat).getD 0))))

/-- A change of the mode bits of mask `m` to those of `v`, after its shadow (R248). A change of SUP, IE or DET in user mode takes a
privilege exception (R249); there OVT alone changes. `left` counts the present instruction too. -/
def State.changeMode (s : State) (p op : Nat) (v m : Word) : Run :=
  let st := (s.proc p).status
  if s.user p ∧ (v ^^^ st) &&& m &&& 0xE0 ≠ 0 then .raise s 2 op none
  else
    let m := m &&& (if s.user p then 0x10 else 0xF0)
    .done (s.updProc p (fun x => { x with shadows := x.shadows ++ [⟨4, v &&& m, ~~~ v &&& m⟩] }))

/-- MTS: flags at once, mode bits after their shadow (R247, R248). COREID and CSEG keep their value at the Steward (R294; log
entry 31). -/
def execMts (p : Proc) (a : RegNo) (n : BitVec 8) (s : State) : Out :=
  .next (s.issue p.val { word := fmtI 0x4D 0 a n, regs := [a] } (fun s =>
    let p := p.val
    let v := s.getW p a
    match s.specialErr p n.toNat true with
    | some c => .raise s c 0x4D none
    | none =>
      if n = 0 then
        match s.changeMode p 0x4D v 0xF0 with
        | .done s => .done (s.updProc p (fun x => { x with status := (x.status &&& 0x0FFFFF) ||| (v &&& 0xF00000) }))
        | r => r
      else .done (s.updProc p (fun x => x.setSpecial p n.toNat v))))

def execSetm (p : Proc) (imm : BitVec 8) (s : State) : Out :=
  .next (s.issue p.val { word := fmtI 0x4E 0 0 imm } (fun s => s.changeMode p.val 0x4E (zx8 imm) (zx8 imm)))

def execClrm (p : Proc) (imm : BitVec 8) (s : State) : Out :=
  .next (s.issue p.val { word := fmtI 0x4F 0 0 imm } (fun s => s.changeMode p.val 0x4F 0 (zx8 imm)))

/-! ## The private port -/

/-- The pins of a group that core `p` owns (R264, R429). -/
def State.ownPins (s : State) (p g : Nat) : Word :=
  forN 24 (fun i m => if s.coreOwnsPin p (24 * g + i) then m ||| oneBit i else m) 0

/-- PTW (R264): the owned pins of the mask take their levels together; others count one error. While the bank is off there is
nothing to write. -/
def execPtw (p : Proc) (a b : RegNo) (group : BitVec 4) (s : State) : Out :=
  let w := insWord 0x60 (a.toNat * 256 + b.toNat * 16 + group.toNat)
  .next (s.issue p.val { word := w, regs := [a, b] } (fun s =>
    let g := group.toNat
    if 1 < g then .raise s 1 0x60 none
    else if !s.dom 19 then .done s
    else
      let mask := s.getW p.val b
      let own := s.ownPins p.val g
      let r := Reg.GPO_OUT g
      let bad := mask &&& ~~~ own
      let t := s.setReg r ((s.reg r &&& ~~~ (mask &&& own)) ||| (s.getW p.val a &&& mask &&& own))
      .done (if bad = 0 then t
        else t.gpoErr 2 (24 * g + ((List.range 24).find? (fun i => bit bad i)).getD 0))))

/-- PTR (R264). -/
def execPtr (p : Proc) (d : RegNo) (group : BitVec 4) (s : State) : Out :=
  .next (s.issue p.val { word := insWord 0x61 (d.toNat * 4096 + group.toNat), regs := [d] } (fun s =>
    let g := group.toNat
    if 1 < g then .raise s 1 0x61 none
    else
      let pads : Word := forN 24 (fun i m => if s.padLevel (24 * g + i) then m ||| oneBit i else m) 0
      .done (s.setW p.val d (pads &&& s.ownPins p.val g))))

/-- A reserved instruction (R251). -/
def execReservedInstruction (p : Proc) (op : BitVec 8) (s : State) : Out :=
  .next (s.issue p.val { word := insWord op.toNat 0 } (fun s => .raise s 1 op.toNat none))

end Sys2Proof.Machine
end

