-- ==== Sys2Proof/Machine/Microcode.lean ====
section
/-! DEFINITION. The management instructions of the Steward, its custom instructions and the microwords of its sequencer (R294
to R301, R303, R304, R309 to R313). -/
namespace Sys2Proof.Machine

/-! ## Management instructions -/

/-- A physical address of 28 bits from a segment word and an offset (R295, R299). -/
def longAddr (seg a : Word) : Nat := seg.toNat % 16 * 2 ^ 24 + a.toNat

/-- An instruction of opcode 0x3E (R295). -/
def mgmtIns (d a b : RegNo) (op : Nat) (jump : Bool) : Ins :=
  { word := insWord 0x3E (d.toNat * 4096 + a.toNat * 256 + b.toNat * 16 + op), jump := jump, endBad := jump, regs := [d, a, b] }

def execLdl (d a b : RegNo) (s : State) : Out :=
  let i := mgmtIns d a b 0 false
  .next (s.issue 16 i (fun s => s.loadFrom 16 (s.getW 16 a) (longAddr (s.getW 16 b) (s.getW 16 a)) true d none i.word))

def execStl (d a b : RegNo) (s : State) : Out :=
  let i := mgmtIns d a b 1 false
  .next (s.issue 16 i (fun s =>
    s.storeTo 16 (s.getW 16 a) (longAddr (s.getW 16 b) (s.getW 16 a)) true (s.getW 16 d) none i.word))

/-- JL sets PC and CSEG, with no delay slot. It counts as a jump in a slot (R295), and under R263 and R291 too (DEDUCED, log entry
32). -/
def execJl (a b : RegNo) (s : State) : Out :=
  .next (s.issue 16 (mgmtIns 0 a b 2 true) (fun s =>
    .goto (s.updProc 16 (fun x => { x with cseg := s.getW 16 b &&& 0xF })) (s.getW 16 a)))

/-- Does a swap of the banks succeed (R311, R313)? -/
def State.ucReady (s : State) : Bool :=
  s.bitAt Reg.STW_UCSTAT 21 && !s.bitAt Reg.STW_UCSTAT 19 && !s.bitAt Reg.STW_UCSTAT 20 && !s.ucLegacy

/-- The banks and their versions exchange, READY clears and Z is set (R313). -/
def State.ucSwap (s : State) : State :=
  s.ucExchange.setFlags 16 { z := some true }

def execUcsw (a : RegNo) (s : State) : Out :=
  .next (s.issue 16 { mgmtIns 0 a 0 3 true with regs := [a] } (fun s =>
    if s.ucReady then .goto s.ucSwap (s.getW 16 a) else .done (s.setFlags 16 { z := some false })))

/-- WDK restarts the watchdog (R304). -/
def execWdk (s : State) : Out := .next (s.issue 16 { mgmtIns 0 0 0 4 false with regs := [] } (fun s => .done s.wdRestart))

/-! ## Micro-registers -/

/-- The value of micro-register `n` (R300). -/
def State.micro (s : State) (n : BitVec 5) : Word :=
  let x := s.proc 16
  let n := n.toNat
  if n < 16 then x.reg n
  else if n = 16 then x.mh
  else if n = 17 then x.ml
  else if n < 26 then Tab.get 0 s.uc.t (n - 18)
  else if n = 26 then s.uc.ir
  else if n = 27 then s.uc.ir2
  else if n = 28 then x.pc
  else if n = 29 then x.status
  else if n = 30 then x.dseg
  else 0

/-- Write micro-register `n`; ZERO discards it (R300). -/
def State.setMicro (s : State) (n : BitVec 5) (v : Word) : State :=
  let n := n.toNat
  if n < 16 then s.updProc 16 (fun x => x.setW n v)
  else if n = 16 then s.updProc 16 (fun x => { x with acc := v ++ x.ml })
  else if n = 17 then s.updProc 16 (fun x => { x with acc := x.mh ++ v })
  else if n < 26 then s.updUc (fun u => { u with t := Tab.put 0 u.t (n - 18) v })
  else if n = 26 then s.updUc (fun u => { u with ir := v })
  else if n = 27 then s.updUc (fun u => { u with ir2 := v })
  else if n = 28 then s.updProc 16 (fun x => { x with pc := v })
  else if n = 29 then s.updProc 16 (fun x => { x with status := statusOf 16 v })
  else if n = 30 then s.updProc 16 (fun x => { x with dseg := v &&& 0xF })
  else s

/-! ## The sequencer -/

/-- Store address of an offset of the active bank; in legacy mode the whole store is one image (R296, R301, R311). -/
def State.ucAddr (s : State) (o : Nat) : Nat := if s.ucLegacy then o % 0x4000 else s.ucBank * 0x2000 + o % 0x2000

/-- Is the sequencer in the customer region, whose rules apply outside legacy mode (R309, R311)? -/
def State.inRegion (s : State) : Bool := !s.ucLegacy && decide (0x1800 ≤ s.uc.upc % 0x2000)

/-- The sequencer goes on at store address `a`. -/
def State.ucGo (s : State) (a : Nat) : State := s.updUc (fun u => { u with upc := a })

/-- It goes on at the next microword. -/
def State.ucStep (s : State) : State := s.ucGo (s.ucAddr (s.uc.upc + 1))

/-- The custom instruction that runs, if any, ends, and with it an open LOCK pair. -/
def State.endCustom (s : State) : State := s.updUc (fun u => { u with custom := none, mid := false, ustack := [], lock := none })

/-- The exception `cause` of the instruction that the microcode executes: EPC at a custom instruction, else at PC; behind the
instruction for a trap (R268, R299). -/
def State.microRaise (s : State) (cause detail : Nat) (ea : Option Word) : State :=
  let pc := (s.proc 16).pc
  let at0 := match s.uc.custom with
    | some (_, a, _, _) => if cause = 8 then pc else a
    | none => pc
  (s.endCustom.takeAt 16 cause detail ea at0).settle 16

/-- A custom fault (R309): recorded and counted, and the instruction is abandoned. -/
def State.customFault (s : State) (cause : Nat) : State :=
  let f := match s.uc.custom with
    | some (f, _, _, _) => f
    | none => 0
  let s := s.setReg Reg.STW_CUSTERR (wd (cause * 2 ^ 21 + f * 2 ^ 13 + s.uc.upc % 0x2000))
  s.stwErr.microRaise 1 0x3F none

/-- What a microword says (R299). -/
inductive MicroIns where
  | alu (op : BitVec 4) (d a b : BitVec 5) (f : Bool)
  | alui (op : BitVec 4) (d a : BitVec 5) (imm : BitVec 6)
  | mem (w lock long : Bool) (d a b : BitVec 5)
  | br (cond : BitVec 4) (target : BitVec 14)
  | call (target : BitVec 14)
  | ret
  | fin
  | fetch2
  | raise (cause : BitVec 8)
  | waiti
  | spec (w : Bool) (n : BitVec 8) (r : BitVec 5)
  | ucswap (r : BitVec 5)
  | wdkick
  | ldseg (r : BitVec 5)
  | reserved
  deriving DecidableEq, Repr

/-- The microword that a word of the control store is (R299): bits 23:20 its class, ALU OP 15 a reserved class. A SEQ KIND above 4 and
a MGMT OP above 2, which the spec does not name, count as reserved too (DESIGN CHOICE, log entry 123). -/
def decodeMicro (w : Word) : MicroIns :=
  let d : BitVec 5 := w.extractLsb' 11 5
  let a : BitVec 5 := w.extractLsb' 6 5
  let b : BitVec 5 := w.extractLsb' 1 5
  let op : BitVec 4 := w.extractLsb' 16 4
  match getF w ⟨23, 20⟩ with
  | 0 => if op = 15 then .reserved else .alu op d a b (bit w 0)
  | 1 => if op = 15 then .reserved else .alui op d a (w.extractLsb' 0 6)
  | 2 => .mem (bit w 19) (bit w 18) (bit w 17) d a b
  | 3 => .br op (w.extractLsb' 0 14)
  | 4 => .call (w.extractLsb' 0 14)
  | 5 => match op.toNat with
    | 0 => .ret | 1 => .fin | 2 => .fetch2 | 3 => .raise (w.extractLsb' 0 8) | 4 => .waiti
    | _ => .reserved
  | 6 => .spec (bit w 19) (w.extractLsb' 11 8) a
  | 7 => match op.toNat with
    | 0 => .ucswap a | 1 => .wdkick | 2 => .ldseg a
    | _ => .reserved
  | _ => .reserved

/-- The microword that the sequencer is at. -/
def State.microword (s : State) : MicroIns := decodeMicro (s.ucWord s.uc.upc)

/-- Is the microword a MEM (R309)? -/
def MicroIns.isMem : MicroIns → Bool
  | .mem _ _ _ _ _ _ => true
  | _ => false

/-- The sequencer executes microword `i`, where it is the one at its store address (R298, R302, R309): nothing while the sequencer is
stopped or halted, or waits for a request; a parity error is a machine check; a custom instruction counts its steps and its MEM
microwords. -/
def State.microStep (s : State) (i : MicroIns) (f : State → State) : State :=
  if !s.canRun 16 || ((s.proc 16).waiting && !s.irqRequest 16) then s
  else if s.uc.bad.contains s.uc.upc then s.machineCheck 1 s.uc.upc
  else if s.microword ≠ i then s
  else
    let s := (s.updProc 16 (fun x => { x with waiting := false })).perf 16 0
    match s.uc.custom with
    | none => f (s.updUc (fun u => { u with mid := true }))
    | some (c, a, n, m) =>
      let m' := if i.isMem then m + 1 else m
      if !s.ucLegacy && (decide (4096 < n + 1) || decide (64 < m')) then s.customFault 3
      else f (s.updUc (fun u => { u with custom := some (c, a, n + 1, m') }))

/-- May a microword of the customer region not write micro-register `d` (R309 cause 2)? -/
def State.badDest (s : State) (d : BitVec 5) : Bool := s.inRegion && decide (26 ≤ d.toNat ∧ d.toNat ≤ 30)

/-! ## Custom instructions -/

/-- Store address of custom function `f` (R296, R311). -/
def State.customEntry (s : State) (f : Nat) : Nat :=
  if s.ucLegacy then 0x3800 + 8 * f else s.ucBank * 0x2000 + 0x1800 + 8 * f

/-- Does the entry hold the stub of the base microcode: nothing has been loaded there (R297)? -/
def State.isStub (s : State) (a : Nat) : Bool := (Tab.get none s.uc.store a).isNone

/-- A custom instruction is dispatched (R297): T0 to T7 hold free values (R300). Its microwords follow as commands. -/
def State.dispatchCustom (s : State) (f : Nat) (word : Word) : State :=
  let n := s.freeCtr
  let t : Tab Word := forN 8 (fun i t => Tab.put 0 t i (Config.freeValue (n + i))) []
  let pc := (s.proc 16).pc
  let s := { s with freeCtr := n + 8 }.updUc (fun u =>
    { u with t := t, ir := word, ustack := [], custom := some (f, pc, 0, 0) })
  ((s.ucGo (s.customEntry f)).updProc 16 (fun x => { x with pc := pc + 1 })).perf 16 2

def execCustomInstruction (f : BitVec 8) (d a : BitVec 4) (s : State) : Out :=
  let w := insWord 0x3F (f.toNat * 256 + d.toNat * 16 + a.toNat)
  .next (s.issue 16 { word := w } (fun s =>
    if s.isStub (s.customEntry f.toNat) then .raise s 1 0x3F none else .hold (s.dispatchCustom f.toNat w)))

/-- The custom instruction completes, with its length in PC (R297, R299). -/
def State.retireCustom (s : State) : State :=
  match s.uc.custom with
  | none => s
  | some (_, a, _, _) =>
    let pc := (s.proc 16).pc
    let s := s.endCustom.updProc 16 (fun x => { x with pc := a })
    (s.retire 16 s.uc.ir (s.proc 16).acc pc none).settle 16

/-! ## Microwords -/

/-- The result of ALU operation `op` on two words with its flags; none for the products (R299). -/
def microOp (op : Nat) (x y : Word) : Option (Word × Flags) :=
  match op with
  | 0 => some (addFlags x y false)
  | 1 => some (subFlags x y true)
  | 2 => some (logicFlags (x &&& y))
  | 3 => some (logicFlags (x ||| y))
  | 4 => some (logicFlags (x ^^^ y))
  | 5 => some (shlFlags x (shiftCount y))
  | 6 => some (shrFlags x (shiftCount y))
  | 7 => some (sarFlags x (shiftCount y))
  | 8 => some (logicFlags (minWord x y))
  | 9 => some (logicFlags (maxWord x y))
  | 10 => some (addsFlags x y)
  | 11 => some (subsFlags x y)
  | _ => none

/-- An ALU or ALUI microword (R299): OP 12 to 14 write MH and ML. -/
def State.microAluOp (s : State) (op : Nat) (d : BitVec 5) (x y : Word) (fl : Bool) : State :=
  match microOp op x y with
    | some (r, f) =>
      if s.badDest d then s.customFault 2
      else
        let s := s.setMicro d r
        (if fl then s.setFlags 16 f else s).ucStep
    | none =>
      let acc := accInt (s.proc 16).acc
      (s.setAcc 16 (if op = 13 then BitVec.ofNat 48 (x.toNat * y.toNat)
        else accOf ((if op = 14 then acc else 0) + sx x * sx y))).ucStep

def execMicroAlu (op : BitVec 4) (d a b : BitVec 5) (f : Bool) (s : State) : Out :=
  .next (s.microStep (.alu op d a b f) (fun s => s.microAluOp op.toNat d (s.micro a) (s.micro b) f))

def execMicroAlui (op : BitVec 4) (d a : BitVec 5) (imm : BitVec 6) (s : State) : Out :=
  .next (s.microStep (.alui op d a imm) (fun s => s.microAluOp op.toNat d (s.micro a) (imm.signExtend 24) false))

/-- A MEM microword (R299): a LOCK read holds the word's line until the LOCK write to the same address (R253). A failing access
raises its exception (R293). -/
def State.microMem (s : State) (w lock long : Bool) (d a b : BitVec 5) (r : BusResp) : State :=
  let v := s.micro a
  let addr := if long then longAddr (s.micro b) v else longAddr (s.proc 16).dseg v
  if !w && s.badDest d then s.customFault 2
  else
    let s := s.dataMatch 16 (if w then 2 else 1) v.toNat addr
    let fail (s : State) (c : Nat) : State := s.microRaise c 0 (some v)
    if r = .error then fail s 3
    else if w then
      let s := if lock then s.updUc (fun u => { u with lock := none }) else s
      if r = .poisoned then fail (s.poisoned 16 v addr true (s.micro d)) 11
      else
        let (s, k) := s.busWrite 16 0 addr (s.micro d)
        if k = .ok then s.ucStep else fail s 3
    else if r = .poisoned then fail s 11
    else
      let (s, x) := s.busRead 16 0 addr
      if x.kind ≠ .ok then fail s 3
      else
        let s := if lock then s.updUc (fun u => { u with lock := some addr }) else s
        (s.setMicro d x.value).ucStep

def execMicroMem (w lock long : Bool) (d a b : BitVec 5) (r : BusResp) (s : State) : Out :=
  .next (s.microStep (.mem w lock long d a b) (fun s => s.microMem w lock long d a b r))

/-- Does BR with COND `c` branch: always, Bcc codes 0 to 13, or the code in IR bits 19:16 (R299)? -/
def State.microCond (s : State) (c : Nat) : Bool :=
  let st := (s.proc 16).status
  if c = 0 then true else if c = 15 then condHolds st (getF s.uc.ir ⟨19, 16⟩) else condHolds st (c - 1)

/-- A target that the customer region may not name: outside it, but for a CALL of a service entry (R309 cause 1). -/
def State.badTarget (s : State) (t : Nat) (call : Bool) : Bool :=
  let o := t % 0x2000
  s.inRegion && !decide (0x1800 ≤ o) && !(call && decide (0x400 ≤ o ∧ o ≤ 0x43F))

def execMicroBr (cond : BitVec 4) (target : BitVec 14) (s : State) : Out :=
  .next (s.microStep (.br cond target) (fun s =>
    if s.badTarget target.toNat false then s.customFault 1
    else if s.microCond cond.toNat then s.ucGo (s.ucAddr target.toNat) else s.ucStep))

/-- A fault of the micro-stack: a custom fault in the customer region, else a machine check (R301, R309). -/
def State.stackFault (s : State) : State := if s.inRegion then s.customFault 4 else s.machineCheck 4 s.uc.upc

/-- The service entries of base microcode 3.2 (R310), each carried out whole and returned from: DIVS, CLAMP, RAISE. The micro-steps
that one takes count (R309); the spec gives their number for none (log entry 33). -/
def State.service (s : State) (o : Nat) : Option State :=
  let t (i : Nat) : Word := s.micro (BitVec.ofNat 5 (18 + i))
  let put (s : State) (i : Nat) (v : Word) : State := s.setMicro (BitVec.ofNat 5 (18 + i)) v
  let n := Config.serviceSteps o
  let counted : State := (s.perf 16 0 n).updUc (fun u =>
    { u with custom := u.custom.map (fun c => (c.1, c.2.1, c.2.2.1 + n, c.2.2.2)) })
  let tooLong := !s.ucLegacy && match s.uc.custom with
    | some (_, _, k, _) => decide (4096 < k + n)
    | none => false
  if s.ucLegacy || (o != 0x400 && o != 0x404 && o != 0x408) then none
  else if tooLong then some (s.customFault 3)
  else if o = 0x400 then
    let q := divWord (t 0) (t 1)
    let r := if t 1 = 0 then Config.freeValue s.freeCtr else remWord (t 0) (t 1)
    let c := if t 1 = 0 then counted.useFree else counted
    some (((put (put c 0 q.1) 1 r).setFlags 16 (if t 1 = 0 then { v := some true } else {})).ucStep)
  else if o = 0x404 then
    let r := clampI (sx (t 1)) (sx (t 2)) (sx (t 0))
    some (((put counted 0 (wdI r)).setFlags 16 { z := some (decide (r = sx (t 0))) }).ucStep)
  else some (counted.microRaise (getF (t 0) ⟨7, 0⟩) (getF (t 0) ⟨15, 8⟩) none)

/-- A CALL microword (R299, R301, R309, R310). A service entry reads microwords of the base microcode too (R302). -/
def State.microCall (s : State) (t : Nat) : State :=
  if s.badTarget t true then s.customFault 1
  else if 8 ≤ s.uc.ustack.length then s.stackFault
  else match s.service (t % 0x2000), s.badOnPath (t % 0x2000) with
    | some _, some a => s.machineCheck 1 a
    | some s, none => s
    | none, _ =>
      let back := s.ucAddr (s.uc.upc + 1)
      (s.updUc (fun u => { u with ustack := back :: u.ustack })).ucGo (s.ucAddr t)

def execMicroCall (target : BitVec 14) (s : State) : Out :=
  .next (s.microStep (.call target) (fun s => s.microCall target.toNat))

def execMicroRet (s : State) : Out :=
  .next (s.microStep .ret (fun s =>
    match s.uc.ustack with
    | [] => s.stackFault
    | a :: l => (s.updUc (fun u => { u with ustack := l })).ucGo a))

/-- The word at CSEG:PC, for the sequencer (R299). -/
def State.ucFetch (s : State) : Option Word :=
  match s.gate 16 0 (s.fetchAddr 16 (s.proc 16).pc) false with
  | some _ => none
  | none => some (s.fetchZ 0 (s.fetchAddr 16 (s.proc 16).pc))

/-- An END microword (R299): the custom instruction completes; the next instruction is fetched into IR, and the sequencer is at its
opcode's entry. Its execution, or the entry of an interrupt, is the next command's. -/
def State.microEnd (s : State) : State :=
  let s := s.retireCustom.updUc (fun u => { u with mid := false })
  match s.ucFetch with
  | none => s
  | some w => (s.updUc (fun u => { u with ir := w })).ucGo (s.ucAddr (4 * getF w ⟨23, 16⟩))

def execMicroEnd (s : State) : Out := .next (s.microStep .fin State.microEnd)

/-- A FETCH2 microword (R299). -/
def execMicroFetch2 (s : State) : Out :=
  .next (s.microStep .fetch2 (fun s =>
    match s.ucFetch with
    | none => s.microRaise 3 0 (some (s.proc 16).pc)
    | some w => ((s.updUc (fun u => { u with ir2 := w })).updProc 16 (fun x => { x with pc := x.pc + 1 })).ucStep))

/-- A RAISE microword (R299). -/
def execMicroRaise (cause : BitVec 8) (s : State) : Out :=
  .next (s.microStep (.raise cause) (fun s => s.microRaise cause.toNat (getF s.uc.ir ⟨23, 16⟩) none))

/-- A WAITI microword (R298, R299). -/
def execMicroWaiti (s : State) : Out :=
  .next (s.microStep .waiti (fun s => (s.updProc 16 (fun x => { x with waiting := true })).ucStep))

/-- A SPEC microword (R299). What a number that names no special register reads is a free value. -/
def execMicroSpec (w : Bool) (n : BitVec 8) (r : BitVec 5) (s : State) : Out :=
  .next (s.microStep (.spec w n r) (fun s =>
    if w then (s.updProc 16 (fun x => x.setSpecial 16 n.toNat (s.micro r))).ucStep
    else if s.badDest r then s.customFault 2
    else match s.special 16 n.toNat with
      | some v => (s.setMicro r v).ucStep
      | none => (s.useFree.setMicro r (Config.freeValue s.freeCtr)).ucStep))

/-- A MGMT microword: in the customer region a custom fault (R309 cause 5). -/
def State.microMgmt (s : State) (f : State → State) : State := if s.inRegion then s.customFault 5 else f s

/-- UCSWAP (R299, R313). -/
def execMicroUcswap (r : BitVec 5) (s : State) : Out :=
  .next (s.microStep (.ucswap r) (fun s => s.microMgmt (fun s =>
    if s.ucReady then (s.ucSwap.updProc 16 (fun x => { x with pc := s.micro r })).ucStep
    else (s.setFlags 16 { z := some false }).ucStep)))

/-- WDKICK restarts the watchdog (R304). -/
def execMicroWdkick (s : State) : Out :=
  .next (s.microStep .wdkick (fun s => s.microMgmt (fun s => s.wdRestart.ucStep)))

/-- LDSEG loads CSEG, the segment register that is no micro-register (DEDUCED, log entry 32). -/
def execMicroLdseg (r : BitVec 5) (s : State) : Out :=
  .next (s.microStep (.ldseg r) (fun s => s.microMgmt (fun s =>
    (s.updProc 16 (fun x => { x with cseg := s.micro r &&& 0xF })).ucStep)))

/-- A microword of a reserved class, or ALU OP 15 (R299, R303): the word that the sequencer is at. -/
def execReservedMicroword (w : Word) (s : State) : Out :=
  .next (if s.ucWord s.uc.upc = w then s.microStep .reserved (fun s => s.machineCheck 3 s.uc.upc) else s)

end Sys2Proof.Machine
end

