-- ==== Sys2Proof/Machine/Tyskaolo.lean ====
section
/-! DEFINITION. How the Steward takes a Tyskaolo request (R318, R319, R322 to R324, R327): the checks in their order, relaying by
the manager, the mailbox of the plot's agent; agents' replies, timeouts, the resend of reports, ACK. -/
namespace Sys2Proof.Machine

/-! ## The catalogue -/

/-- The "Accepted from" column of R327. -/
inductive TykFrom where
  | any | holder | holder0 | holderS | holderOr0
  deriving DecidableEq, Repr

/-- A field of a payload: its word, its place, its range. Reserved bits are a field with range 0 to 0. -/
structure TykField where
  word : Nat
  hi : Nat
  lo : Nat
  min : Nat := 0
  max : Nat := 0
  deriving DecidableEq, Repr

/-- A request of the catalogue (R327, R328): its code, whether it is marked R, who may send it. -/
structure TykMsg where
  code : Nat
  read : Bool := false
  sender : TykFrom
  deriving DecidableEq, Repr

/-- The codes of requests (R327). -/
def requestCodes : List Nat :=
  [0x01, 0x02, 0x03, 0x10, 0x11, 0x12, 0x13, 0x20, 0x21, 0x30, 0x31, 0x32, 0x33, 0x40, 0x41, 0x42] ++
  [0x50, 0x51, 0x52, 0x53, 0x60, 0x61, 0x62, 0x63, 0x70, 0x71]

/-- Is LEN right, and which one is expected where the code gives one? -/
abbrev LenCheck : Type := Bool × Option Nat

/-- A LEN of one value. -/
def lenIs (n : Nat) (ws : List Word) : LenCheck := (ws.length == n, some n)

/-- A LEN between two bounds. -/
def lenIn (lo hi : Nat) (ws : List Word) : LenCheck := (decide (lo ≤ ws.length ∧ ws.length ≤ hi), none)

/-- A LEN of `a + b × N` with N in a field of payload word `w`. -/
def lenN (a b w : Nat) (f : Fld) (ws : List Word) : LenCheck :=
  let n := a + b * getF (ws.getD w 0) f
  if w < ws.length then (ws.length == n, some n) else (false, none)

/-- The place of the first field out of range, as DETAIL has it (R321). -/
def badField (fs : List TykField) (ws : List Word) : Option Nat :=
  (fs.find? (fun f =>
    let v := getF (ws.getD f.word 0) ⟨f.hi, f.lo⟩
    decide (v < f.min ∨ f.max < v))).map (fun f => f.word * 32 + f.lo)

/-- The place of the first header field out of range (R320, R321). -/
def badHeader (f : List Word) : Option Nat :=
  if tykSrcKind f = 3 then some (0x7FF * 32 + 22)
  else if getF (f.getD 2 0) ⟨21, 11⟩ ≠ 0 then some (0x7FF * 32 + 11) else none

/-! ## The Steward -/

/-- Does the Steward's firmware run: started, not halted, not stopped by a machine check? -/
def State.stewUp (s : State) : Bool := s.dom 2 && !(s.proc 16).parked && !s.uc.stopped && !s.halted 16

/-- A refusal: its status and its DETAIL, none where the spec gives no value. -/
abbrev TykErr : Type := Nat × Option Nat

/-- What comes of a request that has passed its checks: the state after it, or the check of ownership or state that it fails. -/
abbrev TykDo : Type := Except TykErr (State → State)

/-- Reply to a request that is refused: nothing is kept of it. -/
def State.tykRefuse (s : State) (t : Transport) (f : List Word) (e : TykErr) : State :=
  if tykCode f = 2 then s
  else match e.2 with
    | some d => s.sendBack t f (s.replyFrame f [statusWord e.1 d])
    | none =>
      let u := s.useFree
      u.sendBack t f (u.replyFrame f [statusWord e.1 (Config.freeValue s.freeCtr).toNat])

/-! ## Checks -/

/-- Has the device joined, so that a local host is no holder? In recovery it accepts a local host alone (R319, R356). -/
def State.hostless (s : State) : Bool := s.joined && !s.recovery

/-- Does frame `f` come from a holder of this kind and address? -/
def fromHolder (h : Nat × Nat) (f : List Word) : Bool :=
  if h.1 = 1 then tykSrcKind f == 1 || (tykSrcKind f == 0 && tykSrc f == h.2)
  else if h.1 = 0 then false
  else tykSrcKind f == 0 && tykSrc f == h.2

/-- Is the sender of frame `f`, come by transport `t`, the control holder of plot `p`, or was it as the request arrived, under the
holders `was` (R18, R319)? -/
def State.isHolder (s : State) (was : Tab (Nat × Nat)) (t : Transport) (f : List Word) (p : Nat) : Bool :=
  if !s.hostless then t == .spi && tykSrcKind f == 2
  else fromHolder (s.holderOf p) f || fromHolder (Tab.get (1, 0) was p) f

/-- Check 3 of R323. -/
def State.checkSender (s : State) (was : Tab (Nat × Nat)) (m : TykMsg) (t : Transport) (f : List Word) : Option TykErr :=
  let p := tykPlot f
  let who : TykErr := (5, some (if s.hostless then (s.holderOf p).2 else 0))
  if s.hostless ∧ t = .spi ∧ m.sender ≠ .any then some (15, some 0)
  else
    let ok : Bool := match m.sender with
      | .any => p == 0
      | .holder => s.isHolder was t f p
      | .holder0 => p == 0 && s.isHolder was t f 0
      | .holderS => p == s.supPlot && s.isHolder was t f p
      | .holderOr0 => s.isHolder was t f p || s.isHolder was t f 0
    if ok then none else some who

/-- Checks 1 of R323: VER, CODE and KIND, LEN. -/
def checkShape (len : List Word → LenCheck) (f : List Word) : Option TykErr :=
  let ver := getF (f.getD 0 0) ⟨23, 16⟩
  if ver < 0x30 ∨ 0x32 < ver then some (1, some ver)
  else if tykKind f ≠ 0 ∨ !requestCodes.contains (tykCode f) then some (2, some (tykCode f))
  else
    let (ok, n) := len (f.drop 4)
    if ok then none else some (3, n)

/-- Checks 3 to 5 of R323: sender, fence, ranges. -/
def State.checkRest (s : State) (was : Tab (Nat × Nat)) (m : TykMsg) (fields : List Word → List TykField) (t : Transport)
    (f : List Word) : Option TykErr :=
  match s.checkSender was m t f with
  | some e => some e
  | none =>
    if s.plotFenced (tykPlot f) then some (7, some 0)
    else match badHeader f with
      | some d => some (4, some d)
      | none => (badField (fields (f.drop 4)) (f.drop 4)).map (fun d => (4, some d))

/-- What R322 makes of a SEQ. -/
inductive SeqKind where
  | fresh | again | stale (last : Nat)
  deriving DecidableEq, Repr

/-- Check 2 of R323, by R322. -/
def State.checkSeq (s : State) (m : TykMsg) (f : List Word) : SeqKind :=
  match s.pairOf f with
  | none => .fresh
  | some p =>
    let d := (tykSeq f + 2 ^ 24 - p.last) % 2 ^ 24
    if m.code = 1 then .fresh
    else if d = 0 then (if m.read && !s.tyk.waits.any (fun w => answers f w.head) then .fresh else .again)
    else if d < 2 ^ 23 then .fresh else .stale p.last

/-- A duplicate (R322): the stored reply is sent again; nothing while the original runs, whose reply answers both. -/
def State.tykAgain (s : State) (t : Transport) (f : List Word) : State :=
  match s.pairOf f with
  | some p =>
    match p.reply with
    | some r => (s.putPair f p).sendBack t f r
    | none => s.putPair f p
  | none => s

/-- A request that is for this device (R322, R323): the checks in their order, then what `body` says. -/
def State.tykCarry (s : State) (was : Tab (Nat × Nat)) (m : TykMsg) (len : List Word → LenCheck) (fields : List Word → List TykField)
    (t : Transport) (f : List Word) (body : State → Transport → List Word → TykDo) : State :=
  match checkShape len f with
  | some e => s.tykRefuse t f e
  | none =>
    match s.checkSeq m f with
    | .stale n => s.tykRefuse t f (10, some n)
    | .again => s.tykAgain t f
    | .fresh =>
      match s.checkRest was m fields t f with
      | some e => s.tykRefuse t f e
      | none =>
        match body s t f with
        | .error e => s.tykRefuse t f e
        | .ok g => g (s.acceptPair f)

/-- The manager relays an operator host's frame to the device that DEV names, where the directory holds it (R319). No reply within
T + 40 ms of this is a TIMEOUT (R324). -/
def State.tykRelay (s : State) (t : Transport) (f : List Word) : State :=
  if s.lnk.dir.any (fun e => e.addr == tykDev f) then
    let due := s.timebase.toNat + 250000 * (s.tykTime f + 40)
    (s.updTyk (fun k => { k with relays := (f.take 4, due) :: k.relays.filter (fun q => q.1 != f.take 4) })).linkDeliver (tykDev f) f
  else s.tykRefuse t f (12, some (tykDev f))

/-- The requests that recovery answers (R356). -/
def recoveryCodes : List Nat := [0x01, 0x60, 0x62, 0x63]

/-- The Steward takes frame `f` of transport `t` as the request that `m` names. A frame of another request is none; a frame
whose words are not 4 + LEN is no frame. -/
def State.request (s : State) (m : TykMsg) (len : List Word → LenCheck) (fields : List Word → List TykField)
    (t : Transport) (f : List Word) (body : State → Transport → List Word → TykDo) : State :=
  if !s.stewUp || f.length != 4 + tykLen f || (tykCode f != m.code && requestCodes.contains (tykCode f)) then s
  else
    let mine (x : TykIn) : Bool := x.via == t && x.words == f
    let was := ((s.tyk.inq.find? mine).map (·.holder)).getD s.tyk.holder
    let s := s.updTyk (fun k => { k with inq := k.inq.eraseP mine })
    if s.recovery then
      if t ≠ .spi then s
      else if recoveryCodes.contains (tykCode f) then s.tykCarry was m len fields t f body
      else s.tykRefuse t f (15, some 0)
    else if t = .host ∧ !s.isManager then s
    else if t = .host ∧ tykDev f ≠ s.devAddr ∧ tykDev f ≠ 0 then s.tykRelay t f
    else s.tykCarry was m len fields t f body

/-! ## The executor -/

/-- A request whose executor is the plot (R318), with `own` what the Steward would answer or do itself. Checks 6 and 7 of R323,
OWNER and STATE, come first (DEDUCED, log entry 38). Then a plot with cores takes it from its mailbox, BUSY where there is no room; for
any other plot the Steward does what `own` says. The agent has until T − 5 ms (R324). -/
def State.byAgent (s : State) (t : Transport) (f : List Word) (own : TykDo) : TykDo :=
  let p := tykPlot f
  let refused : Bool := match own with
    | .error e => e.1 == 6 || e.1 == 15
    | .ok _ => false
  if s.coresOf p ≠ [] ∧ !refused then
    match s.mbPut p f with
    | none => .error (8, some 0)
    | some _ => .ok (fun s =>
      ((s.mbPut p f).getD s).tykHold t f (.agent (s.timebase.toNat + 250000 * (s.tykTime f - 5)) (tykItems f)))
  else own

/-- The request waits for the agent of plot `p`. -/
def TykWait.ofAgent (w : TykWait) (p : Nat) : Bool :=
  (match w.op with
    | .agent _ _ => true
    | _ => false) && tykPlot w.head == p

/-- The instant at which a request that waits for an agent is answered TIMEOUT. -/
def TykWait.due (w : TykWait) : Nat :=
  match w.op with
  | .agent d _ => d
  | _ => 0

/-- The frame in slot HEAD of outbound mailbox `m`. -/
def State.mbFrame (s : State) (m : Nat) : List Word :=
  let a := s.mbSlot m (s.reg (Reg.STW_MB_HEAD m)).toNat
  let n := Nat.min 1020 (getF (s.fetchZ 0 a) ⟨15, 0⟩)
  (List.range (4 + n)).map (fun i => s.fetchZ 0 (a + i))

/-- The Steward consumes a frame of plot `p`'s outbound mailbox (R318, R324): the reply that an outstanding request waits for is
forwarded; any other frame is dropped and counted. -/
def State.agentReply (s : State) (p : Nat) : State :=
  let m := 8 + p
  if !s.stewUp || s.mbCount m == 0 then s
  else
    let f := s.mbFrame m
    let a := s.mbSlot m (s.reg (Reg.STW_MB_HEAD m)).toNat
    let s := s.noteFetches 16 0 ((List.range f.length).map (a + ·))
    let s := s.setReg (Reg.STW_MB_HEAD m) (wd (((s.reg (Reg.STW_MB_HEAD m)).toNat + 1) % 32))
    let mine (w : TykWait) : Bool := w.ofAgent p && answers f w.head
    if tykKind f = 1 ∧ s.tyk.waits.any mine then s.tykEnd mine (fun w s => s.tykFinishWith w.via w.head f)
    else s.stwErr

def execAgentReply (p : Fin 8) (s : State) : Out := .next (s.agentReply p.val)

/-- The request for plot `p`'s agent whose time ends first. -/
def State.firstDue (s : State) (p : Nat) : Option TykWait :=
  (s.tyk.waits.filter (·.ofAgent p)).foldl (fun b w =>
    match b with
    | none => some w
    | some v => if w.due < v.due then some w else b) none

/-- The first request that plot `p`'s agent has not answered by T − 5 ms is answered TIMEOUT at that instant (R324; log entry 121). -/
def State.agentTimeout (s : State) (p : Nat) : State :=
  match (if s.stewUp then s.firstDue p else none) with
  | some w => ((s.passTo w.due).tykEnd (fun x => x == w) (fun w s => s.tykFinish w.via w.head 9 0)).perf 16 5
  | none => s

def execAgentTimeout (p : Fin 8) (s : State) : Out := .next (s.agentTimeout p.val)

/-- No reply has come to the relayed request with this SEQ by T + 40 ms (R324; log entry 121). -/
def State.relayTimeout (s : State) (seq : Word) : State :=
  match (if s.stewUp then s.tyk.relays.reverse.find? (fun q => q.1.getD 3 0 == seq) else none) with
  | some (q, due) =>
    let s := (s.passTo due).updTyk (fun k => { k with relays := k.relays.filter (· != (q, due)) })
    (s.send .host (mkFrame (tykCode q) 1 (tykPlot q) s.devAddr (tykSrcKind q) (tykSrc q) (tykSeq q)
      [statusWord 9 0])).perf 16 5
  | none => s

def execRelayTimeout (seq : Word) (s : State) : Out := .next (s.relayTimeout seq)

/-! ## Reports -/

/-- The reports of plot `p` that are not acknowledged are sent again to its present holder (R326). -/
def execReportResend (p : Fin 8) (s : State) : Out :=
  .next (if s.stewUp then (Tab.get [] s.tyk.reports p.val).foldl (fun s r => s.sendReport p.val r) s else s)

/-- No field of a payload has a range of its own. -/
def noFields (_ : List Word) : List TykField := []

/-- ACK takes the report with SEQ RSEQ from the queue of PLOT (R326); it has no reply. -/
def execAck (t : Transport) (f : List Word) (s : State) : Out :=
  .next (s.request { code := 0x02, sender := .holder } (lenIs 1) noFields t f (fun _ _ f => .ok (fun s =>
    let p := tykPlot f
    s.setReports p ((Tab.get [] s.tyk.reports p).filter (fun r => r.seq != (f.getD 4 0).toNat)))))

end Sys2Proof.Machine
end

