-- ==== Sys2Proof/Machine/Messages.lean ====
section
/-! DEFINITION. The Tyskaolo requests (R327 to R334): the layout of each payload, the checks of ownership and state, what each
carries out and replies. -/
namespace Sys2Proof.Machine

/-- Reserved bits of a payload word. -/
abbrev rsv (w hi lo : Nat) : TykField := ⟨w, hi, lo, 0, 0⟩

/-- Word `i` of a frame's payload. -/
def pay (f : List Word) (i : Nat) : Word := f.getD (4 + i) 0

/-- A field of a payload word. -/
def payF (f : List Word) (i hi lo : Nat) : Nat := getF (pay f i) ⟨hi, lo⟩

/-- A request that is read only: its reply alone. -/
def replyOnly (ws : State → List Word) (t : Transport) (f : List Word) : TykDo := .ok (fun s => s.tykFinish t f 0 0 (ws s))

/-! ## HELLO, DIR_READ, LINK_STATUS -/

/-- PATCH of the firmware that runs: of the image that booted (R354); a free value in recovery. -/
def State.fwPatch (s : State) : Nat :=
  if s.recovery then (Config.freeValue s.freeCtr).toNat % 256
  else getF (s.imgWord (s.fld Reg.SEC_STAT Fd.SEC_STAT_BOOTSLOT) 1) ⟨15, 8⟩

/-- The HELLO reply (R328). -/
def State.helloWords (s : State) : List Word :=
  let role := if s.joined then s.fld Reg.LNK_CTRL Fd.LNK_CTRL_ROLE else 0
  [wd (0x323200 + s.fwPatch), s.reg Reg.STW_UCVER, s.reg Reg.SEC_DEVID,
   wd (role * 2 ^ 21 + Nat.min 1 (s.fld Reg.PWR_STAT Fd.PWR_STAT_STATE) * 2 ^ 19 + s.devAddr)]

def execHello (t : Transport) (f : List Word) (s : State) : Out :=
  .next (s.request { code := 0x01, read := true, sender := .any } (lenIs 0) noFields t f (fun _ t f =>
    .ok (fun s => (if s.recovery then s.useFree else s).tykFinish t f 0 0 s.helloWords)))

/-- The three words of the directory about an address (R328). -/
def State.dirWords (s : State) (a : Nat) : List Word :=
  match s.lnk.dir.find? (fun e => e.addr == a) with
  | some e => [wd (2 ^ 23 + e.role % 8 * 2 ^ 20 + b2n e.lost * 2 ^ 18 + e.seg % 64 * 2 ^ 11 + e.pos % 128), e.devid, e.cser]
  | none => [0, 0, 0]

/-- FIRST + COUNT is at most 2,048, and COUNT carries the bound (DEDUCED, log entry 34). -/
def dirFields (ws : List Word) : List TykField :=
  [rsv 0 12 7, ⟨0, 6, 0, 1, Nat.min 64 (2048 - getF (ws.getD 0 0) ⟨23, 13⟩)⟩]

def execDirRead (t : Transport) (f : List Word) (s : State) : Out :=
  .next (s.request { code := 0x03, read := true, sender := .any } (lenIs 1) dirFields t f (fun s t f =>
    if s.isManager then replyOnly (fun s =>
      (List.range (payF f 0 6 0)).flatMap (fun i => s.dirWords (payF f 0 23 13 + i))) t f
    else .error (15, some 0)))

/-- The word about lane `n` (R328). -/
def State.laneWord (s : State) (n : Nat) : Word :=
  wd (getF (s.fetchZ 0 (Reg.LNK_L_STAT n)) ⟨23, 18⟩ * 2 ^ 18 + getF (s.fetchZ 0 (Reg.LNK_L_ERRCNT n)) ⟨15, 0⟩)

/-- OFFSET in 16 bits; an offset that does not fit is a free value. -/
def State.offset16 (s : State) : Nat :=
  let d := signed 24 (s.reg Reg.LNK_REFOFS).toNat
  if -32768 ≤ d ∧ d ≤ 32767 then (wdI d).toNat % 65536 else (Config.freeValue s.freeCtr).toNat % 65536

def execLinkStatus (t : Transport) (f : List Word) (s : State) : Out :=
  .next (s.request { code := 0x70, read := true, sender := .any } (lenIs 0) noFields t f (fun _ t f =>
    .ok (fun s =>
      let ref := s.fld Reg.LNK_REFSTAT Fd.LNK_REFSTAT_REF * 2 ^ 22 + s.fld Reg.LNK_REFSTAT Fd.LNK_REFSTAT_SLEW * 2 ^ 21
      s.useFree.tykFinish t f 0 0 ((List.range 8).map s.laneWord ++ [wd (ref + s.offset16)]))))

/-! ## SCENE_SET -/

/-- The layout of SCENE_SET; OFS 0x0083 is none (R328). -/
def sceneFields (ws : List Word) : List TykField :=
  [rsv 0 21 16, rsv 1 23 8, ⟨1, 7, 0, 1, 255⟩] ++
  (List.range ((ws.length - 2) / 2)).flatMap (fun i =>
    [rsv (2 + 2 * i) 23 16,
     ⟨2 + 2 * i, 15, 0, 0, if getF (ws.getD (2 + 2 * i) 0) ⟨15, 0⟩ = 0x83 then 0 else 0x3FFF⟩])

/-- The first write whose register the plot may not write (R14, R17); BMx_TGT too where ARM is 1, as which item is free. -/
def State.sceneOwner (s : State) (f : List Word) : Option TykErr :=
  let b := payF f 0 22 22
  let p := tykPlot f
  if bit (pay f 0) 23 ∧ !(s.ownerBM b 0x83).allows p true then some (6, none)
  else ((List.range (payF f 1 7 0)).find? (fun i => !(s.ownerBM b (payF f (2 + 2 * i) 15 0)).allows p true)).map
    (fun i => (6, some i))

/-- The writes in payload order, BMx_TGT first where ARM is 1 (R329). -/
def State.sceneDo (s : State) (f : List Word) : State :=
  let b := payF f 0 22 22
  let s := if bit (pay f 0) 23 then s.writeBeam b 0x83 (wd (2 ^ 23 + payF f 0 15 0)) else s
  forN (payF f 1 7 0) (fun i s => s.writeBeam b (payF f (2 + 2 * i) 15 0) (pay f (3 + 2 * i))) s

def execSceneSet (t : Transport) (f : List Word) (s : State) : Out :=
  .next (s.request { code := 0x10, sender := .holder } (lenN 2 2 1 ⟨7, 0⟩) sceneFields t f (fun s t f =>
    s.byAgent t f (match s.sceneOwner f with
      | some e => .error e
      | none =>
        let b := payF f 0 22 22
        if !s.dom (domOfBeam b) then .error (15, some 0)
        else .ok (fun s =>
          let s := s.sceneDo f
          s.tykFinish t f 0 0 [wd (payF f 1 7 0), s.reg (Reg.BM_SFRAME b)]))))

/-! ## Memory -/

/-- Does the page table of plot `p` map field-memory page `g` with bit `k` of its entry, 22 for R and 21 for W (R280, R330)? -/
def State.ptMaps (s : State) (p g k : Nat) : Bool :=
  (List.range 256).any (fun v =>
    let e := s.reg (Reg.PLT_PT p v)
    bit e 23 && bit e k && getF e ⟨11, 0⟩ == g)

/-- May plot `p` reach the field-memory page: mapped, or for a plot without cores assigned to it (R330)? -/
def State.pageOk (s : State) (p g k : Nat) : Bool :=
  decide (g < 384) && (if s.coresOf p = [] then s.fld (Reg.PLT_PGOWN g) Fd.PLT_PGOWN_OWNER == p else s.ptMaps p g k)

/-- The first of `n` words from address `a` upward in a page that plot `p` may not reach. -/
def State.badPage (s : State) (p a n k : Nat) : Option Nat :=
  (List.range n).find? (fun i => decide (i = 0 ∨ (a + i) % 65536 = 0) && !s.pageOk p ((a + i) / 65536) k)

/-- The address of MEM_WRITE and MEM_READ. -/
def memAddr (f : List Word) : Nat := payF f 0 0 0 * 2 ^ 24 + (pay f 1).toNat

/-- The layout of their first two words: the address lies in field memory (R328). -/
def memFields (ws : List Word) : List TykField :=
  [rsv 0 23 1, ⟨1, 23, 0, 0, if getF (ws.getD 0 0) ⟨0, 0⟩ = 1 then 0x7FFFFF else 0xFFFFFF⟩]

def execMemWrite (t : Transport) (f : List Word) (s : State) : Out :=
  .next (s.request { code := 0x11, sender := .holder } (lenIn 3 1020) memFields t f (fun s t f =>
    s.byAgent t f (match s.badPage (tykPlot f) (memAddr f) (tykLen f - 2) 21 with
      | some i => .error (6, some i)
      | none =>
        if !s.memReady then .error (15, some 0)
        else .ok (fun s => (s.putWords 16 (memAddr f) (f.drop 6)).tykFinish t f 0 0))))

def execMemRead (t : Transport) (f : List Word) (s : State) : Out :=
  .next (s.request { code := 0x12, read := true, sender := .holder } (lenIs 3)
    (fun ws => memFields ws ++ [rsv 2 23 10, ⟨2, 9, 0, 1, 1019⟩]) t f (fun s t f =>
    let n := payF f 2 9 0
    s.byAgent t f (match s.badPage (tykPlot f) (memAddr f) n 22 with
      | some i => .error (6, some i)
      | none =>
        if !s.memReady then .error (15, some 0)
        else .ok (fun s =>
          let as := (List.range n).map (memAddr f + ·)
          (s.noteFetches 16 0 as).tykFinish t f 0 0 (as.map s.cohWord)))))

/-- AGENT goes to a plot that owns cores; any other answers STATE (R327). -/
def execAgent (t : Transport) (f : List Word) (s : State) : Out :=
  .next (s.request { code := 0x13, sender := .holder } (lenIn 1 1020) (fun _ => [rsv 0 23 14, ⟨0, 13, 0, 1, 10000⟩]) t f
    (fun s t f => s.byAgent t f
      (if s.coresOf (tykPlot f) ≠ [] then .ok (fun s => s) else .error (15, some 0))))

/-! ## Sheaves -/

/-- SHEAF of slot PLOT (R331). -/
def execSheaf (t : Transport) (f : List Word) (s : State) : Out :=
  .next (s.request { code := 0x20, sender := .holder } (lenIn 6 516) (fun _ => [rsv 1 23 1]) t f (fun s t f =>
    let p := tykPlot f
    let a := 16 * (pay f 0).toNat
    s.byAgent t f (match s.badPage p a (tykLen f - 3) 21 with
      | some i => .error (6, some i)
      | none =>
        if !s.dom 15 || !s.memReady then .error (15, some 0)
        else if s.shfState p ≠ 0 then .error (8, some 0)
        else .ok (fun s =>
          let s := s.putWords 16 a (f.drop 7)
          let s := (s.setReg (Reg.AUD_SHF_BASE p) (pay f 0)).setReg (Reg.AUD_SHF_TGT p) (pay f 2)
          (s.writeShfCtrl p (wd (payF f 1 0 0 * 2 + 1))).tykHold t f .sheaf))))

/-- SHEAF_CANCEL (R331). -/
def execSheafCancel (t : Transport) (f : List Word) (s : State) : Out :=
  .next (s.request { code := 0x21, sender := .holder } (lenIs 0) noFields t f (fun s t f =>
    let p := tykPlot f
    s.byAgent t f (if !s.dom 15 then .error (15, some 0)
      else .ok (fun s =>
        let s := s.shfCancel p
        s.tykFinish t f 0 0 [wd (s.fld (Reg.AUD_SHF_STAT p) ⟨23, 16⟩ * 65536)]))))

/-! ## Granary pages -/

/-- Write a page through the Steward port (R347). -/
def State.startPage (s : State) (page : Nat) (ws : List Word) : State :=
  (forN 256 (fun i s => s.setReg (Reg.GRN_BUF i) (ws.getD i 0)) s).grnGo page

/-- Begin the page writes of an accepted request; its reply follows the last one. -/
def State.startPages (s : State) (t : Transport) (f : List Word) (ps : List (Nat × List Word)) : State :=
  match ps with
  | [] => s.tykFinish t f 0 0
  | (page, ws) :: rest => (s.tykHold t f (.pages rest 0)).startPage page ws

/-- A page of the Steward port has ended (R332): the next one, OK after the last one, STORE with the pages written. -/
def State.pageEnded (s : State) (ok : Bool) : State :=
  match s.tyk.waits.find? (fun w => match w.op with | .pages _ _ => true | _ => false) with
  | none => s
  | some w =>
    match w.op with
    | .pages todo n =>
      let done := s.tykEnd (fun x => x == w)
      if !ok then done (fun w s => s.tykFinish w.via w.head 14 n)
      else match todo with
        | [] => done (fun w s => s.tykFinish w.via w.head 0 0)
        | (page, ws) :: rest => done (fun w s => (s.tykHold w.via w.head (.pages rest (n + 1))).startPage page ws)
    | _ => s

/-- The Steward port's page is programmed, or its programming has failed (R347). -/
def execGrnProgramDone (ok : Bool) (s : State) : Out :=
  .next (match s.grn.head? with
    | some j => if j.sup then s else (s.grnProgrammed ok).pageEnded ok
    | none => s)

/-- The `n` pages of a payload's words from word 2 on. -/
def pagesOf (f : List Word) (first n : Nat) : List (Nat × List Word) :=
  (List.range n).map (fun i => (first + i, (f.drop (6 + 256 * i)).take 256))

/-- Is the page one of the firmware images', or a log page (R231, R332)? -/
def State.logOrImage (s : State) (page : Nat) : Bool :=
  let b := s.fld Reg.SUP_LOGBASE Fd.SUP_LOGBASE_PAGE
  decide (page < 0x2000 ∨ (b ≤ page ∧ page < b + Nat.max 1 (s.fld Reg.SUP_LOGCFG Fd.SUP_LOGCFG_LEN)))

/-- Is the page a descriptor page (R214, R332)? -/
def State.descPage (s : State) (page : Nat) : Bool :=
  let b := s.fld Reg.SUP_STGBASE Fd.SUP_STGBASE_PAGE
  decide (b ≤ page ∧ page < b + 64)

/-- Does a staged message start or play (R332)? -/
def State.stagingBusy (s : State) : Bool := s.bitAt Reg.SUP_STGSTAT 10 || s.playing != 15

/-- The checks of state that page writes share: the port is free, the Granary is on. -/
def State.pagesMay (s : State) (g : State → State) : TykDo :=
  if !s.dom 3 then .error (15, some 0) else if s.grnPortBusy then .error (8, some 0) else .ok g

/-- STAGE_DATA (R332). -/
def execStageData (t : Transport) (f : List Word) (s : State) : Out :=
  .next (s.request { code := 0x30, sender := .holder0 } (lenN 2 256 1 ⟨1, 0⟩)
    (fun ws => [rsv 0 23 14,
      ⟨0, 13, 0, if (List.range (getF (ws.getD 1 0) ⟨1, 0⟩)).any (fun i =>
        let g := getF (ws.getD 0 0) ⟨13, 0⟩ + i
        s.logOrImage g || s.descPage g) then 16384 else 0, 16381⟩, rsv 1 23 2, ⟨1, 1, 0, 1, 3⟩]) t f (fun s t f =>
    if s.stagingBusy then .error (15, some 0)
    else s.pagesMay (fun s => s.startPages t f (pagesOf f (payF f 0 13 0) (payF f 1 1 0)))))

/-- The ranges of a descriptor (R215), whose word 0 is payload word 1: NW at most 120, and the bits that it does not name 0. -/
def descFields (ws : List Word) : List TykField :=
  let n := if 3 ≤ ws.length then Nat.min 120 (getF (ws.getD 2 0) ⟨7, 0⟩) else 0
  [rsv 1 22 16, rsv 2 19 8, ⟨2, 7, 0, 0, 120⟩] ++ (List.range n).map (fun w => rsv (9 + 2 * w) 22 16)

/-- STAGE_COMMIT writes the descriptor page alone (R332). -/
def execStageCommit (t : Transport) (f : List Word) (s : State) : Out :=
  let page (ws : List Word) : Nat := s.fld Reg.SUP_STGBASE Fd.SUP_STGBASE_PAGE + getF (ws.getD 0 0) ⟨5, 0⟩
  .next (s.request { code := 0x31, sender := .holder0 } (lenIn 2 257)
    (fun ws => [rsv 0 23 6, if s.logOrImage (page ws) then ⟨0, 5, 0, 64, 63⟩ else ⟨0, 5, 0, 0, 63⟩] ++ descFields ws) t f (fun s t f =>
    if s.stagingBusy then .error (15, some 0)
    else s.pagesMay (fun s => s.startPages t f [(page (f.drop 4), f.drop 5)])))

/-- STAGE_START writes STOP, or GO with SLOT, to SUP_STGGO (R328). -/
def execStageStart (t : Transport) (f : List Word) (s : State) : Out :=
  .next (s.request { code := 0x32, sender := .holderS } (lenIs 1) (fun _ => [rsv 0 22 6]) t f (fun s t f =>
    if !s.dom 16 then .error (15, some 0)
    else .ok (fun s =>
      let s := s.writeStggo (if bit (pay f 0) 23 then oneBit 22 else wd (2 ^ 23 + payF f 0 5 0))
      s.tykFinish t f 0 0 [s.reg Reg.SUP_STGSTAT])))

/-- STAGE_LIST gives descriptor word 0 of each slot (R328). -/
def execStageList (t : Transport) (f : List Word) (s : State) : Out :=
  .next (s.request { code := 0x33, read := true, sender := .any } (lenIs 0) noFields t f (fun _ t f =>
    replyOnly (fun s => (List.range 64).map (fun m =>
      s.fetchZ 0 (0xC000000 + 256 * (s.fld Reg.SUP_STGBASE Fd.SUP_STGBASE_PAGE + m)) &&& 0x80FFFF)) t f))

/-! ## Supervision -/

/-- NR_CTRL: START, or ABORT, or neither (R328, R332). -/
def execNrCtrl (t : Transport) (f : List Word) (s : State) : Out :=
  .next (s.request { code := 0x40, sender := .holderS } (lenIs 1)
    (fun ws => [⟨0, 23, 22, 0, if getF (ws.getD 0 0) ⟨23, 22⟩ = 3 then 2 else 3⟩, rsv 0 21 0]) t f (fun s t f =>
    if !s.dom 16 || (bit (pay f 0) 23 && s.nrState != 0) then .error (15, some 0)
    else .ok (fun s =>
      let s := if bit (pay f 0) 23 then s.nrStart else if bit (pay f 0) 22 then s.nrAbort else s
      s.tykFinish t f 0 0 [s.reg Reg.SUP_NRSTAT, s.reg Reg.SUP_NRNUM])))

/-- The Granary page of round `n`'s log (R231). -/
def State.logPageOf (s : State) (n : Nat) : Nat :=
  (s.fld Reg.SUP_LOGBASE Fd.SUP_LOGBASE_PAGE + n % Nat.max 1 (s.fld Reg.SUP_LOGCFG Fd.SUP_LOGCFG_LEN)) % 2 ^ 14

/-- NR_LOG: a page whose NUM differs is answered RANGE (R328). -/
def execNrLog (t : Transport) (f : List Word) (s : State) : Out :=
  let at' (n i : Nat) : Word := s.fetchZ 0 (0xC000000 + 256 * s.logPageOf n + i)
  .next (s.request { code := 0x41, read := true, sender := .holderS } (lenIs 1)
    (fun ws =>
      let n := getF (ws.getD 0 0) ⟨15, 0⟩
      [rsv 0 23 16, if getF (at' n 0) ⟨15, 0⟩ = n then ⟨0, 15, 0, 0, 65535⟩ else ⟨0, 15, 0, 65536, 65535⟩]) t f (fun _ t f =>
    replyOnly (fun _ => (List.range 256).map (at' (payF f 0 15 0))) t f))

/-- OVR_CLEAR (R328): CLR of each input of MASK. REFUSED names those whose channels disagree, CLEARED the others (R221); where
one is refused the reply is STATE. -/
def State.ovrClearAll (s : State) (t : Transport) (f : List Word) : State :=
  let ns := (List.range 8).filter (fun n => (pay f 0).getLsbD n)
  let refused := ns.any (fun n => s.ovA n != s.ovB n)
  let s := ns.foldl (fun s n => s.ovClear n) s
  if refused then s.tykFinish t f 15 0
  else s.tykFinish t f 0 0 [wd (ns.foldl (fun m n => m + 2 ^ n) 0)]

def execOvrClear (t : Transport) (f : List Word) (s : State) : Out :=
  .next (s.request { code := 0x42, sender := .holderS } (lenIs 1) (fun _ => [rsv 0 23 8, ⟨0, 7, 0, 1, 255⟩]) t f (fun s t f =>
    if !s.dom 16 then .error (15, some 0) else .ok (fun s => s.ovrClearAll t f)))

/-! ## Plots -/

/-- The number of resources of each class (R328, R335). -/
def classSize : List Nat := [16, 2, 16, 32, 4, 32, 16, 48, 128, 64, 64, 4, 4, 1, 1, 2, 4, 4, 1, 1]

/-- The layout of PLOT_ASSIGN: COUNT within its range, and FIRST such that the last resource exists (a COUNT out of its own range is
the failing field). -/
def assignFields (ws : List Word) : List TykField :=
  let w := ws.getD 0 0
  let size := classSize.getD (getF w ⟨23, 19⟩) 0
  let n := getF w ⟨7, 0⟩
  [⟨0, 23, 19, 0, 19⟩, ⟨0, 7, 0, 1, 128⟩, if n ≤ size then ⟨0, 15, 8, 0, size - n⟩ else ⟨0, 15, 8, 256, 255⟩]

/-- PLOT_ASSIGN (R333, R345): from plot 0, or from a plot in FENCED. -/
def execPlotAssign (t : Transport) (f : List Word) (s : State) : Out :=
  let c := payF f 0 23 19
  let p := payF f 0 18 16
  let is := (List.range (payF f 0 7 0)).map (payF f 0 15 8 + ·)
  .next (s.request { code := 0x50, sender := .holder0 } (lenIs 1) assignFields t f (fun s t f =>
    if is.all (fun i =>
      let q := s.ownerRes c i
      q == 0 || q == p || s.plotState q == 2) then
      .ok (fun s => (is.foldl (fun s i => s.setFld (Reg.PLT_OWN c i) Fd.PLT_OWN_OWNER p) s).tykFinish t f 0 0)
    else .error (15, some 0)))

/-- PLOT_CTRL (R333, R341): an action that the plot's state does not allow is answered STATE; a fence and a reset are answered
when they are complete. -/
def execPlotCtrl (t : Transport) (f : List Word) (s : State) : Out :=
  let p := payF f 0 2 0
  let act := payF f 0 23 21
  .next (s.request { code := 0x51, sender := .holder0 } (lenIs 1)
    (fun _ => [⟨0, 23, 21, 1, 4⟩, rsv 0 20 3, ⟨0, 2, 0, 1, 7⟩]) t f (fun s t f =>
    if s.plotState p ≠ (if act = 1 then 0 else 2) then .error (15, some 0)
    else .ok (fun s =>
      match act with
      | 1 => (s.tykHold t f (.fence p)).plotFence p
      | 2 => (s.plotRelease p).tykFinish t f 0 0
      | 3 => (s.tykHold t f (.reset p)).plotReset p
      | _ => (s.plotRestart p).tykFinish t f 0 0)))

/-- PLOT_DELEGATE takes effect at its reply (R18, R333). -/
def execPlotDelegate (t : Transport) (f : List Word) (s : State) : Out :=
  .next (s.request { code := 0x52, sender := .holderOr0 } (lenIs 1) (fun _ => [rsv 0 21 11]) t f (fun s t f =>
    let p := tykPlot f
    let k := payF f 0 23 22
    if (k = 0 ∧ s.coresOf p = []) ∨ (p = 0 ∧ (k = 0 ∨ k = 3)) then .error (15, some 0)
    else .ok (fun s => (s.tykFinish t f 0 0).updTyk (fun x =>
      { x with holder := Tab.put (1, 0) x.holder p (k, payF f 0 10 0) }))))

/-- PLOT_QOS: WEIGHT, then the beam reservation, which the plot controller drops where the sum exceeds 16 (R340): HWREJ, whose
cause the plot controller does not keep. -/
def execPlotQos (t : Transport) (f : List Word) (s : State) : Out :=
  .next (s.request { code := 0x53, sender := .holder0 } (lenIs 2)
    (fun _ => [rsv 0 23 16, rsv 0 7 0, rsv 1 23 19, rsv 1 15 10, ⟨1, 9, 5, 0, 16⟩, ⟨1, 4, 0, 0, 16⟩]) t f (fun _ t f =>
    .ok (fun s =>
      let p := payF f 1 18 16
      let v := pay f 1 &&& 0x3FF
      let s := s.setFld (Reg.FAB_QOS p) Fd.FAB_QOS_WEIGHT (payF f 0 15 8)
      let bad := decide (16 < s.bresSum p Fd.PLT_BRES_RESA v ∨ 16 < s.bresSum p Fd.PLT_BRES_RESB v)
      let s := s.writeBres p v
      if bad then s.tykFinishFree t f 13 else s.tykFinish t f 0 0)))

/-! ## Identity -/

/-- Word `i` of certificate `which` (R350, R351); a word past its end is a free value. -/
def State.certWord (s : State) (which i : Nat) : Word :=
  let ws := packWords (if which = 0 then deviceCert else s.operatorCert)
  if i < ws.length then ws.getD i 0 else Config.freeValue (s.freeCtr + i)

/-- The length of certificate `which` in bytes: of the operator certificate the length that its DER says, 0 where none is
enrolled. -/
def State.certBytes (s : State) (which : Nat) : Nat := (if which = 0 then deviceCert else s.operatorCert).length

def execCertRead (t : Transport) (f : List Word) (s : State) : Out :=
  .next (s.request { code := 0x60, read := true, sender := .any } (lenIs 2)
    (fun _ => [rsv 0 22 12, rsv 1 23 10, ⟨1, 9, 0, 1, 1000⟩]) t f (fun _ t f =>
    .ok (fun s =>
      let which := payF f 0 23 23
      let ws := (List.range (payF f 1 9 0)).map (fun i => s.certWord which (payF f 0 11 0 + i))
      { s with freeCtr := s.freeCtr + 8192 }.tykFinish t f 0 0 (wd (s.certBytes which % 65536) :: ws))))

/-- The enrolment of what CERT_ENROL has brought (R351): the stage that fails, or both certificates. -/
def State.enrolCheck (s : State) (bs : List (BitVec 8)) : Except Nat (List (BitVec 8) × List (BitVec 8) × List (BitVec 8)) :=
  match certParse bs with
  | none => .error 1
  | some c =>
    match certParse (bs.drop c.len) with
    | none => .error 1
    | some r =>
      if 6144 < c.len + r.len then .error 1
      else if c.key ≠ devicePub then .error 2
      else if !c.signedBy r.key then .error 3
      else if s.bitAt Reg.SEC_STAT 21 ∧ packWords (Crypto.sha256 r.key) ≠ (List.range 11).map (fun i => s.reg (Reg.SEC_OPROOT i)) then
        .error 4
      else .ok (bs.take c.len, (bs.drop c.len).take r.len, r.key)

/-- Both certificates are stored; SEC_OPROOT and OPSET are set where they were not (R351). -/
def State.enrolInstall (s : State) (cert root key : List (BitVec 8)) : State :=
  let s := { s with sec := { s.sec with cert := packWords cert, root := packWords root } }
  if s.bitAt Reg.SEC_STAT 21 then s
  else
    let ws := packWords (Crypto.sha256 key)
    (forN 11 (fun i s => s.setReg (Reg.SEC_OPROOT i) (ws.getD i 0)) s).setBit Reg.SEC_STAT 21

def execCertEnrol (t : Transport) (f : List Word) (s : State) : Out :=
  .next (s.request { code := 0x61, sender := .holder0 } (lenIn 2 1020) (fun _ => [rsv 0 22 12]) t f (fun _ t f =>
    .ok (fun s =>
      let ws := f.drop 5
      let o := payF f 0 11 0
      let s := s.updTyk (fun k => { k with enrol := (ws.zipIdx).foldl (fun e x => Tab.put 0 e (o + x.2) x.1) k.enrol })
      if !bit (pay f 0) 23 then s.tykFinish t f 0 0
      else
        let bs := ((List.range (o + ws.length)).map (fun i => Tab.get 0 s.tyk.enrol i)).flatMap wordBytes
        match s.enrolCheck bs with
        | .error n => s.tykFinish t f 11 n
        | .ok (cert, root, key) => (s.enrolInstall cert root key).tykFinish t f 0 0)))

/-! ## Firmware -/

/-- The inactive image slot. -/
def State.inactiveSlot (s : State) : Nat := 1 - s.fld Reg.GRN_IMGSEL Fd.GRN_IMGSEL_ACT

/-- FW_WRITE of pages of the inactive image slot (R328, R348). -/
def execFwWrite (t : Transport) (f : List Word) (s : State) : Out :=
  .next (s.request { code := 0x62, sender := .holder0 } (lenN 2 256 1 ⟨1, 0⟩)
    (fun ws => [rsv 0 23 14, ⟨0, 13, 0, 0, 4096 - Nat.max 1 (getF (ws.getD 1 0) ⟨1, 0⟩)⟩, rsv 1 23 2, ⟨1, 1, 0, 1, 3⟩]) t f
    (fun s t f =>
      let k := s.inactiveSlot
      if s.grnProtected (k * 0x1000) then .error (15, some 0)
      else s.pagesMay (fun s => s.startPages t f (pagesOf f (k * 0x1000 + payF f 0 13 0) (payF f 1 1 0)))))

/-- The customer section of slot `k`: its VER and its first word, where it has a valid one (R307). -/
def State.customerSection (s : State) (k : Nat) : Option (Nat × Nat) :=
  ((s.imgSecs k).find? (fun x => x.1 == 1)).bind (fun x =>
    let w (i : Nat) : Word := s.imgWord k (x.2.1 + i)
    if (w 0).toNat = 1 ∧ (w 2).toNat = 2048 then some (getF (w 1) ⟨15, 0⟩, x.2.1 + 4) else none)

/-- The inactive bank takes the active base microcode and the customer section of slot `k`, or the stubs where the image has none,
and the banks swap (R307, R312, R313, R334). -/
def State.swapCustomer (s : State) (k : Nat) : State :=
  let act := s.ucBank * 0x2000
  let s := forN 0x1800 (fun o s => s.ucPut (s.ucInactive o) (s.ucWord (act + o)) false) s.ucTouched
  let (ver, word) : Nat × (Nat → Option Word) := match s.customerSection k with
    | some (v, at') => (v, fun i => some (s.imgWord k (at' + i)))
    | none => (0, fun _ => none)
  let s := forN 0x800 (fun i s => s.ucLoad (s.ucInactive (0x1800 + i)) (word i) false) s
  let s := s.setReg Reg.STW_UCVERI (putF (s.reg Reg.STW_UCVER) Fd.STW_UCVER_CUST ver)
  s.ucExchange

/-- FW_ACTIVATE (R334, R356): the inactive image is verified and becomes the one that boots next; with SWAP its customer
microcode runs at once; in recovery the Steward resets. -/
def execFwActivate (t : Transport) (f : List Word) (s : State) : Out :=
  .next (s.request { code := 0x63, sender := .holder0 } (lenIs 1) (fun _ => [rsv 0 22 0]) t f (fun s t f =>
    let k := s.inactiveSlot
    let swap := bit (pay f 0) 23
    if !s.dom 3 || (swap && s.ucLegacy) then .error (15, some 0)
    else .ok (fun s =>
      if !s.imgOk k then s.tykFinishFree t f 11
      else
        let s := s.setReg Reg.GRN_IMGSEL (wd k)
        let s := if swap then s.swapCustomer k else s
        let s := s.tykFinish t f 0 0 [s.reg Reg.STW_UCVER]
        if s.recovery then s.stewReset else s)))

/-! ## Routing -/

/-- The layout of LINK_ROUTE. -/
def routeFields (ws : List Word) : List TykField :=
  [rsv 0 23 7, ⟨0, 6, 0, 1, 64⟩] ++
  (List.range ((ws.length - 1) / 2)).flatMap (fun i => [rsv (1 + 2 * i) 21 12, rsv (2 + 2 * i) 23 8])

/-- Stage the entry of a stream: in the staged entry that names it, else in the lowest one with EN 0; none where all are in use
(log entry 35). -/
def State.stageRoute (s : State) (e lanes : Word) : Option State :=
  let has (i : Nat) : Bool := s.bitAt (Reg.LNK_RT i) 22 && s.fld (Reg.LNK_RT i) Fd.LNK_RT_SID == getF e ⟨11, 0⟩
  match ((List.range 256).find? has).orElse (fun _ => (List.range 256).find? (fun i => !s.bitAt (Reg.LNK_RT i) 22)) with
  | some i => some (s.setReg (Reg.LNK_RT i) (putF (e &&& 0xC00FFF) Fd.LNK_RT_LANES (getF lanes ⟨7, 0⟩)))
  | none => none

/-- Stage the entries of a LINK_ROUTE in order. -/
def State.stageRoutes (s : State) (f : List Word) : Option State :=
  (List.range (payF f 0 6 0)).foldl (fun o i => o.bind (fun s => s.stageRoute (pay f (1 + 2 * i)) (pay f (2 + 2 * i)))) (some s)

/-- LINK_ROUTE stages its entries and then writes GO (R328, R376). -/
def execLinkRoute (t : Transport) (f : List Word) (s : State) : Out :=
  .next (s.request { code := 0x71, sender := .holder0 } (lenN 1 2 0 ⟨6, 0⟩) routeFields t f (fun s t f =>
    match s.stageRoutes f with
    | none => .error (8, some 0)
    | some _ => .ok (fun s => (((s.stageRoutes f).getD s).routeGo).tykFinish t f 0 0)))

end Sys2Proof.Machine
end

