-- ==== Sys2Proof/Machine/Ports.lean ====
section
/-! DEFINITION. The two host ports: the SPI target port of the local host (R319, R428) and the frames of the debug port (R451,
R454 to R456). -/
namespace Sys2Proof.Machine

/-! ## SPI target port -/

/-- The number under which the local host's last answer stands in `State.resp`; no requester of R15 has it. -/
def hostPort : Nat := 26

/-- Does the port hold an outbound frame (OUTRDY)? -/
def State.outRdy (s : State) : Bool := s.tyk.out.any (fun x => x.1 == .spi)

/-- Does the port hold no inbound frame (INRDY)? -/
def State.inRdy (s : State) : Bool := !s.tyk.inq.any (fun x => x.via == .spi)

/-- Set or clear ERR. -/
def State.setSpiErr (s : State) (b : Bool) : State := { s with pads := { s.pads with spiErr := b } }

/-- A transaction is dropped: ERR, and cause 4 (R428). -/
def State.spiDrop (s : State) : State := (s.setSpiErr true).err 14 4

/-- A transaction while PD19 is off reaches no port. -/
def State.spiDo (s : State) (f : State → State) : State := if s.dom 19 then f s else s

/-- STATUS: OUTRDY in bit 7, INRDY in bit 6, ERR in bit 0, which then clears (R428). -/
def State.spiStatus (s : State) : State :=
  let v := wd (b2n s.outRdy * 128 + b2n s.inRdy * 64 + b2n s.pads.spiErr)
  (s.setSpiErr false).answer hostPort ⟨v, [], .ok⟩

def execSpiStatus (s : State) : Out := .next (s.spiDo State.spiStatus)

/-- Bytes as words, most significant byte first (R319). -/
def bytesToWords : List (BitVec 8) → List Word
  | a :: b :: c :: t => (a ++ b ++ c) :: bytesToWords t
  | _ => []

/-- WRITE of the bytes that follow the command byte: a frame of 4 + LEN words while INRDY is 1, else it is dropped (R428). -/
def State.spiWrite (s : State) (bytes : List (BitVec 8)) : State :=
  let f := bytesToWords bytes
  if s.inRdy && decide (12 ≤ bytes.length ∧ bytes.length = 3 * (4 + tykLen f)) then
    { s with tyk := { s.tyk with inq := s.tyk.inq ++ [⟨.spi, f, s.tyk.holder⟩] } }
  else s.spiDrop

def execSpiWrite (bytes : List (BitVec 8)) (s : State) : Out := .next (s.spiDo (fun s => s.spiWrite bytes))

/-- READ gives the bytes of the next outbound frame, or is dropped while OUTRDY is 0 (R319, R428). -/
def State.spiRead (s : State) : State :=
  match s.tyk.out.find? (fun x => x.1 == .spi) with
  | some x =>
    State.answer { s with tyk := { s.tyk with out := s.tyk.out.erase x } } hostPort
      ⟨(x.2.getD 0 0).setWidth 24, (x.2.drop 1).map (fun b => b.setWidth 24), .ok⟩
  | none => s.spiDrop

def execSpiRead (s : State) : Out := .next (s.spiDo State.spiRead)

/-- XHCS low for more than 100 ms (R428). -/
def execSpiCsTimeout (s : State) : Out := .next (s.spiDo State.spiDrop)

/-! ## Debug port -/

/-- Change the debug port. -/
def State.updDbg (s : State) (f : DbgSt → DbgSt) : State := { s with dbg := f s.dbg }

/-- The response: ACK and DATA (R454). -/
def State.dbgReply (s : State) (ack : Nat) (v : Word) : State := s.updDbg (fun d => { d with ack := ack, data := v })

/-- An access of one word by requester 25, a read where `w` is none: ACK 1 with the data, or 3 (R454, R455). -/
def State.dbgAccess (s : State) (a : Nat) (w : Option Word) : State × Nat × Word :=
  match w with
  | some v =>
    let (t, k) := s.busWrite 25 0 a v
    (t, if k = .ok then 1 else 3, 0)
  | none =>
    let (t, r) := s.busRead 25 0 a
    if r.kind = .ok then (t, 1, r.value) else (t, 3, 0)

/-- Does the lock refuse the access (R456)? -/
def State.dbgLocked (s : State) (a : Nat) (w : Option Word) : Bool :=
  match w with
  | some v => s.lockRefuses a v
  | none => decide (2 ≤ s.lock)

/-- READ, WRITE and their + forms: WAIT while an access is outstanding, LOCKED, or the access, which answers WAIT where `wait`
says that the fabric has not answered in time. The DBG window is reached directly (R455). -/
def State.dbgRequest (s : State) (a : Nat) (w : Option Word) (wait : Bool) : State :=
  if !s.session then s
  else if s.dbg.wait.isSome then s.dbgReply 2 0
  else if s.dbgLocked a w then (s.dbgErr 6).dbgReply 4 0
  else
    let s := s.updDbg (fun d => { d with addr := a })
    if wait && !(decide (0x8100000 ≤ a ∧ a < 0x8110000)) then (s.updDbg (fun d => { d with wait := some (a, w) })).dbgReply 2 0
    else let (t, k, v) := s.dbgAccess a w; t.dbgReply k v

/-- The address after the last one, which does not wrap (R473). -/
def State.dbgNext (s : State) : Nat := s.dbg.addr + 1

def execDbgRead (a : Addr) (wait : Bool) (s : State) : Out := .next (s.dbgRequest a.toNat none wait)

def execDbgWrite (a : Addr) (v : Word) (wait : Bool) (s : State) : Out := .next (s.dbgRequest a.toNat (some v) wait)

def execDbgReadPlus (wait : Bool) (s : State) : Out := .next (s.dbgRequest s.dbgNext none wait)

def execDbgWritePlus (v : Word) (wait : Bool) (s : State) : Out := .next (s.dbgRequest s.dbgNext (some v) wait)

/-- RESULT: WAIT until the outcome exists (R455); at level 2 it is refused (R456). -/
def State.dbgResult (s : State) : State :=
  if !s.session then s
  else if s.dbg.wait.isSome then s.dbgReply 2 0
  else if 2 ≤ s.lock then (s.dbgErr 6).dbgReply 4 0
  else match s.dbg.result with
    | some (k, v) => s.dbgReply k v
    | none => s.dbgReply 2 0

def execDbgResult (s : State) : Out := .next s.dbgResult

/-- STATUS (R454). -/
def execDbgStatus (s : State) : Out :=
  .next (if s.session then
    s.dbgReply 1 (wd (getF (s.reg Reg.DBG_CTRL) ⟨23, 16⟩ * 65536 + getF (s.reg Reg.DBG_HALTED) ⟨15, 0⟩)) else s)

/-- CLOSE ends the session after its response (R451). -/
def execDbgClose (s : State) : Out :=
  .next (if !s.session then s
    else if s.dbg.wait.isSome then s.dbgReply 2 0
    else s.closeSession.dbgReply 1 0)

/-- The access that answered WAIT completes (R455). -/
def State.dbgDone (s : State) : State :=
  match s.dbg.wait with
  | none => s
  | some (a, w) =>
    let (t, k, v) := s.dbgAccess a w
    t.updDbg (fun d => { d with wait := none, result := some (k, v) })

def execDebugAccessDone (s : State) : Out := .next s.dbgDone

end Sys2Proof.Machine
end

