-- ==== Sys2Proof/Machine/Units.lean ====
section
/-! DEFINITION. Ends of unit work that move words over the bus, and the delivery of tine events: security operations (R353), Glean
records (R466), TINE_DELIVERY (R396, R399, R400). -/
namespace Sys2Proof.Machine

/-! ## Security operations -/

/-- Reads `n` bytes from 16 × SRC, three to a word, as requester 24 with plot `p` (R353). -/
def State.secInput (s : State) (p n : Nat) : State × List (BitVec 8) × Bool :=
  let (s, ws, ok) := s.busReads 24 p (16 * (s.reg (Reg.SEC_OP_SRC p)).toNat) ((n + 2) / 3)
  (s, (ws.flatMap wordBytes).take n, ok)

/-- BUSY clears with a RES, and OPDONE is set. -/
def State.secEnd (s : State) (p res : Nat) : State :=
  let a := Reg.SEC_OP_CTRL p
  ((s.clrBit a 22).setFld a Fd.SEC_OP_CTRL_RES res).setBit Reg.SEC_EVT 0

/-- The operation of slot `p` ends: its result stands at 16 × DST; RES is 1 where a tag fails and 2 where an access fails. -/
def State.secDone (s : State) (p : Nat) : State :=
  let a := Reg.SEC_OP_CTRL p
  if !s.bitAt a 22 then s
  else
    let op := s.fld a Fd.SEC_OP_CTRL_OP
    let n := if op = 3 then 32 else s.fld (Reg.SEC_OP_LEN p) Fd.SEC_OP_LEN_LEN
    let (s, bs, ok) := s.secInput p n
    if !ok then s.secEnd p 2
    else
      let (s, out) := s.secCompute p op bs
      match out with
      | none => s.secEnd p 1
      | some bs =>
        let (s, ok) := s.busWrites 24 p (16 * (s.reg (Reg.SEC_OP_DST p)).toNat) (packWords bs)
        s.secEnd p (if ok then 0 else 2)

def execSecOpDone (p : Fin 8) (s : State) : Out := .next (s.secDone p.val)

/-! ## Glean records -/

/-- The words of a record reach memory as requester 23; a write with an error response is lost with cause 4 (R466). -/
def State.glnStore (s : State) (base : Nat) (ws : List Word) : State :=
  (ws.zipIdx).foldl (fun s x =>
    let (t, k) := s.busWrite 23 0 (base + x.2) x.1
    if k = .ok then t else t.glnErr 4 0) s

/-- The last word of the record is written: SNAP, WRAP at the end of the ring, TINE (R466). Where the fabric answers it with an
error, that word is lost with cause 4. -/
def State.glnRecordDone (s : State) (r : BusResp) : State :=
  match s.gln with
  | none => s
  | some (base, ws) =>
    let s := if r = .ok then s.glnStore base ws else (s.glnStore base ws.dropLast).glnErr 4 0
    let n := s.fld Reg.GLN_STAT Fd.GLN_STAT_SEQ
    let len := Nat.max 1 (s.fld Reg.GLN_LEN Fd.GLN_LEN_LEN)
    let s := ((s.setFld Reg.GLN_STAT Fd.GLN_STAT_SEQ (n + 1)).clrBit Reg.GLN_STAT 23).setBit Reg.GLN_EVT 0
    let s := if n % len = len - 1 then s.setBit Reg.GLN_EVT 1 else s
    State.publishIf { s with gln := none } (s.bitAt Reg.GLN_CTRL 15) (s.fld Reg.GLN_CTRL Fd.GLN_CTRL_TINE)

def execGleanRecordDone (r : BusResp) (s : State) : Out := .next (s.glnRecordDone r)

/-! ## Tine delivery -/

/-- Signal `n` at gate unit `k` (R399). -/
def State.gateSignal (s : State) (k n : Nat) : Bool :=
  if n < 48 then s.pads.filt.getLsbD n
  else if n < 56 then (Tab.get {} s.sup.ov (n - 48)).act
  else if n < 58 then s.genState (n - 56) == 2 || s.genState (n - 56) == 3
  else if n < 60 then !s.bitAt (Reg.BM_TPOS (n - 58)) 22
  else if n = 60 then s.audState == 2
  else if n = 61 then s.nrState != 0
  else if n = 62 then s.bitAt (Reg.TIN_GU k) 7
  else true

/-- The gate units that take tine `t`: each publishes on its OUT where its signal, inverted where INV is 1, is 1 (R399). -/
def State.gateUnits (s : State) (t : Nat) : State :=
  forN 16 (fun k s =>
    let a := Reg.TIN_GU k
    if s.bitAt a 23 && s.fld a Fd.TIN_GU_IN == t && (s.gateSignal k (s.fld a Fd.TIN_GU_SIG) != s.bitAt a 22) then
      { s with tin := { s.tin with waiting := s.tin.waiting ++ [⟨s.fld a Fd.TIN_GU_OUT, true⟩] } }
    else s) s

/-- TIN_SEEN of every plot has the tine's bit set (R400). -/
def State.tineSeen (s : State) (t : Nat) : State := forN 8 (fun p s => s.setBit (Reg.TIN_SEEN p (t / 24)) (t % 24)) s

/-- The next event in the network on tine `t` is delivered: TIN_SEEN, the gate units unless a gate unit published it, then timers,
Drill, Furrow engines, voices and the night round. -/
def State.tineDeliver (s : State) (t : Nat) : State :=
  match s.tin.transit.find? (fun e => e.tine == t) with
  | none => s
  | some e =>
    let s := { s with tin := { s.tin with transit := s.tin.transit.erase e } }.tineSeen t
    let s := if e.fromGate then s else s.gateUnits t
    ((((s.tmrTineEvent t).drlTineEvent t).furTineEvent t).voiceTine t).nrTine t

def execTineDelivery (tine : Tine) (s : State) : Out := .next (s.tineDeliver tine.toNat)

end Sys2Proof.Machine
end

