-- ==== Sys2Proof/Machine/Dispatch.lean ====
section
/-! DEFINITION. One arm for each command: a call of its meaning. -/
namespace Sys2Proof.Machine

def exec (i : Instr) (s : State) : Host.Outcome State Fault Refusal :=
  match i with
  | .registerWrite req a v => Sys2Proof.Machine.execRegisterWrite req a v s
  | .paceWindow cycles => Sys2Proof.Machine.execPaceWindow cycles s
  | .mirrorTransfer ofs => Sys2Proof.Machine.execMirrorTransfer ofs s
  | .handshakeTimeout port req => Sys2Proof.Machine.execHandshakeTimeout port req s
  | .lateAcknowledge port => Sys2Proof.Machine.execLateAcknowledge port s
  | .fmenSet req => Sys2Proof.Machine.execFmenSet req s
  | .fieldMemoryInitDone => Sys2Proof.Machine.execFieldMemoryInitDone s
  | .refreshCycle q => Sys2Proof.Machine.execRefreshCycle q s
  | .refreshRateChange q temp => Sys2Proof.Machine.execRefreshRateChange q temp s
  | .transactionIssue req plot a op => Sys2Proof.Machine.execTransactionIssue req plot a op s
  | .transactionResponse tag => Sys2Proof.Machine.execTransactionResponse tag s
  | .creditWrite req n v => Sys2Proof.Machine.execCreditWrite req n v s
  | .bankSleep bank => Sys2Proof.Machine.execBankSleep bank s
  | .bankWakeStart bank beamWaits => Sys2Proof.Machine.execBankWakeStart bank beamWaits s
  | .bankWakeDone bank => Sys2Proof.Machine.execBankWakeDone bank s
  | .snoop c line => Sys2Proof.Machine.execSnoop c line s
  | .writeback c line => Sys2Proof.Machine.execWriteback c line s
  | .semaphoreAcquire req p n => Sys2Proof.Machine.execSemaphoreAcquire req p n s
  | .semaphoreClrbrk req p n => Sys2Proof.Machine.execSemaphoreClrbrk req p n s
  | .semaphoreRel req p n => Sys2Proof.Machine.execSemaphoreRel req p n s
  | .semaphoreWait req p n => Sys2Proof.Machine.execSemaphoreWait req p n s
  | .semaclWrite req n v => Sys2Proof.Machine.execSemaclWrite req n v s
  | .fenceReq req p => Sys2Proof.Machine.execFenceReq req p s
  | .fenceTimeout p => Sys2Proof.Machine.execFenceTimeout p s
  | .fenceDone p => Sys2Proof.Machine.execFenceDone p s
  | .fenceRel req p => Sys2Proof.Machine.execFenceRel req p s
  | .tagpeakClr req => Sys2Proof.Machine.execTagpeakClr req s
  | .timingEnable req b => Sys2Proof.Machine.execTimingEnable req b s
  | .timingDisable req b => Sys2Proof.Machine.execTimingDisable req b s
  | .tgo req b => Sys2Proof.Machine.execTgo req b s
  | .pixelPllLock b => Sys2Proof.Machine.execPixelPllLock b s
  | .glkInEdge rising => Sys2Proof.Machine.execGlkInEdge rising s
  | .glkLoss b => Sys2Proof.Machine.execGlkLoss b s
  | .frameHeadlandStart b => Sys2Proof.Machine.execFrameHeadlandStart b s
  | .lineHeadlandStart b => Sys2Proof.Machine.execLineHeadlandStart b s
  | .frameStart b => Sys2Proof.Machine.execFrameStart b s
  | .lineSendStart b full => Sys2Proof.Machine.execLineSendStart b full s
  | .vloopWindow => Sys2Proof.Machine.execVloopWindow s
  | .vreqResponse ack => Sys2Proof.Machine.execVreqResponse ack s
  | .thermalLimitStep => Sys2Proof.Machine.execThermalLimitStep s
  | .paletteWrite req b i1 v => Sys2Proof.Machine.execPaletteWrite req b i1 v s
  | .compositorLineStart b => Sys2Proof.Machine.execCompositorLineStart b s
  | .segmentStart b => Sys2Proof.Machine.execSegmentStart b s
  | .captureFrameDone b => Sys2Proof.Machine.execCaptureFrameDone b s
  | .regionCompare b n => Sys2Proof.Machine.execRegionCompare b n s
  | .regionNoframe b n => Sys2Proof.Machine.execRegionNoframe b n s
  | .regionCap req b n => Sys2Proof.Machine.execRegionCap req b n s
  | .furrowEnd b skip => Sys2Proof.Machine.execFurrowEnd b skip s
  | .furrowWr b ofs v => Sys2Proof.Machine.execFurrowWr b ofs v s
  | .furrowWrn b ofs vs => Sys2Proof.Machine.execFurrowWrn b ofs vs s
  | .furrowWrf b ofs mask v => Sys2Proof.Machine.execFurrowWrf b ofs mask v s
  | .furrowAdd b ofs delta => Sys2Proof.Machine.execFurrowAdd b ofs delta s
  | .furrowJmp b target => Sys2Proof.Machine.execFurrowJmp b target s
  | .furrowLoop b count target => Sys2Proof.Machine.execFurrowLoop b count target s
  | .furrowPub b tine => Sys2Proof.Machine.execFurrowPub b tine s
  | .furrowWaitl b line => Sys2Proof.Machine.execFurrowWaitl b line s
  | .furrowSkipev b k => Sys2Proof.Machine.execFurrowSkipev b k s
  | .furrowHalt b => Sys2Proof.Machine.execFurrowHalt b s
  | .furrowReservedOpcode b op => Sys2Proof.Machine.execFurrowReservedOpcode b op s
  | .furrowFetchResponse b r => Sys2Proof.Machine.execFurrowFetchResponse b r s
  | .hrwSubmit req q base => Sys2Proof.Machine.execHrwSubmit req q base s
  | .hrwFlush req q => Sys2Proof.Machine.execHrwFlush req q s
  | .harrowPause req => Sys2Proof.Machine.execHarrowPause req s
  | .harrowResume req => Sys2Proof.Machine.execHarrowResume req s
  | .harrowFetchResponse r => Sys2Proof.Machine.execHarrowFetchResponse r s
  | .harrowEnd => Sys2Proof.Machine.execHarrowEnd s
  | .surf fmt sel base stride => Sys2Proof.Machine.execSurf fmt sel base stride s
  | .clip en x0 y0 x1 y1 => Sys2Proof.Machine.execClip en x0 y0 x1 y1 s
  | .lut base => Sys2Proof.Machine.execLut base s
  | .harrowKey en key => Sys2Proof.Machine.execHarrowKey en key s
  | .fill alpha xdir ydir colour dx dy w h => Sys2Proof.Machine.execFill alpha xdir ydir colour dx dy w h s
  | .copy alpha xdir ydir pal sx sy dx dy w h => Sys2Proof.Machine.execCopy alpha xdir ydir pal sx sy dx dy w h s
  | .waitwm b => Sys2Proof.Machine.execWaitwm b s
  | .harrowPub tine => Sys2Proof.Machine.execHarrowPub tine s
  | .harrowReservedOpcode op => Sys2Proof.Machine.execHarrowReservedOpcode op s
  | .harrowBurst r => Sys2Proof.Machine.execHarrowBurst r s
  | .rowEnd => Sys2Proof.Machine.execRowEnd s
  | .listComplete q => Sys2Proof.Machine.execListComplete q s
  | .watermarkTimeout q => Sys2Proof.Machine.execWatermarkTimeout q s
  | .audioEnable req => Sys2Proof.Machine.execAudioEnable req s
  | .audioPllLock => Sys2Proof.Machine.execAudioPllLock s
  | .audioRunStart => Sys2Proof.Machine.execAudioRunStart s
  | .audioDisable req => Sys2Proof.Machine.execAudioDisable req s
  | .audioIndexCompute pdm sns => Sys2Proof.Machine.execAudioIndexCompute pdm sns s
  | .tdmFrame t slots => Sys2Proof.Machine.execTdmFrame t slots s
  | .nodeWrite req i1 o v => Sys2Proof.Machine.execNodeWrite req i1 o v s
  | .voiceGo req v => Sys2Proof.Machine.execVoiceGo req v s
  | .voiceStop req v => Sys2Proof.Machine.execVoiceStop req v s
  | .voiceRel req v => Sys2Proof.Machine.execVoiceRel req v s
  | .voiceFetchResponse v a r => Sys2Proof.Machine.execVoiceFetchResponse v a r s
  | .shfGo req p => Sys2Proof.Machine.execShfGo req p s
  | .sheafLoaded p => Sys2Proof.Machine.execSheafLoaded p s
  | .shfCancel req p => Sys2Proof.Machine.execShfCancel req p s
  | .ambientUpdate l => Sys2Proof.Machine.execAmbientUpdate l s
  | .stagedStart src => Sys2Proof.Machine.execStagedStart src s
  | .stagedSheafReady => Sys2Proof.Machine.execStagedSheafReady s
  | .stagedHarrowDone => Sys2Proof.Machine.execStagedHarrowDone s
  | .stagedWaitTimeout => Sys2Proof.Machine.execStagedWaitTimeout s
  | .stggoGo req slot => Sys2Proof.Machine.execStggoGo req slot s
  | .stggoStop req => Sys2Proof.Machine.execStggoStop req s
  | .overrideSample pa pb => Sys2Proof.Machine.execOverrideSample pa pb s
  | .discrepancyEval => Sys2Proof.Machine.execDiscrepancyEval s
  | .overrideClr req n => Sys2Proof.Machine.execOverrideClr req n s
  | .overrideCap req n => Sys2Proof.Machine.execOverrideCap req n s
  | .nightRoundStart tine req => Sys2Proof.Machine.execNightRoundStart tine req s
  | .nightRoundAbort req => Sys2Proof.Machine.execNightRoundAbort req s
  | .impedancePhaseEnd => Sys2Proof.Machine.execImpedancePhaseEnd s
  | .acousticPhaseEnd => Sys2Proof.Machine.execAcousticPhaseEnd s
  | .logWriteDone ok => Sys2Proof.Machine.execLogWriteDone ok s
  | .watcherFrame mics => Sys2Proof.Machine.execWatcherFrame mics s
  | .enrol req s1 => Sys2Proof.Machine.execEnrol req s1 s
  | .watcherClockHandover => Sys2Proof.Machine.execWatcherClockHandover s
  | .nop p => Sys2Proof.Machine.execNop p s
  | .add p d a b => Sys2Proof.Machine.execAdd p d a b s
  | .adc p d a b => Sys2Proof.Machine.execAdc p d a b s
  | .sub p d a b => Sys2Proof.Machine.execSub p d a b s
  | .sbc p d a b => Sys2Proof.Machine.execSbc p d a b s
  | .and p d a b => Sys2Proof.Machine.execAnd p d a b s
  | .or p d a b => Sys2Proof.Machine.execOr p d a b s
  | .xor p d a b => Sys2Proof.Machine.execXor p d a b s
  | .shl p d a b => Sys2Proof.Machine.execShl p d a b s
  | .shr p d a b => Sys2Proof.Machine.execShr p d a b s
  | .sar p d a b => Sys2Proof.Machine.execSar p d a b s
  | .ror p d a b => Sys2Proof.Machine.execRor p d a b s
  | .min p d a b => Sys2Proof.Machine.execMin p d a b s
  | .max p d a b => Sys2Proof.Machine.execMax p d a b s
  | .adds p d a b => Sys2Proof.Machine.execAdds p d a b s
  | .subs p d a b => Sys2Proof.Machine.execSubs p d a b s
  | .addi p d a imm => Sys2Proof.Machine.execAddi p d a imm s
  | .andi p d a imm => Sys2Proof.Machine.execAndi p d a imm s
  | .ori p d a imm => Sys2Proof.Machine.execOri p d a imm s
  | .xori p d a imm => Sys2Proof.Machine.execXori p d a imm s
  | .shli p d a n => Sys2Proof.Machine.execShli p d a n s
  | .shri p d a n => Sys2Proof.Machine.execShri p d a n s
  | .sari p d a n => Sys2Proof.Machine.execSari p d a n s
  | .cmpi p a imm => Sys2Proof.Machine.execCmpi p a imm s
  | .cmp p a b => Sys2Proof.Machine.execCmp p a b s
  | .tst p a b => Sys2Proof.Machine.execTst p a b s
  | .ldk p d imm => Sys2Proof.Machine.execLdk p d imm s
  | .ldh p d imm => Sys2Proof.Machine.execLdh p d imm s
  | .ldi p d w => Sys2Proof.Machine.execLdi p d w s
  | .neg p d a => Sys2Proof.Machine.execNeg p d a s
  | .abs p d a => Sys2Proof.Machine.execAbs p d a s
  | .clz p d a => Sys2Proof.Machine.execClz p d a s
  | .ld p d a imm => Sys2Proof.Machine.execLd p d a imm s
  | .st p d a imm => Sys2Proof.Machine.execSt p d a imm s
  | .ldx p d a b => Sys2Proof.Machine.execLdx p d a b s
  | .stx p d a b => Sys2Proof.Machine.execStx p d a b s
  | .ldp p d a imm => Sys2Proof.Machine.execLdp p d a imm s
  | .stp p d a imm => Sys2Proof.Machine.execStp p d a imm s
  | .push p d => Sys2Proof.Machine.execPush p d s
  | .pop p d => Sys2Proof.Machine.execPop p d s
  | .swp p d a b => Sys2Proof.Machine.execSwp p d a b s
  | .cacheWriteback p a => Sys2Proof.Machine.execCacheWriteback p a s
  | .cacheInvalidate p a => Sys2Proof.Machine.execCacheInvalidate p a s
  | .cacheFlush p a => Sys2Proof.Machine.execCacheFlush p a s
  | .cacheIinvalidate p a => Sys2Proof.Machine.execCacheIinvalidate p a s
  | .mul p a b => Sys2Proof.Machine.execMul p a b s
  | .mulu p a b => Sys2Proof.Machine.execMulu p a b s
  | .mulf p a b => Sys2Proof.Machine.execMulf p a b s
  | .mac p a b => Sys2Proof.Machine.execMac p a b s
  | .macf p a b => Sys2Proof.Machine.execMacf p a b s
  | .msu p a b => Sys2Proof.Machine.execMsu p a b s
  | .mfh p d => Sys2Proof.Machine.execMfh p d s
  | .mfl p d => Sys2Proof.Machine.execMfl p d s
  | .mfr p d => Sys2Proof.Machine.execMfr p d s
  | .mta p a b => Sys2Proof.Machine.execMta p a b s
  | .div p d a b => Sys2Proof.Machine.execDiv p d a b s
  | .divu p d a b => Sys2Proof.Machine.execDivu p d a b s
  | .longOpRetire p div => Sys2Proof.Machine.execLongOpRetire p div s
  | .jmp p off => Sys2Proof.Machine.execJmp p off s
  | .jr p a => Sys2Proof.Machine.execJr p a s
  | .bcc p cond off => Sys2Proof.Machine.execBcc p cond off s
  | .call p mask target => Sys2Proof.Machine.execCall p mask target s
  | .callr p mask a => Sys2Proof.Machine.execCallr p mask a s
  | .ret p => Sys2Proof.Machine.execRet p s
  | .loop p n ofs => Sys2Proof.Machine.execLoop p n ofs s
  | .loopr p a ofs => Sys2Proof.Machine.execLoopr p a ofs s
  | .trap p imm => Sys2Proof.Machine.execTrap p imm s
  | .rte p => Sys2Proof.Machine.execRte p s
  | .barrier p kind => Sys2Proof.Machine.execBarrier p kind s
  | .wait p => Sys2Proof.Machine.execWait p s
  | .brk p => Sys2Proof.Machine.execBrk p s
  | .mfs p d n => Sys2Proof.Machine.execMfs p d n s
  | .mts p a n => Sys2Proof.Machine.execMts p a n s
  | .setm p imm => Sys2Proof.Machine.execSetm p imm s
  | .clrm p imm => Sys2Proof.Machine.execClrm p imm s
  | .ptw p a b group => Sys2Proof.Machine.execPtw p a b group s
  | .ptr p d group => Sys2Proof.Machine.execPtr p d group s
  | .loadResponse p r => Sys2Proof.Machine.execLoadResponse p r s
  | .storeBufferDrain p => Sys2Proof.Machine.execStoreBufferDrain p s
  | .storeResponse p r => Sys2Proof.Machine.execStoreResponse p r s
  | .interruptEntry p => Sys2Proof.Machine.execInterruptEntry p s
  | .ldl d a b => Sys2Proof.Machine.execLdl d a b s
  | .stl d a b => Sys2Proof.Machine.execStl d a b s
  | .jl a b => Sys2Proof.Machine.execJl a b s
  | .ucsw a => Sys2Proof.Machine.execUcsw a s
  | .wdk => Sys2Proof.Machine.execWdk s
  | .customInstruction f d a => Sys2Proof.Machine.execCustomInstruction f d a s
  | .microAlu op d a b f => Sys2Proof.Machine.execMicroAlu op d a b f s
  | .microAlui op d a imm => Sys2Proof.Machine.execMicroAlui op d a imm s
  | .microMem w lock long d a b r => Sys2Proof.Machine.execMicroMem w lock long d a b r s
  | .microBr cond target => Sys2Proof.Machine.execMicroBr cond target s
  | .microCall target => Sys2Proof.Machine.execMicroCall target s
  | .microRet => Sys2Proof.Machine.execMicroRet s
  | .microEnd => Sys2Proof.Machine.execMicroEnd s
  | .microFetch2 => Sys2Proof.Machine.execMicroFetch2 s
  | .microRaise cause => Sys2Proof.Machine.execMicroRaise cause s
  | .microWaiti => Sys2Proof.Machine.execMicroWaiti s
  | .microSpec w n r => Sys2Proof.Machine.execMicroSpec w n r s
  | .microUcswap r => Sys2Proof.Machine.execMicroUcswap r s
  | .microWdkick => Sys2Proof.Machine.execMicroWdkick s
  | .microLdseg r => Sys2Proof.Machine.execMicroLdseg r s
  | .watchdogExpiry => Sys2Proof.Machine.execWatchdogExpiry s
  | .baseMicrocodeLoaded => Sys2Proof.Machine.execBaseMicrocodeLoaded s
  | .scrubberRead a upset => Sys2Proof.Machine.execScrubberRead a upset s
  | .ucCopy req => Sys2Proof.Machine.execUcCopy req s
  | .ucCopyDone => Sys2Proof.Machine.execUcCopyDone s
  | .ucSeal req => Sys2Proof.Machine.execUcSeal req s
  | .ucScanDone => Sys2Proof.Machine.execUcScanDone s
  | .ucdataWrite req v => Sys2Proof.Machine.execUcdataWrite req v s
  | .ucdataRead req => Sys2Proof.Machine.execUcdataRead req s
  | .wdogWrite req v => Sys2Proof.Machine.execWdogWrite req v s
  | .mailboxTailWrite req m v => Sys2Proof.Machine.execMailboxTailWrite req m v s
  | .mailboxHeadWrite req m v => Sys2Proof.Machine.execMailboxHeadWrite req m v s
  | .agentReply p => Sys2Proof.Machine.execAgentReply p s
  | .agentTimeout p => Sys2Proof.Machine.execAgentTimeout p s
  | .relayTimeout seq => Sys2Proof.Machine.execRelayTimeout seq s
  | .reportResend p => Sys2Proof.Machine.execReportResend p s
  | .hello t f => Sys2Proof.Machine.execHello t f s
  | .ack t f => Sys2Proof.Machine.execAck t f s
  | .dirRead t f => Sys2Proof.Machine.execDirRead t f s
  | .sceneSet t f => Sys2Proof.Machine.execSceneSet t f s
  | .memWrite t f => Sys2Proof.Machine.execMemWrite t f s
  | .memRead t f => Sys2Proof.Machine.execMemRead t f s
  | .agent t f => Sys2Proof.Machine.execAgent t f s
  | .sheaf t f => Sys2Proof.Machine.execSheaf t f s
  | .sheafCancel t f => Sys2Proof.Machine.execSheafCancel t f s
  | .stageData t f => Sys2Proof.Machine.execStageData t f s
  | .stageCommit t f => Sys2Proof.Machine.execStageCommit t f s
  | .stageStart t f => Sys2Proof.Machine.execStageStart t f s
  | .stageList t f => Sys2Proof.Machine.execStageList t f s
  | .nrCtrl t f => Sys2Proof.Machine.execNrCtrl t f s
  | .nrLog t f => Sys2Proof.Machine.execNrLog t f s
  | .ovrClear t f => Sys2Proof.Machine.execOvrClear t f s
  | .plotAssign t f => Sys2Proof.Machine.execPlotAssign t f s
  | .plotCtrl t f => Sys2Proof.Machine.execPlotCtrl t f s
  | .plotDelegate t f => Sys2Proof.Machine.execPlotDelegate t f s
  | .plotQos t f => Sys2Proof.Machine.execPlotQos t f s
  | .certRead t f => Sys2Proof.Machine.execCertRead t f s
  | .certEnrol t f => Sys2Proof.Machine.execCertEnrol t f s
  | .fwWrite t f => Sys2Proof.Machine.execFwWrite t f s
  | .fwActivate t f => Sys2Proof.Machine.execFwActivate t f s
  | .linkStatus t f => Sys2Proof.Machine.execLinkStatus t f s
  | .linkRoute t f => Sys2Proof.Machine.execLinkRoute t f s
  | .plotFence req p => Sys2Proof.Machine.execPlotFence req p s
  | .plotFenced p => Sys2Proof.Machine.execPlotFenced p s
  | .plotRelease req p => Sys2Proof.Machine.execPlotRelease req p s
  | .plotReset req p => Sys2Proof.Machine.execPlotReset req p s
  | .plotResetDone p => Sys2Proof.Machine.execPlotResetDone p s
  | .plotRestart req p => Sys2Proof.Machine.execPlotRestart req p s
  | .pageTableWrite req p page v => Sys2Proof.Machine.execPageTableWrite req p page v s
  | .bresWrite req p v => Sys2Proof.Machine.execBresWrite req p v s
  | .grnBufWrite req i1 v => Sys2Proof.Machine.execGrnBufWrite req i1 v s
  | .grnGo req v => Sys2Proof.Machine.execGrnGo req v s
  | .grnProgramDone ok => Sys2Proof.Machine.execGrnProgramDone ok s
  | .secSeal req p => Sys2Proof.Machine.execSecSeal req p s
  | .secOpen req p => Sys2Proof.Machine.execSecOpen req p s
  | .secSign req p => Sys2Proof.Machine.execSecSign req p s
  | .secOpDone p => Sys2Proof.Machine.execSecOpDone p s
  | .pkgenInc req p => Sys2Proof.Machine.execPkgenInc req p s
  | .opfwSet req => Sys2Proof.Machine.execOpfwSet req s
  | .laneEnable req n => Sys2Proof.Machine.execLaneEnable req n s
  | .laneDisable req n => Sys2Proof.Machine.execLaneDisable req n s
  | .capSend n => Sys2Proof.Machine.execCapSend n s
  | .capFrame n f => Sys2Proof.Machine.execCapFrame n f s
  | .rateSwitchDone n => Sys2Proof.Machine.execRateSwitchDone n s
  | .blockLock n => Sys2Proof.Machine.execBlockLock n s
  | .blockLockTimeout n => Sys2Proof.Machine.execBlockLockTimeout n s
  | .blockLockLoss n => Sys2Proof.Machine.execBlockLockLoss n s
  | .lossOfSignal n => Sys2Proof.Machine.execLossOfSignal n s
  | .capWaitTimeout n => Sys2Proof.Machine.execCapWaitTimeout n s
  | .ethernetSearchEnd n ok => Sys2Proof.Machine.execEthernetSearchEnd n ok s
  | .hopAuthDone n => Sys2Proof.Machine.execHopAuthDone n s
  | .hopRekey n => Sys2Proof.Machine.execHopRekey n s
  | .beatSend => Sys2Proof.Machine.execBeatSend s
  | .beatFrame n f => Sys2Proof.Machine.execBeatFrame n f s
  | .beatMiss n => Sys2Proof.Machine.execBeatMiss n s
  | .timeSend n => Sys2Proof.Machine.execTimeSend n s
  | .timeFrame n f => Sys2Proof.Machine.execTimeFrame n f s
  | .streamFrame n f => Sys2Proof.Machine.execStreamFrame n f s
  | .ctrlFrame n f => Sys2Proof.Machine.execCtrlFrame n f s
  | .joinFrame n f => Sys2Proof.Machine.execJoinFrame n f s
  | .joinAccept n f => Sys2Proof.Machine.execJoinAccept n f s
  | .joinRefuse n f => Sys2Proof.Machine.execJoinRefuse n f s
  | .joinRetry => Sys2Proof.Machine.execJoinRetry s
  | .ringFrame n f => Sys2Proof.Machine.execRingFrame n f s
  | .relockFrame n => Sys2Proof.Machine.execRelockFrame n s
  | .capq t => Sys2Proof.Machine.execCapq t s
  | .ampCap t bytes => Sys2Proof.Machine.execAmpCap t bytes s
  | .ampAck t => Sys2Proof.Machine.execAmpAck t s
  | .ampAbsent t => Sys2Proof.Machine.execAmpAbsent t s
  | .managerSilent => Sys2Proof.Machine.execManagerSilent s
  | .managerLost => Sys2Proof.Machine.execManagerLost s
  | .referenceQualified src => Sys2Proof.Machine.execReferenceQualified src s
  | .referenceInvalid src => Sys2Proof.Machine.execReferenceInvalid src s
  | .ptpMessage offset => Sys2Proof.Machine.execPtpMessage offset s
  | .slewDone => Sys2Proof.Machine.execSlewDone s
  | .rtcmtGo req => Sys2Proof.Machine.execRtcmtGo req s
  | .irqLineChange n p => Sys2Proof.Machine.execIrqLineChange n p s
  | .irqSrcWrite req n v => Sys2Proof.Machine.execIrqSrcWrite req n v s
  | .irqCmp req t src => Sys2Proof.Machine.execIrqCmp req t src s
  | .irqEnd req t => Sys2Proof.Machine.execIrqEnd req t s
  | .holdoffEnd g => Sys2Proof.Machine.execHoldoffEnd g s
  | .bellRing req c => Sys2Proof.Machine.execBellRing req c s
  | .bellClr req c => Sys2Proof.Machine.execBellClr req c s
  | .tinPub req p tine => Sys2Proof.Machine.execTinPub req p tine s
  | .tineEntry tine => Sys2Proof.Machine.execTineEntry tine s
  | .tineDelivery tine => Sys2Proof.Machine.execTineDelivery tine s
  | .tbCapture req p => Sys2Proof.Machine.execTbCapture req p s
  | .timebaseWrap => Sys2Proof.Machine.execTimebaseWrap s
  | .timerStart req t => Sys2Proof.Machine.execTimerStart req t s
  | .gstart req p mask => Sys2Proof.Machine.execGstart req p mask s
  | .timerStop req t => Sys2Proof.Machine.execTimerStop req t s
  | .timerCap req t => Sys2Proof.Machine.execTimerCap req t s
  | .timerLoad req t => Sys2Proof.Machine.execTimerLoad req t s
  | .timerAdvance t => Sys2Proof.Machine.execTimerAdvance t s
  | .drillGo req c => Sys2Proof.Machine.execDrillGo req c s
  | .drillBurst fifo rd wr => Sys2Proof.Machine.execDrillBurst fifo rd wr s
  | .drillBlockDone c => Sys2Proof.Machine.execDrillBlockDone c s
  | .drillDisable req c => Sys2Proof.Machine.execDrillDisable req c s
  | .spiStatus => Sys2Proof.Machine.execSpiStatus s
  | .spiWrite bytes => Sys2Proof.Machine.execSpiWrite bytes s
  | .spiRead => Sys2Proof.Machine.execSpiRead s
  | .spiCsTimeout => Sys2Proof.Machine.execSpiCsTimeout s
  | .gpoOutset req k v => Sys2Proof.Machine.execGpoOutset req k v s
  | .gpoOutclr req k v => Sys2Proof.Machine.execGpoOutclr req k v s
  | .pinFilter n level => Sys2Proof.Machine.execPinFilter n level s
  | .stateFull req => Sys2Proof.Machine.execStateFull req s
  | .stateFallow req keep => Sys2Proof.Machine.execStateFallow req keep s
  | .stateDormant req => Sys2Proof.Machine.execStateDormant req s
  | .powerSequenceDone => Sys2Proof.Machine.execPowerSequenceDone s
  | .domctrlWrite req v => Sys2Proof.Machine.execDomctrlWrite req v s
  | .domainOnDone d => Sys2Proof.Machine.execDomainOnDone d s
  | .railBrownout => Sys2Proof.Machine.execRailBrownout s
  | .powerOnReset => Sys2Proof.Machine.execPowerOnReset s
  | .externalReset => Sys2Proof.Machine.execExternalReset s
  | .systemReset req => Sys2Proof.Machine.execSystemReset req s
  | .crystalStable => Sys2Proof.Machine.execCrystalStable s
  | .startUp => Sys2Proof.Machine.execStartUp s
  | .tempRead temp => Sys2Proof.Machine.execTempRead temp s
  | .wakeSource src => Sys2Proof.Machine.execWakeSource src s
  | .wakeTimerTick => Sys2Proof.Machine.execWakeTimerTick s
  | .wakePulse => Sys2Proof.Machine.execWakePulse s
  | .connectUnderReset => Sys2Proof.Machine.execConnectUnderReset s
  | .dbgRead a wait => Sys2Proof.Machine.execDbgRead a wait s
  | .dbgWrite a v wait => Sys2Proof.Machine.execDbgWrite a v wait s
  | .dbgReadPlus wait => Sys2Proof.Machine.execDbgReadPlus wait s
  | .dbgWritePlus v wait => Sys2Proof.Machine.execDbgWritePlus v wait s
  | .dbgResult => Sys2Proof.Machine.execDbgResult s
  | .dbgStatus => Sys2Proof.Machine.execDbgStatus s
  | .dbgClose => Sys2Proof.Machine.execDbgClose s
  | .debugAccessDone => Sys2Proof.Machine.execDebugAccessDone s
  | .sessionTimeout => Sys2Proof.Machine.execSessionTimeout s
  | .dbgHalt req mask => Sys2Proof.Machine.execDbgHalt req mask s
  | .haltTaken p => Sys2Proof.Machine.execHaltTaken p s
  | .dbgResume req mask => Sys2Proof.Machine.execDbgResume req mask s
  | .dbgStep req p => Sys2Proof.Machine.execDbgStep req p s
  | .rdataAccess req p w => Sys2Proof.Machine.execRdataAccess req p w s
  | .debugReset req => Sys2Proof.Machine.execDebugReset req s
  | .gleanSnapshot => Sys2Proof.Machine.execGleanSnapshot s
  | .gleanRecordDone r => Sys2Proof.Machine.execGleanRecordDone r s
  | .gleanCapture req u => Sys2Proof.Machine.execGleanCapture req u s
  | .sampleRead req c => Sys2Proof.Machine.execSampleRead req c s
  | .reservedInstruction p op => Sys2Proof.Machine.execReservedInstruction p op s
  | .reservedMicroword w => Sys2Proof.Machine.execReservedMicroword w s
  | .powerOnResetRelease => Sys2Proof.Machine.execPowerOnResetRelease s
  | .ignoredPulse halfMicros => Sys2Proof.Machine.execIgnoredPulse halfMicros s
  | .unknownFrameType n ty => Sys2Proof.Machine.execUnknownFrameType n ty s

end Sys2Proof.Machine
end

