-- ==== Sys2Proof/Safety.lean ====
section
/-! DEFINITION. The terms of the statements: a sound state, in which every table is in its canonical form, so that equal contents
are equal data, with a given queue of waiting commands; the way to a register; what may differ between two states; when a
processor can execute an instruction and what it has then done. -/
namespace Sys2Proof.Machine

/-- Registers, values in effect, field memory, Granary, working values, answers, processors and beams stand in canonical form:
keys strictly rising, no entry equal to what an unlisted key reads as. -/
structure State.Canon (s : State) : Prop where
  regs : Tab.wf (fun a => wd (resetOf a)) s.regs = true
  eff : Tab.wf (fun a => wd (resetOf a)) s.eff = true
  mem : Memory.wf s.mem = true
  gran : Memory.wf s.gran = true
  work : Tab.wf (fun _ => none) s.work = true
  resp : Tab.wf (fun _ => {}) s.resp = true
  procs : Tab.wf (fun _ => {}) s.procs = true
  beams : Tab.wf (fun _ => {}) s.beams = true

/-- The commands that wait are `q`, and the tables are canonical. -/
structure State.Sound (q : List Instr) (s : State) : Prop where
  queue : s.pending = q
  canon : s.Canon

/-- The way is open for a write by requester `r` to the register at `a`: no fence of its plot, the register mapped and its
domain on, and a core's plot the owner (R11, R14, R56, R445). -/
def State.Opens (s : State) (r a : Nat) : Prop := s.gate r (s.reqPlot r) a true = none

/-- Nothing but registers that `touched` holds, and answers to requesters, differs between `s` and `t`: no other register, no
memory, no value in effect, no hidden state of any unit. -/
def State.OnlyRegs (touched : Nat → Prop) (s t : State) : Prop :=
  (∀ a, ¬ touched a → t.reg a = s.reg a) ∧ { t with regs := s.regs, resp := s.resp } = s

/-- The registers of the Glean window, where every unit's performance counters lie (R471). -/
def inGlean (a : Nat) : Prop := 0x8110000 ≤ a ∧ a < 0x8120000

/-- The registers of window `w`. -/
def ofWindow (w a : Nat) : Prop := 0x8000000 + 0x10000 * w ≤ a ∧ a < 0x8010000 + 0x10000 * w

/-- The registers that count the tags in use (R60). -/
def tagReg (a : Nat) : Prop :=
  a = Reg.FAB_TAGUSE ∨ a = Reg.FAB_TAGPEAK ∨ (∃ n, n < 26 ∧ a = Reg.FAB_CUSE n) ∨ ∃ p, p < 8 ∧ a = Reg.FAB_PLOTOUT p

/-- The registers that declaring a tolerance changes (R47). -/
def tolReg (a : Nat) : Prop := a = Reg.FAB_TOL ∨ a = Reg.FAB_STAT ∨ ∃ b, b < 3 ∧ a = Reg.FAB_TOLDECL b

/-- No snoop is out for the line of `a`, and no transaction waits for it (R50). -/
def State.LineFree (s : State) (a : Nat) : Prop :=
  (∀ n ∈ s.fab.snoops, n.line ≠ lineNo a) ∧ ∀ x ∈ s.fab.inflight, lineNo a ∉ linesOf x.addr (opLen x.op)

/-- Field memory is at rest: initialised, no bank asleep, no line modified in a core's cache, no writeback, snoop or transaction under
way. -/
structure State.Quiet (s : State) : Prop where
  ready : s.memReady = true
  awake : ∀ k, s.sleeps k = false
  clean : ∀ ln, s.dirtyLine ln = none
  wbs : s.fab.wbs = []
  snoops : s.fab.snoops = []
  idle : s.fab.inflight = []

/-! ## Lanes -/

/-- Lane `n` has been handed one own frame of TYPE `ty`, which leaves last, under the lane's key and counter (R368, R374). -/
def State.Handed (s : State) (n ty : Nat) (f : LinkFrame) (t : State) : Prop :=
  (t.lane n).out.length = (s.lane n).out.length + 1 ∧ ∃ x, (t.lane n).out.getLast? = some x ∧ x.own = true ∧ x.ty = ty ∧
    x.body = sealFrame (s.lane n).tx ty { f with ctr := BitVec.ofNat 48 (s.lane n).ctr }

/-- Lane `n` has been handed one frame passing through, which leaves before every own frame that waits there (R374). -/
def State.Passed (s : State) (n ty : Nat) (f : LinkFrame) (t : State) : Prop :=
  (t.lane n).out.length = (s.lane n).out.length + 1 ∧ ∃ l x r, (t.lane n).out = l ++ x :: r ∧ (∀ y ∈ r, y.own = true) ∧
    x.own = false ∧ x.ty = ty ∧ x.body = sealFrame (s.lane n).tx ty { f with ctr := BitVec.ofNat 48 (s.lane n).ctr }

/-- A frame of TYPE `ty` that lane `n` has received may go on out of the ring's lane `other` (R374, R379): the device forwards and has an
authenticated hop, neither sent the frame itself nor is its one addressee, HOPS is left, and the onward partner has joined or it is a
JOIN frame. -/
structure State.GoesOn (s : State) (n ty : Nat) (f : LinkFrame) (other : Nat) : Prop where
  ring : ∃ r west, s.ringOf n = some (r, west, other)
  fwd : s.bitAt Reg.LNK_CTRL 17 = true
  auth : s.anyAuth = true
  src : f.src.toNat ≠ s.devAddr ∧ (f.src = 0 → s.bitAt Reg.LNK_ADDR 22 = false)
  dest : ty = 4 ∨ ty = 5 → s.frameMine f = false
  hops : f.hops ≠ 0
  up : s.ringLaneUp other = true
  partner : s.partnerIn other = true ∨ ty = 5

/-! ## Processors -/

/-- The word at `v` can be fetched by processor `p`: it translates for execution and nothing refuses the access (R281, R293). -/
def State.FetchOk (s : State) (p : Nat) (v : Word) : Prop :=
  if p = 16 then s.gate 16 0 ((s.proc 16).cseg.toNat % 16 * 2 ^ 24 + v.toNat) false = none
  else ∃ a dev, s.translate p v needX = .ok (a, dev) ∧ s.gate p (s.plotOf p) a false = none

/-- Nothing at processor `p` asks for more than the instruction at PC: no delay slot, no shadow of an RTE or of a mode change, no
loop, no halt due, no step, no sample record (R248, R258, R262, R291, R460, R467). -/
structure State.Plain (s : State) (p : Nat) : Prop where
  slot : (s.proc p).slot = none
  exit : (s.proc p).exit = none
  shadows : (s.proc p).shadows = []
  loop : (s.proc p).lc = 0
  haltDue : (s.proc p).haltDue = none
  stepping : (s.proc p).stepping = false
  samples : s.bitAt (Reg.GLN_SMP_CFG p) 23 = false
  cmps : ∀ k, k < 8 → s.bitAt (Reg.DBG_CMP_CFG p k) 23 = false

/-- Processor `p` can execute the instruction of `len` words at PC now. -/
structure State.Ready (s : State) (p len : Nat) : Prop where
  plain : s.Plain p
  run : s.canRun p = true
  micro : p = 16 → s.inMicro = false
  parity : p = 16 → s.uc.bad = []
  imprecise : (s.proc p).imprecise = []
  longs : (s.proc p).longs = []
  waiting : (s.proc p).waiting = false
  fetch : ∀ i, i < len → s.FetchOk p ((s.proc p).pc + wd i)

/-- From `s` to `t` nothing changes but processor `p`, performance counters, registers that `touched` holds, and which free value is
the next one. -/
def State.OnlyProcAnd (p : Nat) (touched : Nat → Prop) (s t : State) : Prop :=
  (∀ a, ¬ inGlean a → ¬ touched a → t.reg a = s.reg a) ∧ (∀ q, q ≠ p → t.proc q = s.proc q) ∧
    { t with regs := s.regs, procs := s.procs, freeCtr := s.freeCtr } = s

/-- From `s` to `t` nothing changes but processor `p`, performance counters, and which free value is the next one. -/
def State.OnlyProc (p : Nat) (s t : State) : Prop := s.OnlyProcAnd p (fun _ => False) t

/-- Processor `p` has sent an access to the fabric and waits for its answer; it holds a tag (R40, R270, R274). -/
def State.Sent (p : Nat) (s t : State) : Prop :=
  s.OnlyProcAnd p tagReg t ∧ (t.proc p).wait.isSome = true ∧ (t.proc p).pc = (s.proc p).pc ∧ (t.proc p).w = (s.proc p).w ∧
    (t.proc p).status = (s.proc p).status ∧ (t.proc p).stores = (s.proc p).stores

/-- An instruction of processor `p` has completed: execution goes on at `pc`, `f` is what it did to the processor, and nothing
else changes but the instruction cache, the translation cache, the accumulator's history and performance counters. -/
def State.Ran (p : Nat) (pc : Word) (f : ProcSt → ProcSt) (s t : State) : Prop :=
  s.OnlyProc p t ∧ t.proc p =
    { f (s.proc p) with
      pc := pc, cmpDone := false, accHist := ((s.proc p).acc :: (s.proc p).accHist).take 3
      icache := (t.proc p).icache, tlb := (t.proc p).tlb, missed := (t.proc p).missed }

/-- An instruction of one word has written `r` to W`d` and the flags `fl`, and nothing else. -/
def State.Wrote (p : Nat) (d : RegNo) (r : Word) (fl : Flags) (s t : State) : Prop :=
  s.Ran p ((s.proc p).pc + 1) (fun x => { x.setW d.toNat r with status := withFlags x.status fl }) t

/-- Processor `p` has taken an exception (R285, R287): EPC, ESTATUS, ECAUSE and EADDR, supervisor mode with interrupts off, the
vector; no register W is written. -/
def State.Took (p cause detail : Nat) (ea : Option Word) (epc : Word) (s t : State) : Prop :=
  s.OnlyProc p t ∧ (t.proc p).epc = epc ∧ (t.proc p).estatus = (s.proc p).status ∧
    (t.proc p).ecause = wd (cause + 256 * detail) ∧ (t.proc p).eaddr = ea.getD (s.proc p).eaddr ∧
    (t.proc p).status = statusOf p (((s.proc p).status ||| 0x80) &&& ~~~ 0x40) ∧
    (t.proc p).pc = ((s.proc p).evec &&& 0xFFFFF0) + wd (8 * cause) ∧ (t.proc p).w = (s.proc p).w

/-- The instruction `i` of processor `p` loads the word at virtual address `v` into W`d`, with the base update `upd` where its form
has one (R41, R253, R270, R273, R281): a word that a store on its way holds and a cached word come at once; any other allowed load
that finds a tag waits for its answer; a load that does not translate takes its exception. -/
def State.LoadsTo (s : State) (p : Nat) (i : Instr) (v : Word) (d : RegNo) (upd : Option (RegNo × Word)) : Prop :=
  (∀ a dev w, s.translate p v needR = .ok (a, dev) →
    s.storeForward p a = some w ∨
      (s.storeForward p a = none ∧ dev = false ∧ (s.cached p (lineNo a)).isSome = true ∧ s.cohWord a = w) →
    ∃ t, Sys2Proof.Machine.exec i s = .next t ∧ s.OnlyProc p t ∧ (t.proc p).pc = (s.proc p).pc + 1 ∧ (t.proc p).status = (s.proc p).status ∧
      (t.proc p).w = (match upd with
        | some (b, x) => ((s.proc p).setW b.toNat x).setW d.toNat w
        | none => (s.proc p).setW d.toNat w).w) ∧
  (∀ a dev, s.translate p v needR = .ok (a, dev) → s.storeForward p a = none →
    dev = true ∨ (s.cached p (lineNo a)).isSome = false → s.refuses (s.plotOf p) = false →
    (s.drawTag p (procClass p)).isSome = true → ∃ t, Sys2Proof.Machine.exec i s = .next t ∧ s.Sent p t) ∧
  (∀ c, s.translate p v needR = .error c →
    ∃ t, Sys2Proof.Machine.exec i s = .next t ∧ s.Took p c 0 (some v) (s.proc p).pc t)

/-- The instruction `i` of processor `p` stores `w` at virtual address `v`, with the base update `upd` (R41, R253, R272, R274, R281):
on a Normal page into the store buffer, where it has room; on a Device page, with no store under way and a tag found, it waits for its
acknowledge; a store that does not translate takes its exception. -/
def State.StoresTo (s : State) (p : Nat) (i : Instr) (v w : Word) (upd : Option (RegNo × Word)) : Prop :=
  (∀ a, s.translate p v needW = .ok (a, false) → (s.proc p).stores.length < 8 →
    ∃ t, Sys2Proof.Machine.exec i s = .next t ∧ s.Ran p ((s.proc p).pc + 1) (fun x =>
      { (match upd with
        | some (b, y) => x.setW b.toNat y
        | none => x) with stores := x.stores ++ [⟨v, a, w⟩] }) t) ∧
  (∀ a, s.translate p v needW = .ok (a, true) → s.storing p = false → s.refuses (s.plotOf p) = false →
    (s.drawTag p (procClass p)).isSome = true → ∃ t, Sys2Proof.Machine.exec i s = .next t ∧ s.Sent p t) ∧
  (∀ c, s.translate p v needW = .error c →
    ∃ t, Sys2Proof.Machine.exec i s = .next t ∧ s.Took p c 0 (some v) (s.proc p).pc t)

/-- The Steward's sequencer can execute a microword: it runs, its word has right parity, and a custom instruction has steps left
(R302, R309). -/
structure State.MicroReady (s : State) : Prop where
  run : s.canRun 16 = true
  waiting : (s.proc 16).waiting = false
  parity : s.uc.bad.contains s.uc.upc = false
  steps : ∀ c a n m, s.uc.custom = some (c, a, n, m) → s.ucLegacy = true ∨ (n + 1 ≤ 4096 ∧ m + 1 ≤ 64)

/-- A microword has changed nothing but the Steward, its sequencer and performance counters. -/
def State.OnlySteward (s t : State) : Prop :=
  (∀ a, ¬ inGlean a → t.reg a = s.reg a) ∧ (∀ q, q ≠ 16 → t.proc q = s.proc q) ∧
    { t with regs := s.regs, procs := s.procs, uc := s.uc, freeCtr := s.freeCtr } = s

/-! ## Requests -/

/-- `f` is a request frame of the local host to a device that has joined no system: of this code, this LEN and this PLOT, well
formed, of a pair that the pair table does not hold, while the Steward runs outside recovery and the plot is not fenced (R319 to
R323, R356). -/
structure State.Local (s : State) (code len plot : Nat) (f : List Word) : Prop where
  up : s.stewUp = true
  normal : s.recovery = false
  alone : s.joined = false
  words : f.length = 4 + len
  lenIs : tykLen f = len
  ver : 0x30 ≤ getF (f.getD 0 0) ⟨23, 16⟩ ∧ getF (f.getD 0 0) ⟨23, 16⟩ ≤ 0x32
  codeIs : tykCode f = code
  kind : tykKind f = 0
  plotIs : tykPlot f = plot
  src : tykSrcKind f = 2
  zero : getF (f.getD 2 0) ⟨21, 11⟩ = 0
  new : s.pairOf f = none
  free : s.plotFenced plot = false

/-- Outside what the firmware keeps, `t` is what the effect `E` makes of `s`, and the last frame handed to the local host is the
reply to `f` with the words `ws`, as bytes (R319 to R321). -/
def State.Carried (s : State) (E : State → State) (f : List Word) (ws : State → List Word) (t : State) : Prop :=
  (∃ k, { t with tyk := s.tyk } = { E { s with tyk := k } with tyk := s.tyk }) ∧
    t.tyk.out.getLast? = some (Transport.spi, (mkFrame (tykCode f) 1 (tykPlot f) t.devAddr 2 (tykSrc f) (tykSeq f) (ws t)).flatMap wordBytes)

/-- Outside what the firmware keeps, `t` is what the effect `E` makes of `s`, and request `f` waits for `op` (R322). -/
def State.Held (s : State) (E : State → State) (f : List Word) (op : TykOp) (t : State) : Prop :=
  (∃ k, { t with tyk := s.tyk } = { E { s with tyk := k } with tyk := s.tyk }) ∧
    t.tyk.waits.getLast? = some ⟨.spi, f.take 4, op⟩

end Sys2Proof.Machine
end

