-- ==== Sys2Proof/Certificates/Slice0/Obligations.lean ====
section
/-! DEFINITION. The statements for the provers, family by family: what each command leaves, where a step goes, what no step
changes. -/
open Sys2Proof Sys2Proof.Machine

/-- Pace windows, refresh, late acknowledges and handshake timeouts -/
def Obligations.FabricMeasuresAndTimeouts : Prop :=
  (∀ (c : BitVec 16) (s : State), ∃ t, exec (.paceWindow c) s = .next t ∧
    t.fld Reg.FAB_PACE Fd.FAB_PACE_CYCLES = c.toNat ∧ s.OnlyRegs (· = Reg.FAB_PACE) t) ∧
  (∀ (q : Fin 4) (s : State), ∃ t, exec (.refreshCycle q) s = .next t ∧ s.OnlyRegs inGlean t) ∧
  (∀ (q : Fin 4) (temp : Int) (s : State), ∃ t, exec (.refreshRateChange q temp) s = .next t ∧
    t.fab.hot.getLsbD q.val = (if 95 < temp then true else if temp ≤ 92 then false else s.fab.hot.getLsbD q.val) ∧
    (∀ k, k ≠ q.val → t.fab.hot.getLsbD k = s.fab.hot.getLsbD k) ∧
    (t.fab.hot ≠ 0 ↔ t.bitAt Reg.FAB_STAT 4 = true) ∧
    (s.bitAt Reg.FAB_STAT 4 ≠ t.bitAt Reg.FAB_STAT 4 → t.bitAt Reg.FAB_EVT 3 = true) ∧
    (s.bitAt Reg.FAB_STAT 4 = t.bitAt Reg.FAB_STAT 4 → t.regs = s.regs) ∧
    (∀ a, a ≠ Reg.FAB_STAT → a ≠ Reg.FAB_EVT → t.reg a = s.reg a) ∧ t.mem = s.mem ∧ t.procs = s.procs) ∧
  (∀ (port : BitVec 6) (s : State), ∃ t, exec (.lateAcknowledge port) s = .next t ∧
    t.fld Reg.FAB_HSTO Fd.FAB_HSTO_COUNT = min 65535 (s.fld Reg.FAB_HSTO Fd.FAB_HSTO_COUNT + 1) ∧
    s.OnlyRegs (· = Reg.FAB_HSTO) t) ∧
  (∀ (port : BitVec 6) (req : Req) (s : State),
    (req.val ≤ 16 → (s.proc req.val).wait = none ∧ (s.proc req.val).drains = []) →
    ∃ t, exec (.handshakeTimeout port req) s = .next t ∧
    t.fld Reg.FAB_HSTO Fd.FAB_HSTO_LASTPORT = port.toNat ∧
    t.fld Reg.FAB_HSTO Fd.FAB_HSTO_COUNT = min 65535 (s.fld Reg.FAB_HSTO Fd.FAB_HSTO_COUNT + 1) ∧
    t.bitAt Reg.FAB_EVT 0 = true ∧ t.respOf req.val = ⟨0, [], .error⟩ ∧
    t.fab.inflight = s.fab.inflight.eraseP (fun x => x.req == req.val && s.passesPort req.val x.addr port.toNat) ∧
    t.mem = s.mem ∧ t.gran = s.gran ∧ t.procs = s.procs) ∧
  (∀ (port : BitVec 6) (req : Req) (s : State), req.val ≤ 16 → s.waitsAtPort req.val port.toNat = true →
    (s.proc req.val).exit = none → ∃ t, exec (.handshakeTimeout port req) s = .next t ∧ (t.proc req.val).wait = none ∧
      t.fld Reg.FAB_HSTO Fd.FAB_HSTO_LASTPORT = port.toNat ∧
      t.fld Reg.FAB_HSTO Fd.FAB_HSTO_COUNT = min 65535 (s.fld Reg.FAB_HSTO Fd.FAB_HSTO_COUNT + 1) ∧ t.mem = s.mem)

/-- Enabling field memory, its initialisation, and the sleep and wake of banks -/
def Obligations.FieldMemoryStartAndBankSleep : Prop :=
  (∀ (req : Req) (s : State), s.Opens req.val Reg.FAB_CTRL → s.bitAt Reg.FAB_CTRL 0 = false →
    ∃ t, exec (.fmenSet req) s = .next t ∧ t.bitAt Reg.FAB_CTRL 0 = true ∧ t.bitAt Reg.FAB_STAT 1 = true ∧
      t.bitAt Reg.FAB_CTRL 1 = s.bitAt Reg.FAB_CTRL 1 ∧ t.respOf req.val = ⟨0, [], .ok⟩ ∧
      s.OnlyRegs (fun a => a = Reg.FAB_CTRL ∨ a = Reg.FAB_STAT) t) ∧
  (∀ s : State, s.bitAt Reg.FAB_STAT 1 = true → ∃ t, exec .fieldMemoryInitDone s = .next t ∧
    (∀ a, t.memAt a = 0) ∧ t.bitAt Reg.FAB_STAT 1 = false ∧ t.bitAt Reg.FAB_STAT 0 = true ∧
    (∀ a, a ≠ Reg.FAB_STAT → t.reg a = s.reg a) ∧ t.gran = s.gran ∧ t.procs = s.procs) ∧
  (∀ (k : BitVec 5) (s : State), s.bitAt Reg.FAB_CTRL 1 = true →
    (∀ x ∈ s.fab.inflight, s.txnBank x.addr ≠ some k.toNat) →
    150 + 4 * s.fld Reg.FAB_SLPCFG Fd.FAB_SLPCFG_GUARD < s.declareAll.fld Reg.FAB_TOL Fd.FAB_TOL_TOL →
    ∃ t, exec (.bankSleep k) s = .next t ∧ t.sleeps k.toNat = true ∧ s.declareAll.OnlyRegs (· = slpReg k.toNat) t) ∧
  (∀ (k : BitVec 5) (w : Bool) (s : State), s.sleeps k.toNat = true → s.fab.waking.getLsbD k.toNat = false →
    ∃ t, exec (.bankWakeStart (some k) w) s = .next t ∧ t.fab.waking.getLsbD k.toNat = true ∧
      t.sleeps k.toNat = true ∧ (w = true → t.bitAt Reg.FAB_EVT 2 = true) ∧ t.mem = s.mem ∧
      (∀ a, ¬ inGlean a → a ≠ Reg.FAB_EVT → t.reg a = s.reg a)) ∧
  (∀ (k : BitVec 5) (s : State), s.fab.waking.getLsbD k.toNat = true → ∃ t, exec (.bankWakeDone k) s = .next t ∧
    t.sleeps k.toNat = false ∧ t.fab.waking.getLsbD k.toNat = false ∧ t.mem = s.mem ∧
    (∀ a, a ≠ slpReg k.toNat → t.reg a = s.reg a)) ∧
  (∀ (req : Req) (s : State), s.Opens req.val Reg.FAB_TAGPEAK → ∃ t, exec (.tagpeakClr req) s = .next t ∧
    t.reg Reg.FAB_TAGPEAK = s.reg Reg.FAB_TAGUSE ∧ t.respOf req.val = ⟨0, [], .ok⟩ ∧ s.OnlyRegs (· = Reg.FAB_TAGPEAK) t)

/-- A read of a semaphore view acquires a free semaphore, and answers GRANTED, BUSY, BROKEN or an error -/
def Obligations.SemaphoreReadsAcquireForThePlotOfTheView : Prop :=
  (∀ (req : Req) (p : Fin 8) (n : BitVec 8) (s : State),
    s.gate req.val (s.reqPlot req.val) (Reg.FAB_SEMV p.val n.toNat) false = none →
    ((req.val ≠ 25 → s.semMay p.val n.toNat = true → s.semHolder n.toNat = none →
      ∃ t, exec (.semaphoreAcquire req p n) s = .next t ∧ t.semHolder n.toNat = some (p.val, req.val) ∧
        t.respOf req.val = ⟨if s.bitAt (Reg.FAB_SEMACL n.toNat) 15 then 2 else 0, [], .ok⟩ ∧
        (∀ m, m ≠ n.toNat → t.semHolder m = s.semHolder m) ∧ t.regs = s.regs ∧ t.mem = s.mem) ∧
    (∀ hp hr, (req.val = 25 ∨ s.semMay p.val n.toNat = true) → s.semHolder n.toNat = some (hp, hr) →
      ∃ t, exec (.semaphoreAcquire req p n) s = .next t ∧
        t.respOf req.val = ⟨wd (hr * 65536 + hp * 256 + 1), [], .ok⟩ ∧ s.OnlyRegs (fun _ => False) t) ∧
    (req.val = 25 → s.semHolder n.toNat = none → ∃ t, exec (.semaphoreAcquire req p n) s = .next t ∧
      t.respOf req.val = ⟨if s.bitAt (Reg.FAB_SEMACL n.toNat) 15 then 2 else 0, [], .ok⟩ ∧ s.OnlyRegs (fun _ => False) t) ∧
    (req.val ≠ 25 → s.semMay p.val n.toNat = false → ∃ t, exec (.semaphoreAcquire req p n) s = .next t ∧
      t.respOf req.val = ⟨0, [], .error⟩ ∧ s.OnlyRegs (fun _ => False) t)))

/-- CLRBRK, REL and WAIT of a semaphore, and the writes of its list and of the credit pools -/
def Obligations.SemaphoreReleaseWaitAndCreditWrites : Prop :=
  (∀ (req : Req) (p : Fin 8) (n : BitVec 8) (s : State), s.Opens req.val (Reg.FAB_SEMV p.val n.toNat) →
    (s.semHolder n.toNat = some (p.val, req.val) →
      (∃ t, exec (.semaphoreClrbrk req p n) s = .next t ∧ t.bitAt (Reg.FAB_SEMACL n.toNat) 15 = false ∧
        s.OnlyRegs (· = Reg.FAB_SEMACL n.toNat) t) ∧
      ∃ t, exec (.semaphoreRel req p n) s = .next t ∧ t.semHolder n.toNat = none ∧
        (∀ m, m ≠ n.toNat → t.semHolder m = s.semHolder m) ∧
        t.fld (Reg.FAB_SEMACL n.toNat) Fd.FAB_SEMACL_WAITERS = 0 ∧
        (∀ q : Fin 8, s.bitAt (Reg.FAB_SEMACL n.toNat) (16 + q.val) = true →
          t.bitAt (Reg.FAB_SEMNOTE q.val (n.toNat / 24)) (n.toNat % 24) = true) ∧ t.mem = s.mem) ∧
    (s.semHolder n.toNat ≠ some (p.val, req.val) →
      (∃ t, exec (.semaphoreClrbrk req p n) s = .next t ∧
        s.OnlyRegs (fun a => a = Reg.FAB_ERRCNT ∨ a = Reg.FAB_EVT) t) ∧
      ∃ t, exec (.semaphoreRel req p n) s = .next t ∧
        s.OnlyRegs (fun a => a = Reg.FAB_ERRCNT ∨ a = Reg.FAB_EVT) t) ∧
    (s.semMay p.val n.toNat = true → s.semHolder n.toNat ≠ none →
      ∃ t, exec (.semaphoreWait req p n) s = .next t ∧ t.bitAt (Reg.FAB_SEMACL n.toNat) (16 + p.val) = true ∧
        s.OnlyRegs (· = Reg.FAB_SEMACL n.toNat) t)) ∧
  (∀ (req : Req) (n : BitVec 8) (v : Word) (s : State), s.Opens req.val (Reg.FAB_SEMACL n.toNat) →
    ∃ t, exec (.semaclWrite req n v) s = .next t ∧
      (∀ i, i < 15 → t.bitAt (Reg.FAB_SEMACL n.toNat) i = bit v i) ∧
      t.bitAt (Reg.FAB_SEMACL n.toNat) 15 = s.bitAt (Reg.FAB_SEMACL n.toNat) 15 ∧
      (∀ p, p < 8 → t.bitAt (Reg.FAB_SEMACL n.toNat) (16 + p) = (s.bitAt (Reg.FAB_SEMACL n.toNat) (16 + p) && bit v p)) ∧
      s.OnlyRegs (· = Reg.FAB_SEMACL n.toNat) t) ∧
  (∀ (req : Req) (n : Fin 26) (v : Word) (s : State), s.Opens req.val (Reg.FAB_CRD n.val) →
    let sum := (List.range 26).foldl (fun a m =>
      a + if m = n.val then getF v Fd.FAB_CRD_GUAR else s.fld (Reg.FAB_CRD m) Fd.FAB_CRD_GUAR) 0
    (sum ≤ 4032 → getF v Fd.FAB_CRD_GUAR ≤ getF v Fd.FAB_CRD_LIMIT →
      ∃ t, exec (.creditWrite req n v) s = .next t ∧ t.reg (Reg.FAB_CRD n.val) = v ∧
        s.OnlyRegs (· = Reg.FAB_CRD n.val) t) ∧
    (4032 < sum ∨ getF v Fd.FAB_CRD_LIMIT < getF v Fd.FAB_CRD_GUAR →
      ∃ t, exec (.creditWrite req n v) s = .next t ∧ t.bitAt Reg.FAB_EVT 4 = true ∧
        s.OnlyRegs (fun a => a = Reg.FAB_ERRCNT ∨ a = Reg.FAB_EVT) t))

/-- The fabric part of a fence: start, timeout, retirement done -/
def Obligations.FabricFenceOfAPlot : Prop :=
  (∀ (req : Req) (p : Fin 8) (s : State), s.Opens req.val Reg.FAB_FENCE → s.bitAt Reg.FAB_FENCE p.val = false →
    ∃ t, exec (.fenceReq req p) s = .next t ∧ t.bitAt Reg.FAB_FENCE p.val = true ∧
      Tab.get 0 t.fab.fenceTo p.val = max 1 (s.fld Reg.FAB_FENCETO Fd.FAB_FENCETO_TIME) ∧
      t.fab.inflight = s.fab.inflight ∧ t.fab.waiters = s.fab.waiters.filter (fun x => x.plot != p.val) ∧
      (∀ a, a ≠ Reg.FAB_FENCE → a ≠ Reg.FAB_STAT → ¬ ofWindow 6 a → ¬ inGlean a → t.reg a = s.reg a) ∧ t.mem = s.mem) ∧
  (∀ (p : Fin 8) (s : State), s.bitAt Reg.FAB_FENCE p.val = true → s.bitAt Reg.FAB_FENCE (8 + p.val) = false →
    (∀ x ∈ s.fab.inflight, x.plot = p.val → opWrites x.op = false) →
    (∀ c, c < 16 → s.corePlot c = p.val → (s.proc c).wait = none ∧ (s.proc c).drains = []) →
    ∃ t, exec (.fenceTimeout p) s = .next t ∧ t.fab.inflight = s.fab.inflight.filter (fun x => x.plot != p.val) ∧
      (∀ x ∈ s.fab.inflight, x.plot = p.val → t.respOf x.req = ⟨0, [], .poisoned⟩) ∧
      t.reg Reg.FAB_FENCE = s.reg Reg.FAB_FENCE ∧ t.mem = s.mem ∧ t.gran = s.gran ∧ t.procs = s.procs) ∧
  (∀ (p : Fin 8) (s : State), s.bitAt Reg.FAB_FENCE p.val = true → s.bitAt Reg.FAB_FENCE (8 + p.val) = false →
    s.reg (Reg.FAB_PLOTOUT p.val) = 0 → ∃ t, exec (.fenceDone p) s = .next t ∧
      t.bitAt Reg.FAB_FENCE (8 + p.val) = true ∧ t.bitAt Reg.FAB_EVT 6 = true ∧
      (∀ n h, t.semHolder n = some h → h.1 ≠ p.val) ∧ t.mem = s.mem ∧ t.procs = s.procs)

/-- Writing REL lifts the refusal of a fenced plot, and only where DONE is 1 -/
def Obligations.FenceReleaseNeedsDone : Prop :=
  ∀ (req : Req) (p : Fin 8) (s : State), s.Opens req.val Reg.FAB_FENCE →
    (s.bitAt Reg.FAB_FENCE (8 + p.val) = true → ∃ t, exec (.fenceRel req p) s = .next t ∧
      t.refuses p.val = false ∧ t.bitAt Reg.FAB_FENCE p.val = false ∧ t.bitAt Reg.FAB_FENCE (8 + p.val) = false ∧
      s.OnlyRegs (fun a => a = Reg.FAB_FENCE ∨ a = Reg.FAB_STAT) t) ∧
    (s.bitAt Reg.FAB_FENCE (8 + p.val) = false → ∃ t, exec (.fenceRel req p) s = .next t ∧
      t.fld Reg.FAB_ERRCNT ⟨15, 0⟩ = min 65535 (s.fld Reg.FAB_ERRCNT ⟨15, 0⟩ + 1) ∧
      s.OnlyRegs (fun a => a = Reg.FAB_ERRCNT ∨ a = Reg.FAB_EVT) t)

/-- R5, R6, R7, R11, R14, R32, on the FAB window: each way in which a plain register write ends. -/
def Obligations.WritesFollowAccessCodeAndClass : Prop :=
  (∀ (req : Req) (o : Nat) (v : Word) (s : State), (0x17 ≤ o ∧ o < 0x20) ∨ o = 9 → s.Opens req.val (0x8120000 + o) →
    (req.val = 25 → s.lockRefuses (0x8120000 + o) v = false) →
    ∃ t, exec (.registerWrite req (BitVec.ofNat 28 (0x8120000 + o)) v) s = .next t ∧
      t.fld Reg.FAB_ERRCNT ⟨15, 0⟩ = min 65535 (s.fld Reg.FAB_ERRCNT ⟨15, 0⟩ + 1) ∧
      t.respOf req.val = ⟨0, [], .ok⟩ ∧ s.OnlyRegs (fun a => a = Reg.FAB_ERRCNT ∨ a = Reg.FAB_EVT) t) ∧
  (∀ (req : Req) (v : Word) (s : State), s.Opens req.val Reg.FAB_REFCFG →
    (req.val = 25 → s.lockRefuses Reg.FAB_REFCFG v = false) →
    ∃ t, exec (.registerWrite req (BitVec.ofNat 28 Reg.FAB_REFCFG) v) s = .next t ∧
      t.bitAt Reg.FAB_REFCFG 0 = bit v 0 ∧ (∀ i, i ≠ 0 → t.bitAt Reg.FAB_REFCFG i = s.bitAt Reg.FAB_REFCFG i) ∧
      s.OnlyRegs (· = Reg.FAB_REFCFG) t) ∧
  (∀ (req : Req) (v : Word) (s : State), s.Opens req.val Reg.FAB_MAPCFG → s.bitAt Reg.FAB_CTRL 0 = true →
    (req.val = 25 → s.lockRefuses Reg.FAB_MAPCFG v = false) →
    ∃ t, exec (.registerWrite req (BitVec.ofNat 28 Reg.FAB_MAPCFG) v) s = .next t ∧
      t.reg Reg.FAB_MAPCFG = s.reg Reg.FAB_MAPCFG ∧
      (bit v 0 = s.bitAt Reg.FAB_MAPCFG 0 → s.OnlyRegs (fun _ => False) t) ∧
      (bit v 0 ≠ s.bitAt Reg.FAB_MAPCFG 0 →
        t.fld Reg.FAB_ERRCNT ⟨15, 0⟩ = min 65535 (s.fld Reg.FAB_ERRCNT ⟨15, 0⟩ + 1) ∧
        s.OnlyRegs (fun a => a = Reg.FAB_ERRCNT ∨ a = Reg.FAB_EVT) t)) ∧
  (∀ (req : Req) (a : Addr) (v : Word) (s : State), req.val ≠ 25 → regionOf a.toNat = .unmapped →
    s.refuses (s.reqPlot req.val) = false →
    ∃ t, exec (.registerWrite req a v) s = .next t ∧ t.respOf req.val = ⟨0, [], .error⟩ ∧
      t.bitAt Reg.FAB_EVT 1 = true ∧ t.fld Reg.FAB_DECERR Fd.FAB_DECERR_LASTREQ = req.val ∧
      t.reg Reg.FAB_DECADDR_LO = wd a.toNat ∧
      s.OnlyRegs (fun b => b = Reg.FAB_DECERR ∨ b = Reg.FAB_DECADDR_HI ∨ b = Reg.FAB_DECADDR_LO ∨ b = Reg.FAB_ERRCNT ∨
        b = Reg.FAB_EVT) t) ∧
  (∀ (req : Req) (p : Fin 8) (v : Word) (s : State), req.val < 16 → s.refuses (s.corePlot req.val) = false →
    ∃ t, exec (.registerWrite req (BitVec.ofNat 28 (Reg.FAB_QOS p.val)) v) s = .next t ∧
      t.respOf req.val = ⟨0, [], .error⟩ ∧
      t.fld (Reg.PLT_VIOL (s.corePlot req.val)) ⟨15, 0⟩ =
        min 65535 (s.fld (Reg.PLT_VIOL (s.corePlot req.val)) ⟨15, 0⟩ + 1) ∧
      s.OnlyRegs (· = Reg.PLT_VIOL (s.corePlot req.val)) t) ∧
  (∀ (o : BitVec 16) (s : State), o.toNat ∈ s.acw.mirror → ∃ t, exec (.mirrorTransfer o) s = .next t ∧
    (¬ (0x10 ≤ o.toNat ∧ o.toNat < 0x18 ∧ o.toNat % 2 = 1) →
      t.inEff (0x8130000 + o.toNat) = s.reg (0x8130000 + o.toNat) ∧ t.acw.arm = s.acw.arm) ∧
    (∀ n : Fin 4, o.toNat = 0x11 + 2 * n.val → t.eff = s.eff ∧ t.acw.want.getLsbD n.val = false ∧
      (t.acw.arm.getLsbD n.val = true ↔ s.acw.arm.getLsbD n.val = true ∨
        s.acw.want.getLsbD n.val = true ∧ bit (s.inEff (Reg.ACW_SIG_CFG n.val)) 22 = true)) ∧ o.toNat ∉ t.acw.mirror ∧
    (∀ k, k ≠ o.toNat → (k ∈ t.acw.mirror ↔ k ∈ s.acw.mirror)) ∧
    (t.acw.mirror = [] → t.bitAt Reg.ACW_STAT 23 = false) ∧
    (∀ b, b ≠ Reg.ACW_STAT → t.reg b = s.reg b) ∧ t.mem = s.mem ∧ t.procs = s.procs)

/-- A transaction takes a tag and its answer frees it; snoops and writebacks bring modified lines to the bank -/
def Obligations.TransactionsSnoopsAndWritebacks : Prop :=
  (∀ (req : Req) (plot : Fin 8) (a : Addr) (op : TxnOp) (s : State) (g : Nat), opOk op = true →
    (fieldWords ≤ a.toNat ∨ a.toNat % 12 + opLen op ≤ 12) →
    s.gate req.val (s.txnPlot req.val plot.val) a.toNat (opWrites op) = none →
    s.drawTag req.val (classOf req.val op) = some g →
    ∃ t, exec (.transactionIssue req plot a op) s = .next t ∧
      t.fab.inflight = s.fab.inflight ++ [⟨g, req.val, s.txnPlot req.val plot.val, classOf req.val op, a.toNat, op, none,
        s.weight (s.txnPlot req.val plot.val)⟩] ∧
      t.fab.waiters = s.fab.waiters ∧ t.mem = s.mem ∧ t.gran = s.gran ∧ t.procs = s.procs) ∧
  (∀ (req : Req) (plot : Fin 8) (a : Addr) (op : TxnOp) (s : State), opOk op = true →
    (fieldWords ≤ a.toNat ∨ a.toNat % 12 + opLen op ≤ 12) →
    s.gate req.val (s.txnPlot req.val plot.val) a.toNat (opWrites op) = none →
    s.drawTag req.val (classOf req.val op) = none →
    ∃ t, exec (.transactionIssue req plot a op) s = .next t ∧ t.fab.inflight = s.fab.inflight ∧
      (∃ x, t.fab.waiters = s.fab.waiters ++ [x] ∧ x.req = req.val ∧ x.plot = s.txnPlot req.val plot.val ∧
        x.addr = a.toNat ∧ x.op = op ∧ x.result = none) ∧ t.mem = s.mem ∧ t.gran = s.gran ∧ t.procs = s.procs) ∧
  (∀ (req : Req) (plot : Fin 8) (a : Addr) (op : TxnOp) (s : State), opOk op = true → a.toNat + opLen op ≤ fieldWords →
    12 < a.toNat % 12 + opLen op → s.gate req.val (s.txnPlot req.val plot.val) a.toNat (opWrites op) = none →
    ∃ t, exec (.transactionIssue req plot a op) s = .next t ∧
      t.fab.inflight.length + t.fab.waiters.length = s.fab.inflight.length + s.fab.waiters.length + 2 ∧
      t.mem = s.mem ∧ t.gran = s.gran ∧ t.procs = s.procs) ∧
  (∀ (g : BitVec 14) (r p a w : Nat) (c : ReqClass) (s : State), r < 26 → a < fieldWords →
    s.fab.inflight = [⟨g.toNat, r, p, c, a, .read 1, none, w⟩] → s.sleeps (s.bank a) = false → s.memReady = true →
    s.fab.snoops = [] → s.uc.lock = none → s.fab.waiters = [] →
    (c = .steward ∨ c = .normal ∧ p < 8) →
    ∃ t, exec (.transactionResponse g) s = .next t ∧ t.respOf r = ⟨s.cohWord a, [], .ok⟩ ∧ t.fab.inflight = []) ∧
  (∀ (c : Fin 16) (ln : BitVec 21) (inv : Bool) (l : CLine) (s : State),
    s.fab.snoops = [⟨c.val, ln.toNat, inv⟩] → s.cached c.val ln.toNat = some l → l.st = .modified →
    ∃ t, exec (.snoop c ln) s = .next t ∧ t.fab.snoops = [] ∧
      (∀ i, i < 12 → t.memAt (12 * ln.toNat + i) = l.words.getD i 0) ∧
      (∀ a, lineNo a ≠ ln.toNat → t.memAt a = s.memAt a) ∧
      (inv = true → t.cached c.val ln.toNat = none) ∧
      (inv = false → ∃ k, t.cached c.val ln.toNat = some k ∧ k.st = .shared ∧ k.words = l.words) ∧
      (∀ q, q ≠ c.val → t.proc q = s.proc q) ∧ (∀ a, ¬ inGlean a → t.reg a = s.reg a)) ∧
  (∀ (c : Fin 16) (ln : BitVec 21) (ws : List Word) (s : State), s.fab.wbs = [⟨c.val, ln.toNat, ws⟩] →
    ∃ t, exec (.writeback c ln) s = .next t ∧ t.fab.wbs = [] ∧
      (∀ i, i < 12 → t.memAt (12 * ln.toNat + i) = ws.getD i 0) ∧
      (∀ a, lineNo a ≠ ln.toNat → t.memAt a = s.memAt a) ∧ t.procs = s.procs ∧
      (∀ a, ¬ inGlean a → t.reg a = s.reg a))

/-- A step runs the command at the front of the queue with the queue's rest -/
def Obligations.StepRunsTheFrontCommand : Prop :=
  ∀ (c : Instr) (q : List Instr) (s : State),
    step { s with pending := c :: q } = exec c { s with pending := q }

/-- With no command waiting a step is one tick of the timebase, and its wrap sets TBWRAP -/
def Obligations.AnEmptyQueueIsOneTimebaseTick : Prop :=
  ∀ s : State, s.pending = [] → ∃ t, step s = .next t ∧
    (s.dom 2 = true → t.timebase = s.timebase + 1 ∧ (t.timebase = 0 → t.bitAt Reg.TMR_EVT 0 = true) ∧
      (∀ a, a ≠ Reg.TMR_EVT → a ≠ Reg.FAB_TOL → a ≠ Reg.FAB_STAT → (∀ b : Fin 3, a ≠ Reg.FAB_TOLDECL b.val) → ¬ inGlean a →
        t.reg a = s.reg a) ∧ t.mem = s.mem ∧ t.procs = s.procs ∧ t.pending = []) ∧
    (s.dom 2 = false → t = s)

/-- After reset every table is canonical, nothing waits, and the registers hold what the spec states -/
def Obligations.ResetIsSound : Prop :=
  State.Sound [] State.reset ∧ State.reset.reg Reg.SEC_DEVID = 0x2160B0 ∧ State.reset.reg Reg.FAB_TOL = 0xFFFF ∧
  State.reset.bitAt Reg.FAB_CTRL 1 = true ∧ State.reset.bitAt Reg.FAB_CTRL 0 = false ∧
  State.reset.fld (Reg.FAB_CRD 0) Fd.FAB_CRD_GUAR = 0x010 ∧ State.reset.fld (Reg.FAB_CRD 17) Fd.FAB_CRD_GUAR = 0x100 ∧
  State.reset.fld (Reg.FAB_CRD 25) Fd.FAB_CRD_GUAR = 0x004 ∧
  State.reset.reg (Reg.FAB_SEMACL 0) = 1 ∧ State.reset.reg (Reg.FAB_SEMACL 255) = 1 ∧ ∀ a, State.reset.memAt a = 0

/-- Every step of every command keeps all tables canonical and takes exactly one command off the queue -/
def Obligations.EveryStepKeepsTheStateSound : Prop :=
  ∀ s t : State, s.Canon → step s = .next t → t.Canon ∧ t.pending = s.pending.tail

/-- No command ends in a fault; a refusal comes only from a list operand of a length that no rule allows -/
def Obligations.NoCommandFaultsAndOnlyIllFormedOnesAreRefused : Prop :=
  ∀ (i : Instr) (s : State), (∃ t, exec i s = .next t) ∨
    (exec i s = .refused .illFormed ∧
      ((∃ r p a op, i = .transactionIssue r p a op ∧ opOk op = false) ∨
       ∃ b o vs, i = .furrowWrn b o vs ∧ (vs.length = 0 ∨ 16 < vs.length)))

/-- TEN, TGO, the pixel PLL and GLK_IN move the generator of a beam -/
def Obligations.TimingGeneratorStartsStopsAndLocks : Prop :=
  (∀ (req : Req) (b : BeamIx) (s : State), s.Opens req.val (Reg.BM_TCTRL b.val) → s.bitAt (Reg.BM_TCTRL b.val) 0 = false →
    (timingValid (s.stagedSet b.val) = true → ∃ t, exec (.timingEnable req b) s = .next t ∧
      t.bitAt (Reg.BM_TCTRL b.val) 0 = true ∧ t.genState b.val = 1 ∧ t.timingSet b.val = s.stagedSet b.val ∧
      t.reg (Reg.BM_FCNT b.val) = 0 ∧ (t.beam b.val).gen.acq = .pll ∧ t.mem = s.mem ∧
      t.reg (Reg.BM_SFRAME b.val) = (if t.extLock b.val then 0 else s.reg (Reg.BM_SFRAME b.val)) ∧
      (∀ a, a ≠ Reg.BM_TCTRL b.val → a ≠ Reg.BM_FCNT b.val → a ≠ Reg.BM_SFRAME b.val → t.reg a = s.reg a)) ∧
    (timingValid (s.stagedSet b.val) = false → ∃ t, exec (.timingEnable req b) s = .next t ∧
      t.bitAt (Reg.BM_TEVT b.val) 4 = true ∧
      s.OnlyRegs (fun a => a = Reg.BM_ERRCNT b.val ∨ a = Reg.BM_TEVT b.val) t)) ∧
  (∀ (req : Req) (b : BeamIx) (s : State), s.Opens req.val (Reg.BM_TCTRL b.val) → s.bitAt (Reg.BM_TCTRL b.val) 0 = true →
    ∃ t, exec (.timingDisable req b) s = .next t ∧ t.bitAt (Reg.BM_TCTRL b.val) 0 = false ∧ t.genState b.val = 0 ∧
      t.reg (Reg.BM_TPOS b.val) = 0 ∧ (t.beam b.val).comp = {} ∧ (t.beam b.val).fur.run = none ∧
      (t.beam b.val).out.sending = none ∧ t.reg (Reg.FAB_TOLDECL b.val) = 0xFFFF ∧ t.mem = s.mem) ∧
  (∀ (req : Req) (b : BeamIx) (s : State), s.Opens req.val (Reg.BM_TCTRL b.val) → timingValid (s.stagedSet b.val) = true →
    s.genState b.val ≠ 0 → ∃ t, exec (.tgo req b) s = .next t ∧ (t.beam b.val).gen.tgo = some (s.stagedSet b.val) ∧
      t.bitAt (Reg.BM_TSTAT b.val) 4 = true ∧ (∀ a, a ≠ Reg.BM_TSTAT b.val → t.reg a = s.reg a) ∧ t.eff = s.eff ∧
      t.mem = s.mem) ∧
  (∀ (b : BeamIx) (s : State), (s.beam b.val).gen.acq = .pll → ∃ t, exec (.pixelPllLock b) s = .next t ∧
    t.bitAt (Reg.BM_TSTAT b.val) 5 = true ∧ (t.beam b.val).gen.acq = (if s.extLock b.val then .edges else .grid) ∧
    (∀ a, a ≠ Reg.BM_TSTAT b.val → ¬ tolReg a → ¬ inGlean a → t.reg a = s.reg a) ∧ t.mem = s.mem) ∧
  (∀ (b : BeamIx) (s : State), s.genState b.val = 2 → s.extLock b.val = true → ∃ t, exec (.glkLoss b) s = .next t ∧
    t.genState b.val = 3 ∧ t.bitAt (Reg.BM_TEVT b.val) 1 = true ∧
    (∀ a, a ≠ Reg.BM_TCTRL b.val → a ≠ Reg.BM_TEVT b.val → a ≠ Reg.TMR_EVT → t.reg a = s.reg a) ∧ t.mem = s.mem) ∧
  (∀ (rising : Bool) (k : Nat) (s : State), s.genState 0 = 2 → s.genState 1 = 0 → s.extLock 0 = true →
    rising ≠ s.bitAt (Reg.BM_GLKCFG 0) 23 → (s.beam 0).gen.last = some k → s.onePeriod 0 (s.timebase.toNat - k) = true →
    ∃ t, exec (.glkInEdge rising) s = .next t ∧ t.reg (Reg.BM_GLKPER 0) = wd (s.timebase.toNat - k) ∧
      (t.beam 0).gen.last = some s.timebase.toNat ∧ t.mem = s.mem ∧
      (∀ a, a ≠ Reg.BM_GLKPER 0 → a ≠ Reg.LNK_REFOFS → ¬ tolReg a → ¬ inGlean a → t.reg a = s.reg a))

/-- Headlands, frame start, sending, composition and segments move a beam through its frame -/
def Obligations.BeamRunsThroughHeadlandsAndLines : Prop :=
  (∀ (b : BeamIx) (n : Nat) (s : State), s.inFH b.val = false → (s.beam b.val).out.sending = some n →
    (s.beam b.val).out.framed = true → (s.beam b.val).gen.acq ≠ .grid → n + 1 < s.vact b.val → ∃ t, exec (.lineHeadlandStart b) s = .next t ∧
      t.inHL b.val = true ∧ t.inFH b.val = false ∧ (t.beam b.val).out.sending = none ∧ (t.beam b.val).out.next = n + 1) ∧
  (∀ (b : BeamIx) (s : State), s.inFH b.val = true → (s.beam b.val).gen.acq ≠ .grid → (s.beam b.val).out.framed = false →
    s.lineNow b.val + 1 < (s.inEff (Reg.BM_VTOTAL b.val)).toNat →
    (s.inEff (Reg.BM_VTOTAL b.val)).toNat ≤ 8191 → ∃ t, exec (.lineHeadlandStart b) s = .next t ∧
      t.inFH b.val = true ∧ t.lineNow b.val = s.lineNow b.val + 1) ∧
  (∀ (b : BeamIx) (s : State), s.genState b.val = 2 → (s.beam b.val).out.sending = some (s.vact b.val - 1) →
    (s.beam b.val).out.framed = true → (s.beam b.val).gen.tgo = none → (s.beam b.val).gen.acq = .none → s.pwr.target = none →
    ((s.beam b.val).out.capOn = true → 16 * (s.inEff (Reg.BM_CAPBASE b.val)).toNat +
      s.vact b.val * s.effFld (Reg.BM_CAPSTRIDE b.val) Fd.BM_CAPSTRIDE_STRIDE + s.hact b.val ≤ fieldWords) → ∃ t, exec (.frameHeadlandStart b) s = .next t ∧ t.inHL b.val = true ∧ t.inFH b.val = true ∧
      (t.beam b.val).out.sending = none ∧ (t.beam b.val).comp.line = none) ∧
  (∀ (b : BeamIx) (s : State), s.inFH b.val = true → ∃ t, exec (.frameStart b) s = .next t ∧ t.inFH b.val = false ∧
    t.inHL b.val = false ∧ t.reg (Reg.BM_FCNT b.val) = s.reg (Reg.BM_FCNT b.val) + 1 ∧
    (t.beam b.val).out.sending = some 0) ∧
  (∀ (b : BeamIx) (full : Bool) (s : State), (s.beam b.val).out.sending = some 0 → (s.beam b.val).out.framed = false →
    (s.beam b.val).gen.acq ≠ .grid → s.inFH b.val = false → ∃ t, exec (.lineSendStart b full) s = .next t ∧ (t.beam b.val).out.framed = true ∧
      (t.beam b.val).out.sending = some 0 ∧ (t.beam b.val).out.next = 1 ∧ t.mem = s.mem) ∧
  (∀ (b : BeamIx) (s : State), (s.beam b.val).comp.line = none → (s.beam b.val).comp.next < s.vact b.val →
    (s.beam b.val).comp.store.length < 3 → s.lineOpen b.val (s.beam b.val).comp.next = true →
    s.furEnded b.val (s.beam b.val).comp.next = true → ∃ t, exec (.compositorLineStart b) s = .next t ∧
      (t.beam b.val).comp.line = some (s.beam b.val).comp.next ∧ (t.beam b.val).comp.pixels = []) ∧
  (∀ (b : BeamIx) (v : Nat) (s : State), (s.beam b.val).comp.line = some v → (∀ h, h < s.hact b.val → s.flatAddr b.val h v < fieldWords) →
    ∃ t, exec (.segmentStart b) s = .next t ∧
      (64 * ((s.beam b.val).comp.seg + 1) < s.hact b.val →
        (t.beam b.val).comp.line = some v ∧ (t.beam b.val).comp.seg = (s.beam b.val).comp.seg + 1) ∧
      (s.hact b.val ≤ 64 * ((s.beam b.val).comp.seg + 1) →
        (t.beam b.val).comp.line = none ∧ ∃ px, (v, px) ∈ (t.beam b.val).comp.store))

/-- Palette entries, the end of a captured frame, and the comparison of watched regions -/
def Obligations.PaletteCopyAndWatchedRegions : Prop :=
  (∀ (req : Req) (b : BeamIx) (i : BitVec 12) (v : Word) (s : State), s.Opens req.val (Reg.BM_PAL b.val i.toNat) →
    ∃ t, exec (.paletteWrite req b i v) s = .next t ∧ t.reg (Reg.BM_PAL b.val i.toNat) = v ∧
      (∀ a, a ≠ Reg.BM_PAL b.val i.toNat → t.reg a = s.reg a) ∧ t.eff = s.eff ∧ t.mem = s.mem ∧ t.procs = s.procs ∧
      t.respOf req.val = ⟨0, [], .ok⟩) ∧
  (∀ (b : BeamIx) (k : Nat) (ovr once : Bool) (s : State), (s.beam b.val).out.capEnd = some (k, ovr, once) →
    ∃ t, exec (.captureFrameDone b) s = .next t ∧ t.bitAt (Reg.BM_CEVT b.val) 4 = true ∧
      t.fld (Reg.BM_CAPSTAT b.val) Fd.BM_CAPSTAT_FRAME = k % 65536 ∧ t.bitAt (Reg.BM_CAPSTAT b.val) 22 = ovr ∧
      (once = true → bit (t.inEff (Reg.BM_CAPCTRL b.val)) 0 = false) ∧
      (t.beam b.val).out.capEnd = none ∧ t.mem = s.mem) ∧
  (∀ (b : BeamIx) (n : Fin 16) (m ea eb k : Nat) (s : State), (s.region b.val n.val).ended = some (m, ea, eb, k) →
    ∃ t, exec (.regionCompare b n) s = .next t ∧
      (t.region b.val n.val).sig = some (~~~ (s.region b.val n.val).crc, k) ∧ (t.region b.val n.val).ended = none ∧
      (m = 1 → t.bitAt (Reg.BM_CEVT b.val) 10 = true ∧ (∀ a, a ≠ Reg.BM_CEVT b.val → t.reg a = s.reg a) ∧ t.mem = s.mem) ∧
      (m ≠ 1 → ((~~~ (s.region b.val n.val).crc).toNat = ea ∨ (~~~ (s.region b.val n.val).crc).toNat = eb) →
        t.regs = s.regs ∧ t.mem = s.mem) ∧
      (m ≠ 1 → (~~~ (s.region b.val n.val).crc).toNat ≠ ea → (~~~ (s.region b.val n.val).crc).toNat ≠ eb →
        t.bitAt (Reg.BM_WRSTAT b.val) n.val = true)) ∧
  (∀ (b : BeamIx) (n : Fin 16) (k : Nat) (s : State), (s.region b.val n.val).noframeAt = some k → k ≤ s.timebase.toNat →
    ∃ t, exec (.regionNoframe b n) s = .next t ∧ t.bitAt (Reg.BM_WRSTAT b.val) n.val = true) ∧
  (∀ (req : Req) (b : BeamIx) (n : Fin 16) (c : BitVec 32) (k : Nat) (s : State),
    s.Opens req.val (Reg.BM_WR_CTRL b.val n.val) → (s.region b.val n.val).sig = some (c, k) →
    ∃ t, exec (.regionCap req b n) s = .next t ∧
      t.reg (Reg.BM_WR_CRC_HI b.val n.val) = wd (c.toNat / 2 ^ 24) ∧ t.reg (Reg.BM_WR_CRC_LO b.val n.val) = wd c.toNat ∧
      t.fld (Reg.BM_WR_CFRM b.val n.val) ⟨15, 0⟩ = k % 65536 ∧
      t.bitAt (Reg.BM_WR_CFRM b.val n.val) 23 = (s.region b.val n.val).fresh ∧
      s.OnlyRegs (fun a => a = Reg.BM_WR_CRC_HI b.val n.val ∨ a = Reg.BM_WR_CRC_LO b.val n.val ∨
        a = Reg.BM_WR_CFRM b.val n.val) t)

/-- WR, WRF, ADD and WRN of a Furrow program queue their writes for the line of the section -/
def Obligations.FurrowWritesAreQueuedForTheirLine : Prop :=
  ∀ (b : BeamIx) (m : Nat) (s : State), s.furReady b.val = true → (s.fur b.val).run = some m → (s.fur b.val).skip = 0 →
    (∀ (ofs : BitVec 16), furWritable ofs.toNat = true →
      (s.ownerBM b.val ofs.toNat).allows (s.ownerRes 1 b.val) true = true → (s.fur b.val).writes < 64 →
      (∀ v, s.furIns b.val = some (.wr ofs v) → (s.fur b.val).words + 2 ≤ 256 → ∃ t, exec (.furrowWr b ofs v) s = .next t ∧
        (t.fur b.val).queue = (s.fur b.val).queue ++ [⟨m, ofs.toNat, .set v, (s.fur b.val).pos⟩] ∧
        (t.fur b.val).pos = ((s.fur b.val).pos + 2) % 2 ^ 20 ∧ (t.fur b.val).words = (s.fur b.val).words + 2 ∧
        (t.fur b.val).run = some m ∧ (∀ a, ¬ inGlean a → t.reg a = s.reg a) ∧ t.mem = s.mem ∧ t.eff = s.eff ∧ t.procs = s.procs) ∧
      (∀ mask v, s.furIns b.val = some (.wrf ofs mask v) → (s.fur b.val).words + 3 ≤ 256 → ∃ t, exec (.furrowWrf b ofs mask v) s = .next t ∧
        (t.fur b.val).queue = (s.fur b.val).queue ++ [⟨m, ofs.toNat, .mask mask v, (s.fur b.val).pos⟩] ∧
        (t.fur b.val).pos = ((s.fur b.val).pos + 3) % 2 ^ 20 ∧ (t.fur b.val).run = some m ∧
        (∀ a, ¬ inGlean a → t.reg a = s.reg a) ∧ t.mem = s.mem ∧ t.eff = s.eff ∧ t.procs = s.procs) ∧
      (∀ d, s.furIns b.val = some (.add ofs d) → (s.fur b.val).words + 2 ≤ 256 → ∃ t, exec (.furrowAdd b ofs d) s = .next t ∧
        (t.fur b.val).queue = (s.fur b.val).queue ++ [⟨m, ofs.toNat, .add d, (s.fur b.val).pos⟩] ∧
        (t.fur b.val).pos = ((s.fur b.val).pos + 2) % 2 ^ 20 ∧ (t.fur b.val).run = some m ∧
        (∀ a, ¬ inGlean a → t.reg a = s.reg a) ∧ t.mem = s.mem ∧ t.eff = s.eff ∧ t.procs = s.procs)) ∧
    (∀ (ofs : BitVec 16) (vs : List Word), s.furIns b.val = some (.wrn ofs vs) → 1 ≤ vs.length → vs.length ≤ 16 → ofs.toNat + vs.length ≤ 65536 →
      (s.fur b.val).words + 1 + vs.length ≤ 256 → (s.fur b.val).writes + vs.length ≤ 64 →
      (∀ i, i < vs.length → furWritable (ofs.toNat + i) = true ∧
        (s.ownerBM b.val (ofs.toNat + i)).allows (s.ownerRes 1 b.val) true = true) →
      ∃ t, exec (.furrowWrn b ofs vs) s = .next t ∧
        (t.fur b.val).queue = (s.fur b.val).queue ++
          vs.zipIdx.map (fun x => ⟨m, ofs.toNat + x.2, .set x.1, (s.fur b.val).pos⟩) ∧
        (t.fur b.val).words = (s.fur b.val).words + 1 + vs.length ∧ (t.fur b.val).run = some m ∧
        (∀ a, ¬ inGlean a → t.reg a = s.reg a) ∧ t.mem = s.mem ∧ t.eff = s.eff ∧ t.procs = s.procs)

/-- JMP, LOOP, PUB, SKIPEV, END, WAITL, HALT, a reserved opcode and a fetch response of a Furrow engine -/
def Obligations.FurrowControlFlow : Prop :=
  ∀ (b : BeamIx) (m : Nat) (s : State), (s.fur b.val).run = some m → s.dom (domOfBeam b.val) = true →
    s.frozen (3 + b.val) = false → (s.fur b.val).skip = 0 → (s.fur b.val).words + 2 ≤ 256 →
    ((s.fur b.val).fetching = false →
      (∀ target : BitVec 20, s.furIns b.val = some (.jmp target) → ∃ t, exec (.furrowJmp b target) s = .next t ∧ (t.fur b.val).pos = target.toNat ∧
        (t.fur b.val).run = some m ∧ (t.fur b.val).queue = (s.fur b.val).queue ∧ t.mem = s.mem ∧ t.eff = s.eff ∧ t.procs = s.procs) ∧
      (∀ (count : BitVec 12) (target : BitVec 20), (s.fur b.val).loop = none → s.furIns b.val = some (.loop count target) →
        ∃ t, exec (.furrowLoop b count target) s = .next t ∧
          (count = 0 → (t.fur b.val).loop = none ∧ (t.fur b.val).pos = ((s.fur b.val).pos + 2) % 2 ^ 20) ∧
          (count ≠ 0 → (t.fur b.val).loop = some ((s.fur b.val).pos, count.toNat - 1) ∧ (t.fur b.val).pos = target.toNat ∧
            t.bitAt (Reg.HRW_FW_STAT b.val) 20 = true) ∧ (t.fur b.val).run = some m ∧ t.mem = s.mem ∧ t.eff = s.eff ∧ t.procs = s.procs) ∧
      (∀ tine : Tine, s.furIns b.val = some (.pub tine) → ∃ t, exec (.furrowPub b tine) s = .next t ∧
        t.tin.waiting = s.tin.waiting ++ [⟨tine.toNat, false⟩] ∧ (t.fur b.val).pos = ((s.fur b.val).pos + 1) % 2 ^ 20 ∧
        (∀ a, ¬ inGlean a → t.reg a = s.reg a) ∧ t.mem = s.mem ∧ t.eff = s.eff ∧ t.procs = s.procs) ∧
      (∀ k : Fin 4, s.furIns b.val = some (.skipev k) → s.bitAt (Reg.HRW_FW_SUB b.val k.val) 23 = true → ∃ t, exec (.furrowSkipev b k) s = .next t ∧
        t.bitAt (Reg.HRW_FW_SUB b.val k.val) 23 = false ∧ (t.fur b.val).skip = 1 ∧
        (∀ a, ¬ inGlean a → a ≠ Reg.HRW_FW_SUB b.val k.val → t.reg a = s.reg a) ∧ t.mem = s.mem ∧ t.eff = s.eff ∧ t.procs = s.procs) ∧
      (∀ k : BitVec 20, s.furIns b.val = some (.fin k) → (s.fur b.val).todo = [] → ∃ t, exec (.furrowEnd b k) s = .next t ∧ (t.fur b.val).run = none ∧
        (t.fur b.val).waitl = some (m + 1 + k.toNat) ∧ (t.fur b.val).queue = (s.fur b.val).queue ∧ t.mem = s.mem ∧ t.eff = s.eff ∧ t.procs = s.procs) ∧
      (∀ line : BitVec 13, s.furIns b.val = some (.waitl line) → (s.fur b.val).todo = [] → ∃ t, exec (.furrowWaitl b line) s = .next t ∧
        (t.fur b.val).run = none ∧ (t.fur b.val).waitl = some (max line.toNat (m + 1)) ∧ t.mem = s.mem ∧ t.eff = s.eff ∧ t.procs = s.procs) ∧
      (s.furIns b.val = some .halt → ∃ t, exec (.furrowHalt b) s = .next t ∧ (t.fur b.val).run = none ∧ (t.fur b.val).todo = [] ∧
        t.bitAt (Reg.HRW_FW_STAT b.val) 22 = true ∧ (t.fur b.val).queue = (s.fur b.val).queue ∧ t.mem = s.mem ∧ t.eff = s.eff ∧ t.procs = s.procs) ∧
      (∀ op : BitVec 4, s.furIns b.val = some (.reserved op) → ∃ t, exec (.furrowReservedOpcode b op) s = .next t ∧ (t.fur b.val).run = none ∧
        t.bitAt (Reg.HRW_FW_STAT b.val) 22 = true ∧ t.bitAt (Reg.HRW_FW_EVT b.val) 0 = true ∧
        t.fld (Reg.HRW_FW_LASTERR b.val) Fd.HRW_FW_LASTERR_CAUSE = 1 ∧ t.mem = s.mem ∧ t.eff = s.eff ∧ t.procs = s.procs)) ∧
    ((s.fur b.val).fetching = true → ∀ r : BusResp, ∃ t, exec (.furrowFetchResponse b r) s = .next t ∧
      (t.fur b.val).fetching = false ∧ (t.fur b.val).run = some m ∧ (t.fur b.val).pos = (s.fur b.val).pos ∧
      (t.fur b.val).held.length = 256 ∧
      (r ≠ .ok → (t.fur b.val).held.head? = some 0 ∧ t.bitAt (Reg.HRW_FW_EVT b.val) 0 = true ∧
        t.fld (Reg.HRW_FW_LASTERR b.val) Fd.HRW_FW_LASTERR_CAUSE = 8))

/-- The commands of a running Harrow list: surfaces, clip, table, key, FILL, COPY, PUB, WAITWM, END, a reserved opcode -/
def Obligations.HarrowListCommands : Prop :=
  ∀ (q : Fin 4) (l : HrwList) (ls : List HrwList) (ws : List Word) (s : State), s.hrwRuns = true → s.hrw.active = some q.val →
    s.hrwQueue q.val = l :: ls → l.ended = false → l.wait = none → l.job = none → l.cmd = some ws →
    (∀ fmt sel base stride, decodeHarrow ws = .surf fmt sel base stride →
      exec (.surf fmt sel base stride) s = .next (s.setQueue q.val
        ((if sel then { l with at0 := l.pos, pos := l.pos + ws.length, cmd := none, src := (base.toNat, stride.toNat, fmt.toNat) }
          else { l with at0 := l.pos, pos := l.pos + ws.length, cmd := none, dst := (base.toNat, stride.toNat) }) :: ls))) ∧
    (∀ en x0 y0 x1 y1, decodeHarrow ws = .clip en x0 y0 x1 y1 →
      exec (.clip en x0 y0 x1 y1) s = .next (s.setQueue q.val
        ({ l with at0 := l.pos, pos := l.pos + ws.length, cmd := none,
                  clip := if en then some (x0.toNat, y0.toNat, x1.toNat, y1.toNat) else none } :: ls))) ∧
    (∀ base, decodeHarrow ws = .lut base → exec (.lut base) s = .next (s.setQueue q.val
      ({ l with at0 := l.pos, pos := l.pos + ws.length, cmd := none, lut := base.toNat } :: ls))) ∧
    (∀ en key, decodeHarrow ws = .key en key → exec (.harrowKey en key) s = .next (s.setQueue q.val
      ({ l with at0 := l.pos, pos := l.pos + ws.length, cmd := none, key := if en then some key else none } :: ls))) ∧
    (∀ alpha xdir ydir colour dx dy w h, decodeHarrow ws = .fill alpha xdir ydir colour dx dy w h →
      exec (.fill alpha xdir ydir colour dx dy w h) s = .next (s.setQueue q.val
        ({ l with at0 := l.pos, pos := l.pos + ws.length, cmd := none,
                  job := some ⟨false, alpha.toNat, xdir, ydir, 0, colour, 0, 0, dx.toNat, dy.toNat, w.toNat, h.toNat,
                    0, 0, [], none, []⟩ } :: ls))) ∧
    (∀ alpha xdir ydir pal sx sy dx dy w h, decodeHarrow ws = .copy alpha xdir ydir pal sx sy dx dy w h →
      exec (.copy alpha xdir ydir pal sx sy dx dy w h) s = .next (s.setQueue q.val
        ({ l with at0 := l.pos, pos := l.pos + ws.length, cmd := none,
                  job := some ⟨true, alpha.toNat, xdir, ydir, pal.toNat, 0, sx.toNat, sy.toNat, dx.toNat, dy.toNat,
                    w.toNat, h.toNat, 0, 0, [], none, []⟩ } :: ls))) ∧
    (∀ tine, decodeHarrow ws = .pub tine → ∃ t, exec (.harrowPub tine) s = .next t ∧
      t.hrwQueue q.val = { l with at0 := l.pos, pos := l.pos + ws.length, cmd := none } :: ls ∧
      t.tin.waiting = s.tin.waiting ++ [⟨tine.toNat, false⟩] ∧ t.regs = s.regs ∧ t.mem = s.mem ∧ t.eff = s.eff ∧ t.procs = s.procs) ∧
    (∀ b : BeamIx, decodeHarrow ws = .waitwm b → ∃ t, exec (.waitwm b) s = .next t ∧
      t.hrwQueue q.val = { l with at0 := l.pos, pos := l.pos + ws.length, cmd := none, wait := some b.val } :: ls ∧
      t.bitAt (Reg.HRW_Q_STAT q.val) 20 = true ∧ t.hrw.active ≠ some q.val ∧ (∀ a, a ≠ Reg.HRW_STAT → (∀ k, k < 4 → a ≠ Reg.HRW_Q_STAT k) → ¬ inGlean a → t.reg a = s.reg a) ∧ t.mem = s.mem ∧ t.eff = s.eff ∧ t.procs = s.procs) ∧
    (decodeHarrow ws = .fin → ∃ t, exec .harrowEnd s = .next t ∧
      t.hrwQueue q.val = { l with at0 := l.pos, pos := l.pos + ws.length, cmd := none, ended := true } :: ls ∧
      t.hrw.active ≠ some q.val ∧ (∀ a, a ≠ Reg.HRW_STAT → (∀ k, k < 4 → a ≠ Reg.HRW_Q_STAT k) → ¬ inGlean a → t.reg a = s.reg a) ∧ t.mem = s.mem ∧ t.eff = s.eff ∧ t.procs = s.procs) ∧
    (∀ op, decodeHarrow ws = .reserved op → ∃ t, exec (.harrowReservedOpcode op) s = .next t ∧
      (t.hrwQueue q.val).map (·.id) = ls.map (·.id) ∧
      t.fld Reg.HRW_LASTERR Fd.HRW_LASTERR_CAUSE = 1 ∧ t.bitAt Reg.HRW_EVT 0 = true ∧ t.mem = s.mem ∧ t.eff = s.eff ∧ t.procs = s.procs)

/-- A Harrow command fetch, each kind of burst, and the end of a row -/
def Obligations.HarrowFetchesBurstsAndRows : Prop :=
  ∀ (q : Fin 4) (l : HrwList) (ls : List HrwList) (s : State), s.hrwRuns = true → s.hrw.active = some q.val →
    s.hrwQueue q.val = l :: ls → l.ended = false → l.wait = none → (s.drawTag 19 .normal).isSome = true →
    (l.job = none → l.cmd = none →
      let p := s.hrwPlot q.val
      let a := 16 * l.base + l.pos
      (∀ r, r ≠ BusResp.ok ∨ s.fetchBad p a = true → ∃ t, exec (.harrowFetchResponse r) s = .next t ∧
        t.hrwQueue q.val = { l with cmd := some [0] } :: ls ∧ decodeHarrow [0] = .fin ∧
        t.fld Reg.HRW_LASTERR Fd.HRW_LASTERR_CAUSE = 5 ∧ t.fld Reg.HRW_LASTERR Fd.HRW_LASTERR_QUEUE = q.val ∧
        t.fld Reg.HRW_LASTERR Fd.HRW_LASTERR_ADDR = l.pos % 2 ^ 18) ∧
      ((∀ i, i < hrwLen (s.fetchZ p a) → s.fetchBad p (a + i) = false) →
        ∃ t, exec (.harrowFetchResponse .ok) s = .next t ∧
          let ws := (List.range (hrwLen (s.fetchZ p a))).map (fun i => s.fetchZ p (a + i))
          ((decodeHarrow ws).ok = true → t.hrwQueue q.val = { l with cmd := some ws } :: ls ∧
            t.reg Reg.HRW_LASTERR = s.reg Reg.HRW_LASTERR) ∧
          ((decodeHarrow ws).ok = false → t.hrwQueue q.val = { l with at0 := l.pos, pos := l.pos + ws.length } :: ls ∧
            t.fld Reg.HRW_LASTERR Fd.HRW_LASTERR_CAUSE = 2 ∧ t.fld Reg.HRW_LASTERR Fd.HRW_LASTERR_ADDR = l.pos % 2 ^ 18))) ∧
    (∀ j, l.job = some j →
      (l.burstSteps j = [] → ∀ r, exec (.harrowBurst r) s = .next (s.setQueue q.val (l.pass j j.olds :: ls))) ∧
      (l.burstSteps j ≠ [] → j.copy = true → s.hrwNeeds l j.pal = true → ∀ r, ∃ t, exec (.harrowBurst r) s = .next t ∧
        t.hrwQueue q.val = l :: ls ∧
        (r ≠ BusResp.ok → t.fld Reg.HRW_LASTERR Fd.HRW_LASTERR_CAUSE = 3) ∧
        ∃ es, t.hrw.loading = some (l.tableKey j.pal, es) ∨ t.hrw.table = some (l.tableKey j.pal, es)) ∧
      (∀ a as, l.burstSteps j ≠ [] → j.copy = true → s.hrwNeeds l j.pal = false → l.missing j = a :: as →
        ∀ r, ∃ t vs, exec (.harrowBurst r) s = .next t ∧
          vs.map (·.1) = (a :: as).filter (fun x => x / 12 == a / 12) ∧
          (r ≠ BusResp.ok → (∀ x ∈ vs, x.2 = 0) ∧ t.fld Reg.HRW_LASTERR Fd.HRW_LASTERR_CAUSE = 3) ∧
          (t.hrwQueue q.val = { l with job := some { j with got := j.got ++ vs } } :: ls ∨
            t.hrwQueue q.val = l.pass { j with got := j.got ++ vs } j.olds :: ls)) ∧
      (l.burstSteps j ≠ [] → j.copy = false → j.alpha < 63 → j.under = none → ∀ r, ∃ t vs, exec (.harrowBurst r) s = .next t ∧
        vs.map (·.1) = (l.burstSteps j).map (fun c => l.dstWord (j.dstAt c)) ∧
        (r ≠ BusResp.ok → (∀ x ∈ vs, x.2 = 0) ∧ t.fld Reg.HRW_LASTERR Fd.HRW_LASTERR_CAUSE = 3) ∧
        t.hrwQueue q.val = { l with job := some { j with under := some vs } } :: ls) ∧
      (l.burstSteps j ≠ [] → (j.copy = true → s.hrwNeeds l j.pal = false) → l.missing j = [] →
        (63 ≤ j.alpha ∨ j.under.isSome = true) →
        ((∀ c ∈ l.burstSteps j, l.dstWord (j.dstAt c) < fieldWords) → s.memReady = true → s.refuses (s.hrwPlot q.val) = false →
        s.fab.inflight = [] → s.fab.snoops = [] →
          ∃ t olds, exec (.harrowBurst .ok) s = .next t ∧ t.hrwQueue q.val = l.pass j olds :: ls ∧
            (j.copy = false → ∀ c ∈ l.burstSteps j, t.cohWord (l.dstWord (j.dstAt c)) =
              blend j.colour j.alpha (readAt (j.under.getD []) (l.dstWord (j.dstAt c)))) ∧
            (∀ x, (∀ c ∈ l.burstSteps j, l.dstWord (j.dstAt c) ≠ x) → t.cohWord x = s.cohWord x)) ∧
        (∀ r, r ≠ BusResp.ok → ∃ t olds, exec (.harrowBurst r) s = .next t ∧ t.hrwQueue q.val = l.pass j olds :: ls ∧
          (j.copy = false → t.fld Reg.HRW_LASTERR Fd.HRW_LASTERR_CAUSE = 4) ∧ t.mem = s.mem ∧ t.eff = s.eff ∧ t.procs = s.procs)) ∧
      (l.stepsLeft j ≠ [] → exec .rowEnd s = .next s) ∧
      (l.stepsLeft j = [] → ∃ t, exec .rowEnd s = .next t ∧ (∀ a, a ≠ Reg.HRW_STAT → (∀ k, k < 4 → a ≠ Reg.HRW_Q_STAT k) → ¬ inGlean a → t.reg a = s.reg a) ∧ t.mem = s.mem ∧ t.eff = s.eff ∧ t.procs = s.procs ∧
        (j.row + 1 < j.h → (t.hrwQueue q.val).map (·.job) = some { j with row := j.row + 1, col := 0 } :: ls.map (·.job)) ∧
        (j.h ≤ j.row + 1 → (t.hrwQueue q.val).map (·.job) = none :: ls.map (·.job))))

/-- Submit, flush, pause, resume, list completion and the watermark timeout of the Harrow queues -/
def Obligations.HarrowQueuesAndCompletion : Prop :=
  (∀ (req : Req) (q : Fin 4) (base : Word) (s : State), s.Opens req.val (Reg.HRW_Q_SUBMIT q.val) →
    s.plotFenced (s.hrwPlot q.val) = false → s.refuses (s.hrwPlot q.val) = false →
    ((s.hrwQueue q.val).length < 8 → ∃ t, exec (.hrwSubmit req q base) s = .next t ∧
      (t.hrwQueue q.val).map (·.base) = (s.hrwQueue q.val).map (·.base) ++ [base.toNat] ∧
      (∀ k, k ≠ q.val → (t.hrwQueue k).map (·.base) = (s.hrwQueue k).map (·.base)) ∧ (∀ a, a ≠ Reg.HRW_STAT → (∀ k, k < 4 → a ≠ Reg.HRW_Q_STAT k) → ¬ inGlean a → t.reg a = s.reg a) ∧ t.mem = s.mem ∧ t.eff = s.eff ∧ t.procs = s.procs) ∧
    (8 ≤ (s.hrwQueue q.val).length → ∃ t, exec (.hrwSubmit req q base) s = .next t ∧
      t.fld Reg.HRW_LASTERR Fd.HRW_LASTERR_CAUSE = 7 ∧ t.bitAt Reg.HRW_EVT 2 = true ∧
      s.OnlyRegs (fun a => a = Reg.HRW_ERRCNT ∨ a = Reg.HRW_LASTERR ∨ a = Reg.HRW_EVT) t)) ∧
  (∀ (req : Req) (q : Fin 4) (s : State), s.Opens req.val (Reg.HRW_Q_CFG q.val) →
    ∃ t, exec (.hrwFlush req q) s = .next t ∧ t.hrwQueue q.val = [] ∧
      (∀ k, k ≠ q.val → (t.hrwQueue k).map (·.base) = (s.hrwQueue k).map (·.base)) ∧ t.hrw.held = s.hrw.held ∧ (∀ a, a ≠ Reg.HRW_STAT → (∀ k, k < 4 → a ≠ Reg.HRW_Q_STAT k) → ¬ inGlean a → t.reg a = s.reg a) ∧ t.mem = s.mem ∧ t.eff = s.eff ∧ t.procs = s.procs) ∧
  (∀ (req : Req) (s : State), s.Opens req.val Reg.HRW_CTRL →
    (∃ t, exec (.harrowPause req) s = .next t ∧ t.bitAt Reg.HRW_CTRL 0 = false ∧ t.bitAt Reg.HRW_STAT 22 = true ∧
      s.OnlyRegs (fun a => a = Reg.HRW_CTRL ∨ a = Reg.HRW_STAT) t) ∧
    (∃ t, exec (.harrowResume req) s = .next t ∧ t.bitAt Reg.HRW_CTRL 0 = true ∧ t.bitAt Reg.HRW_STAT 22 = false ∧
      t.mem = s.mem)) ∧
  (∀ (q : Fin 4) (l : HrwList) (ls : List HrwList) (s : State), s.hrwQueue q.val = l :: ls → l.ended = true →
    ∃ t, exec (.listComplete q) s = .next t ∧ (t.hrwQueue q.val).map (·.id) = ls.map (·.id) ∧
      (s.bitAt (Reg.HRW_Q_CFG q.val) 4 = false → t.bitAt (Reg.HRW_Q_STAT q.val) 23 = true ∧
        t.reg (Reg.HRW_Q_DONECNT q.val) = s.reg (Reg.HRW_Q_DONECNT q.val) + 1 ∧ t.hrwHeld q.val = s.hrwHeld q.val) ∧
      (s.bitAt (Reg.HRW_Q_CFG q.val) 4 = true → (t.hrwHeld q.val).length = (s.hrwHeld q.val).length + 1 ∧
        t.bitAt (Reg.HRW_Q_STAT q.val) 21 = true ∧
        t.reg (Reg.HRW_Q_DONECNT q.val) = s.reg (Reg.HRW_Q_DONECNT q.val)) ∧ t.mem = s.mem ∧ t.eff = s.eff ∧ t.procs = s.procs) ∧
  (∀ (q : Fin 4) (s : State),
    (∀ h hs, s.hrwHeld q.val = h :: hs → ∃ t, exec (.watermarkTimeout q) s = .next t ∧ t.hrwHeld q.val = hs ∧
      t.fld Reg.HRW_LASTERR Fd.HRW_LASTERR_CAUSE = 6 ∧ t.bitAt (Reg.HRW_Q_STAT q.val) 23 = true ∧
      t.reg (Reg.HRW_Q_DONECNT q.val) = s.reg (Reg.HRW_Q_DONECNT q.val) + 1 ∧ t.mem = s.mem ∧ t.eff = s.eff ∧ t.procs = s.procs) ∧
    (∀ l ls, s.hrwHeld q.val = [] → s.hrwQueue q.val = l :: ls → l.wait.isSome = true →
      ∃ t, exec (.watermarkTimeout q) s = .next t ∧ (t.hrwQueue q.val).map (·.wait) = none :: ls.map (·.wait) ∧
        t.fld Reg.HRW_LASTERR Fd.HRW_LASTERR_CAUSE = 6 ∧
        t.reg (Reg.HRW_Q_DONECNT q.val) = s.reg (Reg.HRW_Q_DONECNT q.val) ∧ t.mem = s.mem ∧ t.eff = s.eff ∧ t.procs = s.procs))

/-- The audio engine starts, locks, runs, computes an index, exchanges a TDM frame and stops -/
def Obligations.AudioStartsRunsAndStops : Prop :=
  (∀ (req : Req) (s : State), s.Opens req.val Reg.AUD_CTRL → s.bitAt Reg.AUD_CTRL 0 = false →
    (s.fld Reg.AUD_PHASE Fd.AUD_PHASE_PHASE * s.audFs < 250000000 → ∃ t, exec (.audioEnable req) s = .next t ∧
      t.bitAt Reg.AUD_CTRL 0 = true ∧ t.audState = 1 ∧ t.aud.next = none ∧
      (∀ a, a ≠ Reg.AUD_CTRL → a ≠ Reg.AUD_STAT → t.reg a = s.reg a) ∧ t.mem = s.mem ∧ t.eff = s.eff ∧ t.procs = s.procs) ∧
    (250000000 ≤ s.fld Reg.AUD_PHASE Fd.AUD_PHASE_PHASE * s.audFs → ∃ t, exec (.audioEnable req) s = .next t ∧
      t.bitAt Reg.AUD_CTRL 0 = false ∧ t.fld Reg.AUD_LASTERR Fd.AUD_LASTERR_CAUSE = 1 ∧
      s.OnlyRegs (fun a => a = Reg.AUD_ERRCNT ∨ a = Reg.AUD_LASTERR ∨ a = Reg.AUD_EVT ∨ a = Reg.AUD_CTRL) t)) ∧
  (∀ s : State, s.audState = 1 → s.bitAt Reg.AUD_STAT 21 = false → s.fld Reg.AUD_PHASE Fd.AUD_PHASE_PHASE ≤ s.timebase.toNat →
    ∃ t k, exec .audioPllLock s = .next t ∧ t.bitAt Reg.AUD_STAT 21 = true ∧ t.aud.next = some (k + s.audAhead + 2) ∧
      (s.timebase.toNat - s.fld Reg.AUD_PHASE Fd.AUD_PHASE_PHASE) * s.audFs ≤ k * 250000000 ∧
      (∀ j, j < k → j * 250000000 < (s.timebase.toNat - s.fld Reg.AUD_PHASE Fd.AUD_PHASE_PHASE) * s.audFs) ∧
      (∀ a, a ≠ Reg.AUD_STAT → t.reg a = s.reg a) ∧ t.mem = s.mem ∧ t.eff = s.eff ∧ t.procs = s.procs) ∧
  (∀ s : State, s.audState = 1 → s.bitAt Reg.AUD_STAT 21 = true → ∃ t, exec .audioRunStart s = .next t ∧ t.audState = 2 ∧
    (∀ p, p < 4 → s.bitAt (Reg.AUD_TDM_CFG p) 23 = true → t.bitAt (Reg.AUD_TDM_STAT p) 23 = true) ∧
    (∀ p, p < 4 → s.bitAt (Reg.AUD_TDM_CFG p) 23 = false → t.reg (Reg.AUD_TDM_STAT p) = s.reg (Reg.AUD_TDM_STAT p)) ∧
    (∀ a, a ≠ Reg.AUD_STAT → (∀ p, p < 4 → a ≠ Reg.AUD_TDM_STAT p) → ¬ tolReg a → ¬ inGlean a → t.reg a = s.reg a) ∧ t.mem = s.mem ∧ t.eff = s.eff ∧ t.procs = s.procs) ∧
  (∀ (pdm sns : List Word) (k : Nat) (s : State), s.aud.next = some k → s.dom 15 = true → s.audState ≠ 0 →
    s.bitAt Reg.AUD_STAT 21 = true → s.audMay k = true →
    ∃ t, exec (.audioIndexCompute pdm sns) s = .next t ∧ t.aud.next = some (k + 1)) ∧
  (∀ (p : Fin 4) (slots : List (BitVec 32)) (s : State), s.audState = 2 → s.dom 15 = true →
    s.bitAt (Reg.AUD_TDM_CFG p.val) 23 = true → s.bitAt (Reg.AUD_TDM_STAT p.val) 23 = true →
    ∃ t, exec (.tdmFrame p slots) s = .next t ∧ (t.port p.val).next = (s.port p.val).next + 1 ∧
      (∀ ws, (s.port p.val).outq.find? (fun e => e.1 == (s.port p.val).next) = some ((s.port p.val).next, ws) →
        (t.port p.val).sent = ws) ∧
      ((s.port p.val).outq.find? (fun e => e.1 == (s.port p.val).next) = none →
        (t.port p.val).sent = List.replicate 8 0 ∧ t.bitAt Reg.AUD_EVT 3 = true) ∧ t.mem = s.mem ∧ t.eff = s.eff ∧ t.procs = s.procs) ∧
  (∀ (req : Req) (s : State), s.Opens req.val Reg.AUD_CTRL → s.bitAt Reg.AUD_CTRL 0 = true →
    ∃ t, exec (.audioDisable req) s = .next t ∧ t.bitAt Reg.AUD_CTRL 0 = false ∧ t.reg Reg.AUD_STAT = 0 ∧
      (∀ v, v < 64 → t.voiceState v = 0) ∧ (∀ p, p < 8 → t.shfState p = 0) ∧
      (∀ p, p < 4 → t.bitAt (Reg.AUD_TDM_STAT p) 23 = false) ∧ t.reg (Reg.FAB_TOLDECL 2) = 0xFFFF)

/-- Node writes, voice commands, Sheaf slots and ambient updates of the audio engine -/
def Obligations.NodesVoicesSheavesAndAmbientLoops : Prop :=
  (∀ (req : Req) (i : BitVec 7) (o : BitVec 6) (v : Word) (s : State), s.Opens req.val (Reg.AUD_NODE i.toNat o.toNat) →
    (getF v Fd.AUD_NODE_GAIN ≤ 280 → ∃ t, exec (.nodeWrite req i o v) s = .next t ∧
      t.fld (Reg.AUD_NODE i.toNat o.toNat) Fd.AUD_NODE_GAIN = getF v Fd.AUD_NODE_GAIN ∧
      t.bitAt (Reg.AUD_NODE i.toNat o.toNat) 23 = true ∧
      (∀ a, a ≠ Reg.AUD_NODE i.toNat o.toNat → t.reg a = s.reg a) ∧ t.mem = s.mem ∧ t.eff = s.eff ∧ t.procs = s.procs) ∧
    (280 < getF v Fd.AUD_NODE_GAIN → ∃ t, exec (.nodeWrite req i o v) s = .next t ∧
      t.fld Reg.AUD_LASTERR Fd.AUD_LASTERR_CAUSE = 1 ∧
      s.OnlyRegs (fun a => a = Reg.AUD_ERRCNT ∨ a = Reg.AUD_LASTERR ∨ a = Reg.AUD_EVT) t)) ∧
  (∀ (req : Req) (v : BitVec 6) (s : State), s.Opens req.val (Reg.AUD_V_CTRL v.toNat) →
    (∃ t, exec (.voiceGo req v) s = .next t ∧ t.voice v.toNat = { s.voice v.toNat with go := true } ∧
      (∀ k, k ≠ v.toNat → t.voice k = s.voice k) ∧ t.regs = s.regs ∧ t.mem = s.mem ∧ t.eff = s.eff ∧ t.procs = s.procs) ∧
    (s.voiceState v.toNat ≠ 0 ∨ (s.voice v.toNat).pending = true → ∃ t, exec (.voiceStop req v) s = .next t ∧
      t.voice v.toNat = { s.voice v.toNat with stop := true, go := false, start := none } ∧
      (∀ k, k ≠ v.toNat → t.voice k = s.voice k) ∧ t.regs = s.regs ∧ t.mem = s.mem ∧ t.eff = s.eff ∧ t.procs = s.procs) ∧
    (s.voiceState v.toNat = 0 → (s.voice v.toNat).pending = false → ∃ t, exec (.voiceStop req v) s = .next t ∧ s.OnlyRegs (fun _ => False) t) ∧
    (s.voiceState v.toNat = 2 ∨ s.voiceState v.toNat = 1 ∧ 2 ≤ (s.voice v.toNat).mode →
      ∃ t, exec (.voiceRel req v) s = .next t ∧ t.voiceState v.toNat = 3 ∧ (t.voice v.toNat).rel = true ∧
      (∀ k, k ≠ v.toNat → t.voice k = s.voice k) ∧ (∀ a, a ≠ Reg.AUD_V_STAT v.toNat → t.reg a = s.reg a) ∧ t.mem = s.mem ∧ t.eff = s.eff ∧ t.procs = s.procs) ∧
    (s.voiceState v.toNat ≠ 2 → (s.voiceState v.toNat = 1 → (s.voice v.toNat).mode < 2) →
      ∃ t, exec (.voiceRel req v) s = .next t ∧ s.OnlyRegs (fun _ => False) t)) ∧
  (∀ (v : BitVec 6) (a : BitVec 29) (s : State), s.audState ≠ 0 → s.dom 15 = true →
    (∃ t, exec (.voiceFetchResponse v a .ok) s = .next t ∧
      ∀ i, i < 12 → Tab.get none (t.voice v.toNat).words (12 * (a.toNat / 12) + i) =
        some ((s.busReads 21 0 (12 * (a.toNat / 12)) 12).2.1.getD i 0)) ∧
    (∀ r, r ≠ BusResp.ok → ∃ t, exec (.voiceFetchResponse v a r) s = .next t ∧
      (∀ i, i < 12 → Tab.get none (t.voice v.toNat).words (12 * (a.toNat / 12) + i) = some 0) ∧
      t.fld Reg.AUD_LASTERR Fd.AUD_LASTERR_CAUSE = 5 ∧
      (∀ b, b ≠ Reg.AUD_ERRCNT → b ≠ Reg.AUD_LASTERR → b ≠ Reg.AUD_EVT → t.reg b = s.reg b) ∧ t.mem = s.mem ∧ t.eff = s.eff ∧ t.procs = s.procs)) ∧
  (∀ (req : Req) (p : Fin 8) (s : State), s.Opens req.val (Reg.AUD_SHF_CTRL p.val) →
    (s.shfState p.val = 0 → ∃ t, exec (.shfGo req p) s = .next t ∧ t.shfState p.val = 1 ∧
      (∀ a, a ≠ Reg.AUD_SHF_STAT p.val → t.reg a = s.reg a) ∧ t.mem = s.mem ∧ t.eff = s.eff ∧ t.procs = s.procs) ∧
    (s.shfState p.val ≠ 0 → ∃ t, exec (.shfGo req p) s = .next t ∧ t.fld Reg.AUD_LASTERR Fd.AUD_LASTERR_CAUSE = 2 ∧
      s.OnlyRegs (fun a => a = Reg.AUD_ERRCNT ∨ a = Reg.AUD_LASTERR ∨ a = Reg.AUD_EVT) t) ∧
    (s.shfState p.val = 1 ∨ s.shfState p.val = 2 → ∃ t, exec (.shfCancel req p) s = .next t ∧ t.shfState p.val = 0 ∧
      t.sheafOf p.val = {} ∧ (∀ k, k ≠ p.val → t.sheafOf k = s.sheafOf k) ∧
      (s.shfState p.val = 2 → ∀ a, a ≠ Reg.AUD_SHF_STAT p.val → t.reg a = s.reg a)) ∧
    (s.shfState p.val ≠ 1 → s.shfState p.val ≠ 2 → ∃ t, exec (.shfCancel req p) s = .next t ∧ s.OnlyRegs (fun _ => False) t)) ∧
  (∀ (p : Fin 8) (s : State), s.shfState p.val = 1 → ∃ t, exec (.sheafLoaded p) s = .next t ∧
    (∀ ps, (s.shfRead p.val).2 = some ps → t.shfState p.val = 2 ∧ t.sheafOf p.val = { phases := ps }) ∧
    ((s.shfRead p.val).2 = none → t.shfState p.val = 0 ∧ t.bitAt (Reg.AUD_SHF_STAT p.val) 20 = true ∧
      t.fld Reg.AUD_LASTERR Fd.AUD_LASTERR_CAUSE = 4)) ∧
  (∀ (l : Fin 4) (s : State), s.bitAt (Reg.AUD_AMB_CFG l.val) 23 = true → s.audState = 2 →
    let m : AmbSt := Tab.get {} s.aud.amb l.val
    let due := max 1 (s.fld (Reg.AUD_AMB_CFG l.val) Fd.AUD_AMB_CFG_UPD) * s.audFs / 10
    (m.n < due → exec (.ambientUpdate l) s = .next s) ∧
    (due ≤ m.n → ∃ t, exec (.ambientUpdate l) s = .next t ∧
      (10 * m.q < m.n → t.fld (Reg.AUD_AMB_STAT l.val) ⟨7, 5⟩ = 1 ∧
        (∀ a, a ≠ Reg.AUD_AMB_STAT l.val → t.reg a = s.reg a) ∧ t.mem = s.mem ∧ t.eff = s.eff ∧ t.procs = s.procs) ∧
      (m.n ≤ 10 * m.q → signed 8 (s.fld (Reg.AUD_AMB_WIN l.val) Fd.AUD_AMB_WIN_MIN) ≤
          signed 8 (s.fld (Reg.AUD_AMB_WIN l.val) Fd.AUD_AMB_WIN_MAX) →
        signed 8 (s.fld (Reg.AUD_AMB_WIN l.val) Fd.AUD_AMB_WIN_MIN) ≤
          signed 8 (t.fld (Reg.AUD_AMB_STAT l.val) Fd.AUD_AMB_STAT_OFFSET) ∧
        signed 8 (t.fld (Reg.AUD_AMB_STAT l.val) Fd.AUD_AMB_STAT_OFFSET) ≤
          signed 8 (s.fld (Reg.AUD_AMB_WIN l.val) Fd.AUD_AMB_WIN_MAX) ∧
        (Tab.get {} t.aud.trims l.val).dst = 256 * signed 8 (t.fld (Reg.AUD_AMB_STAT l.val) Fd.AUD_AMB_STAT_OFFSET) ∧
        (∀ a, a ≠ Reg.AUD_AMB_STAT l.val → a ≠ Reg.AUD_AMB_EDGE l.val → a ≠ Reg.AUD_EVT → t.reg a = s.reg a) ∧ t.mem = s.mem ∧ t.eff = s.eff ∧ t.procs = s.procs)))

/-- Requests of the software source, the reading of a descriptor and the steps of a staged message -/
def Obligations.StagedMessagesStartWaitAndStop : Prop :=
  (∀ (req : Req) (slot : BitVec 6) (s : State), s.Opens req.val Reg.SUP_STGGO →
    (8 < s.playing ∨ (s.playing = 8 ∧ s.sup.stg.stop = false) → ∃ t, exec (.stggoGo req slot) s = .next t ∧ t.playing = 8 ∧
      t.bitAt Reg.SUP_STGSTAT 10 = true ∧ t.bitAt Reg.SUP_STGSTAT 19 = false ∧ t.sup.stg.src = some 8 ∧ t.sup.stg.slot = slot.toNat ∧
      t.sup.stg.stop = false ∧ t.sup.stg.wait = .begin') ∧
    (s.playing < 8 ∨ (s.playing = 8 ∧ s.sup.stg.stop = true) → ∃ t, exec (.stggoGo req slot) s = .next t ∧ t.bitAt Reg.SUP_STGSTAT 19 = true ∧
      t.sup.stg = { s.sup.stg with soft := slot.toNat } ∧ (∀ a, a ≠ Reg.SUP_STGSTAT → t.reg a = s.reg a) ∧ t.mem = s.mem ∧ t.eff = s.eff ∧ t.procs = s.procs) ∧
    (s.playing = 8 → s.sup.stg.stop = false → ∃ t, exec (.stggoStop req) s = .next t ∧ t.sup.stg.stop = true ∧ t.sup.stg.src = some 8 ∧
      t.sup.stg.slot = s.sup.stg.playSlot ∧
      t.sup.stg.wait = .begin' ∧ t.bitAt Reg.SUP_STGSTAT 10 = true ∧ (∀ a, a ≠ Reg.SUP_STGSTAT → t.reg a = s.reg a) ∧ t.mem = s.mem ∧ t.eff = s.eff ∧ t.procs = s.procs) ∧
    (s.playing ≠ 8 ∨ s.sup.stg.stop = true → ∃ t, exec (.stggoStop req) s = .next t ∧ t.bitAt Reg.SUP_STGSTAT 19 = false ∧
      s.OnlyRegs (fun a => a = Reg.SUP_STGSTAT) t)) ∧
  (∀ (src : Fin 9) (s : State), s.sup.stg.src = some src.val → s.sup.stg.wait = .begin' →
    ∀ d : List Word, d = (List.range 248).map (fun i => if s.dom 3 then
      s.granAt (256 * (s.fld Reg.SUP_STGBASE Fd.SUP_STGBASE_PAGE + s.sup.stg.slot) + i) else 0) →
    ∃ t, exec (.stagedStart src) s = .next t ∧ t.sup.stg.desc = d ∧
      (bit (d.getD 0 0) 23 = false → t.bitAt Reg.SUP_EVT 9 = true ∧ t.fld Reg.SUP_LASTERR Fd.SUP_LASTERR_CAUSE = 5 ∧
        (s.sup.stg.stop = false → t.sup.stg.src = none ∧ t.bitAt Reg.SUP_STGSTAT 10 = false)) ∧
      (bit (d.getD 0 0) 23 = true → s.sup.stg.stop = false → bit (d.getD 1 0) 23 = false → bit (d.getD 1 0) 22 = false →
        t.sup.stg.src = none ∧ t.bitAt Reg.SUP_STGSTAT 10 = false ∧ t.fld Reg.SUP_STGSTAT Fd.SUP_STGSTAT_SLOT = s.sup.stg.slot % 64 ∧
        (bit (d.getD 1 0) 21 = false → (∀ a, a ≠ Reg.SUP_STGSTAT → t.reg a = s.reg a) ∧ t.mem = s.mem ∧ t.eff = s.eff ∧ t.procs = s.procs)) ∧
      (bit (d.getD 0 0) 23 = true → s.sup.stg.stop = false → bit (d.getD 1 0) 23 = false → bit (d.getD 1 0) 22 = true →
        t.sup.stg.src = some src.val ∧ ∃ id, t.sup.stg.wait = .harrow id) ∧
      (bit (d.getD 0 0) 23 = true → bit (d.getD 1 0) (if s.sup.stg.stop then 20 else 23) = true → s.audState ≠ 2 →
        t.sup.stg.src = some src.val ∧ t.sup.stg.wait = .sheaf ∧ t.regs = s.regs ∧ t.mem = s.mem ∧ t.eff = s.eff ∧ t.procs = s.procs) ∧
      (∀ p, bit (d.getD 0 0) 23 = true → bit (d.getD 1 0) (if s.sup.stg.stop then 20 else 23) = true → s.audState = 2 →
        s.fld Reg.SUP_STGCFG Fd.SUP_STGCFG_SSLOT = p → s.shfState p ≠ 3 →
        t.shfState p = 1 ∧ t.reg (Reg.AUD_SHF_BASE p) = d.getD (if s.sup.stg.stop then 3 else 2) 0) ∧
      (bit (d.getD 0 0) 23 = true → s.sup.stg.stop = true → bit (d.getD 1 0) 20 = false →
        (∀ n, n < 9 → s.bitAt Reg.SUP_STGSTAT (11 + n) = false) → t.playing = 15 ∧ t.bitAt Reg.SUP_STGSTAT 10 = false ∧ t.sup.stg.src = none ∧
        (∀ a, a ≠ Reg.SUP_STGSTAT → t.reg a = s.reg a) ∧ t.mem = s.mem ∧ t.eff = s.eff ∧ t.procs = s.procs)) ∧
  (∀ (p : Nat) (s : State), s.sup.stg.src.isSome = true → s.sup.stg.wait = .sheaf → s.audState = 2 →
    s.fld Reg.SUP_STGCFG Fd.SUP_STGCFG_SSLOT = p → s.shfState p ≠ 3 →
    ∃ t, exec .stagedSheafReady s = .next t ∧ t.shfState p = 1 ∧ t.bitAt (Reg.AUD_SHF_CTRL p) 1 = false ∧
      t.reg (Reg.AUD_SHF_BASE p) = s.sup.stg.desc.getD (if s.sup.stg.stop then 3 else 2) 0) ∧
  (∀ s : State, s.sup.stg.src.isSome = true → s.sup.stg.wait ≠ .begin' → ∃ t, exec .stagedWaitTimeout s = .next t ∧
    t.bitAt Reg.SUP_EVT 9 = true) ∧
  (∀ s : State, s.sup.stg.src.isSome = true → s.sup.stg.stop = false →
    (s.sup.stg.wait = .harrowDone → ∃ t, exec .stagedHarrowDone s = .next t ∧ t.sup.stg.src = none ∧
      t.bitAt Reg.SUP_STGSTAT 10 = false ∧ t.fld Reg.SUP_STGSTAT Fd.SUP_STGSTAT_SLOT = s.sup.stg.slot % 64 ∧
      (bit (s.sup.stg.desc.getD 1 0) 21 = false → (∀ a, a ≠ Reg.SUP_STGSTAT → t.reg a = s.reg a) ∧ t.mem = s.mem ∧ t.eff = s.eff ∧ t.procs = s.procs)) ∧
    (bit (s.sup.stg.desc.getD 1 0) 22 = false → bit (s.sup.stg.desc.getD 1 0) 21 = false → s.sup.stg.wait ≠ .begin' →
      ∃ t, exec .stagedWaitTimeout s = .next t ∧ t.sup.stg.src = none ∧ t.bitAt Reg.SUP_EVT 9 = true ∧
        t.bitAt Reg.SUP_STGSTAT 10 = false ∧
        t.fld Reg.SUP_LASTERR Fd.SUP_LASTERR_CAUSE = (if s.sup.stg.wait = .sheaf then 6 else 7)))

/-- Override inputs: filtering of both channels, the states of R220, CLR and CAP -/
def Obligations.OverrideInputsFilterAgreeAndFault : Prop :=
  (∀ (pa pb : BitVec 8) (s : State), s.ovOn = true → ∃ t, exec (.overrideSample pa pb) s = .next t ∧
    (∀ n, n < 8 → ∀ lim, lim = 10 * max 1 (s.fld (Reg.SUP_OV_DEB n) Fd.SUP_OV_DEB_DEB) →
      (pa.getLsbD n = (s.ov n).fa → (t.ov n).fa = (s.ov n).fa ∧ (t.ov n).ca = 0) ∧
      (pa.getLsbD n ≠ (s.ov n).fa → lim < (s.ov n).ca + 1 → (t.ov n).fa = pa.getLsbD n ∧ (t.ov n).ca = 0 ∧
        (t.ov n).la = s.pwr.dormant ∧ (t.ov n).ta = (if s.pwr.dormant then 0 else s.timebase.toNat)) ∧
      (pa.getLsbD n ≠ (s.ov n).fa → (s.ov n).ca + 1 ≤ lim → (t.ov n).fa = (s.ov n).fa ∧ (t.ov n).ca = (s.ov n).ca + 1) ∧
      (pb.getLsbD n = (s.ov n).fb → (t.ov n).fb = (s.ov n).fb ∧ (t.ov n).cb = 0) ∧
      (pb.getLsbD n ≠ (s.ov n).fb → lim < (s.ov n).cb + 1 → (t.ov n).fb = pb.getLsbD n ∧ (t.ov n).cb = 0 ∧
        (t.ov n).lb = s.pwr.dormant ∧ (t.ov n).tb = (if s.pwr.dormant then 0 else s.timebase.toNat)) ∧
      (pb.getLsbD n ≠ (s.ov n).fb → (s.ov n).cb + 1 ≤ lim → (t.ov n).fb = (s.ov n).fb ∧ (t.ov n).cb = (s.ov n).cb + 1) ∧
      t.bitAt (Reg.SUP_OV_STAT n) 21 = t.ovA n ∧ t.bitAt (Reg.SUP_OV_STAT n) 20 = t.ovB n ∧ t.ovState n = s.ovState n) ∧
    (∀ a, (∀ n, n < 8 → a ≠ Reg.SUP_OV_STAT n) → t.reg a = s.reg a) ∧ t.mem = s.mem ∧ t.eff = s.eff ∧ t.procs = s.procs) ∧
  (∀ s : State, s.dom 16 = true → s.pwr.dormant = false → ∃ t, exec .discrepancyEval s = .next t ∧
    ∀ n, n < 8 → s.bitAt (Reg.SUP_OV_CFG n) 23 = true →
      (s.ovState n = 3 → t.ovState n = 3) ∧
      (s.ovState n ≠ 3 → s.ovA n = s.ovB n → t.ovState n = b2n (s.ovA n)) ∧
      (s.ovState n ≤ 1 → s.ovA n ≠ s.ovB n → t.ovState n = 2 ∧ (t.ov n).since = 0) ∧
      (s.ovState n = 2 → s.ovA n ≠ s.ovB n →
        ∀ back, back = ((if (s.ov n).firstB then s.ovB n else s.ovA n) == ((s.ov n).left == 1)) →
        (back = true → t.ovState n = 2 ∧ (t.ov n).since = 0 ∧ (t.ov n).firstB = !(s.ov n).firstB) ∧
        (back = false → (s.ov n).since + 1 < s.fld (Reg.SUP_OV_CFG n) Fd.SUP_OV_CFG_DISC →
          t.ovState n = 2 ∧ (t.ov n).since = (s.ov n).since + 1) ∧
        (back = false → s.fld (Reg.SUP_OV_CFG n) Fd.SUP_OV_CFG_DISC ≤ (s.ov n).since + 1 →
          t.ovState n = 3 ∧ t.bitAt Reg.SUP_EVT 8 = true))) ∧
  (∀ (req : Req) (n : Fin 8) (s : State), s.Opens req.val (Reg.SUP_OV_CTRL n.val) →
    (s.ovA n.val = s.ovB n.val → s.ovState n.val = 3 → ∃ t, exec (.overrideClr req n) s = .next t ∧
      t.ovState n.val = b2n (s.ovA n.val) ∧ t.bitAt Reg.SUP_EVT n.val = true) ∧
    (s.ovA n.val = s.ovB n.val → s.ovState n.val ≠ 3 → ∃ t, exec (.overrideClr req n) s = .next t ∧ s.OnlyRegs (fun _ => False) t) ∧
    (s.ovA n.val ≠ s.ovB n.val → ∃ t, exec (.overrideClr req n) s = .next t ∧
      t.fld Reg.SUP_LASTERR Fd.SUP_LASTERR_CAUSE = 2 ∧
      s.OnlyRegs (fun a => a = Reg.SUP_ERRCNT ∨ a = Reg.SUP_LASTERR ∨ a = Reg.SUP_EVT) t) ∧
    (∃ t, exec (.overrideCap req n) s = .next t ∧ t.reg (Reg.SUP_OV_TS2 n.val) = wd ((s.ov n.val).date / 2 ^ 48) ∧
      t.reg (Reg.SUP_OV_TS1 n.val) = wd ((s.ov n.val).date / 2 ^ 24) ∧ t.reg (Reg.SUP_OV_TS0 n.val) = wd (s.ov n.val).date ∧
      s.OnlyRegs (fun a => a = Reg.SUP_OV_TS2 n.val ∨ a = Reg.SUP_OV_TS1 n.val ∨ a = Reg.SUP_OV_TS0 n.val) t))

/-- A night round starts, measures, is aborted and writes its log page -/
def Obligations.NightRoundStepsResultsAndLog : Prop :=
  (∀ (by' : Option Tine) (req : Req) (s : State), (by' = none → s.Opens req.val Reg.SUP_NRCTRL) →
    (∀ k, by' = some k → s.bitAt Reg.SUP_NRCTRL 7 = true ∧ s.fld Reg.SUP_NRCTRL Fd.SUP_NRCTRL_STINE = k.toNat ∧ s.dom 16 = true) →
    (s.nrState = 0 → ∃ t, exec (.nightRoundStart by' req) s = .next t ∧
      t.fld Reg.SUP_NRNUM Fd.SUP_NRNUM_NUM = (s.fld Reg.SUP_NRNUM Fd.SUP_NRNUM_NUM + 1) % 65536 ∧
      (∀ c, c < 32 → s.nrMayRun = true → s.bitAt (if c < 24 then Reg.SUP_NRMASK0 else Reg.SUP_NRMASK1) (c % 24) = true →
        (∀ d, d < c → s.bitAt (if d < 24 then Reg.SUP_NRMASK0 else Reg.SUP_NRMASK1) (d % 24) = false) →
        t.nrState = 1 ∧ t.fld Reg.SUP_NRSTAT Fd.SUP_NRSTAT_CH = c ∧ t.sup.nr.phase = 0) ∧
      (s.nrMayRun = false → t.fld Reg.SUP_NRSTAT Fd.SUP_NRSTAT_OUTCOME = 3 ∧ t.bitAt Reg.SUP_EVT 10 = true)) ∧
    (s.nrState ≠ 0 → ∃ t, exec (.nightRoundStart by' req) s = .next t ∧ t.fld Reg.SUP_LASTERR Fd.SUP_LASTERR_CAUSE = 3 ∧
      s.OnlyRegs (fun a => a = Reg.SUP_ERRCNT ∨ a = Reg.SUP_LASTERR ∨ a = Reg.SUP_EVT) t)) ∧
  (∀ (k : Tine) (req : Req) (s : State), s.bitAt Reg.SUP_NRCTRL 7 = false ∨ s.fld Reg.SUP_NRCTRL Fd.SUP_NRCTRL_STINE ≠ k.toNat →
    exec (.nightRoundStart (some k) req) s = .next s) ∧
  (∀ (req : Req) (s : State), s.Opens req.val Reg.SUP_NRCTRL →
    (s.nrState ≠ 1 → s.nrState ≠ 2 → ∃ t, exec (.nightRoundAbort req) s = .next t ∧ s.OnlyRegs (fun _ => False) t) ∧
    (s.nrState = 1 ∨ s.nrState = 2 → ∃ t, exec (.nightRoundAbort req) s = .next t ∧
      t.fld Reg.SUP_NRSTAT Fd.SUP_NRSTAT_OUTCOME = 3 ∧ t.bitAt Reg.SUP_EVT 10 = true ∧
      t.nrState = (if bit (s.sup.nr.set.getD 5 0) 23 then 3 else 0))) ∧
  (∀ (c : Nat) (cs : List Nat) (s : State), s.nrState = 1 → s.nrHas (s.nrEnds.getD s.sup.nr.phase 0) = true →
    s.sup.nr.imp = c :: cs → c < 32 → ∃ t, exec .impedancePhaseEnd s = .next t ∧
      (s.sup.nr.phase < 2 → t.sup.nr.phase = s.sup.nr.phase + 1 ∧ t.regs = s.regs ∧ t.mem = s.mem ∧ t.eff = s.eff ∧ t.procs = s.procs) ∧
      (∀ vr vi ir ii n z ph u st, s.sup.nr.phase = 2 → s.sup.nr.acc = (vr, vi, ir, ii) →
        n = s.nrEnds.getD 2 0 - s.nrEnds.getD 1 0 → s.zValues (s.sup.nr.cfg.getD 1 0).toNat n = ((z, ph), u) →
        st = zStatus (s.bitAt Reg.AUD_CTRL 1) (belowDb (sumPower vr vi) n 7) (belowDb (sumPower ir ii) n 7) s.sup.nr.cfg z ph →
        t.sup.nr.phase = 3 ∧ t.fld (Reg.SUP_CH_RES c) Fd.SUP_CH_RES_ZST = st ∧
        (s.bitAt Reg.AUD_CTRL 1 = true → t.reg (Reg.SUP_CH_ZMAG c) = wd (if st = 5 then 0xFFFFFF else z))) ∧
      (∀ d ds, s.sup.nr.phase = 3 → cs = d :: ds → t.sup.nr.imp = cs ∧ t.sup.nr.phase = 0 ∧ t.nrState = 1 ∧
        t.fld Reg.SUP_NRSTAT Fd.SUP_NRSTAT_CH = d % 32)) ∧
  (∀ (c : Nat) (cs : List Nat) (s : State), s.nrState = 2 → s.nrHas (s.nrEnds.getD s.sup.nr.phase 0) = true →
    s.sup.nr.ac = c :: cs → c < 32 → ∃ t, exec .acousticPhaseEnd s = .next t ∧
      (s.sup.nr.phase = 0 → t.sup.nr.phase = 1 ∧ t.sup.nr.bg = (s.acLevel false).1 ∧ t.regs = s.regs ∧ t.mem = s.mem ∧ t.eff = s.eff ∧ t.procs = s.procs) ∧
      (s.sup.nr.phase = 1 → t.sup.nr.phase = 2 ∧ t.regs = s.regs ∧ t.mem = s.mem ∧ t.eff = s.eff ∧ t.procs = s.procs) ∧
      (s.sup.nr.phase = 2 → t.sup.nr.phase = 3 ∧ t.fld (Reg.SUP_CH_RES c) Fd.SUP_CH_RES_ACST =
        acStatus (s.sup.nr.set.getD 3 0) (s.sup.nr.cfg.getD 5 0) (s.acLevel true).1 s.sup.nr.bg) ∧
      (∀ d ds, s.sup.nr.phase = 3 → s.sup.nr.imp = [] → cs = d :: ds → s.bitAt (Reg.SUP_CH_ACCFG d) 23 = true →
        t.sup.nr.ac = cs ∧ t.sup.nr.phase = 0 ∧ t.nrState = 2 ∧ t.fld Reg.SUP_NRSTAT Fd.SUP_NRSTAT_CH = d % 32)) ∧
  (∀ (j : GrnJob) (js : List GrnJob) (s : State), s.grn = j :: js → j.sup = true →
    (∃ t, exec (.logWriteDone true) s = .next t ∧ t.nrState = 0 ∧ t.grn = js ∧
      (∀ i, i < j.words.length → t.granAt (256 * j.page + i) = j.words.getD i 0) ∧
      (∀ a, a < 256 * j.page ∨ 256 * j.page + j.words.length ≤ a → t.granAt a = s.granAt a) ∧ t.mem = s.mem ∧ t.eff = s.eff ∧ t.procs = s.procs) ∧
    (∃ t, exec (.logWriteDone false) s = .next t ∧ t.nrState = 0 ∧ t.grn = js ∧ t.gran = s.gran ∧
      t.bitAt Reg.SUP_EVT 12 = true ∧ t.fld Reg.SUP_LASTERR Fd.SUP_LASTERR_CAUSE = 9 ∧
      t.fld Reg.GRN_ERRCNT Fd.GRN_ERRCNT_CAUSE = 4))

/-- A frame of the acoustic watcher, ENROL, and the hand-over of the microphone clock -/
def Obligations.WatcherFramesEnrolmentAndClock : Prop :=
  (∀ (mics : List (List (BitVec 16))) (s : State),
    (∀ xs bins, xs = ((mics.getD (s.effFld Reg.ACW_CTRL Fd.ACW_CTRL_MIC) []) ++ List.replicate 320 0).take 320 → bins = dftBins xs →
      bit (s.inEff Reg.ACW_CTRL) 23 = true → ∃ t, exec (.watcherFrame mics) s = .next t ∧
      t.acw.ring = (s.acw.ring ++ xs).drop ((s.acw.ring ++ xs).length - 32000) ∧
      t.reg Reg.ACW_FCNT = s.reg Reg.ACW_FCNT + 1 ∧ t.inEff Reg.ACW_FCNT = s.reg Reg.ACW_FCNT + 1 ∧
      t.acw.frames.map (·.voiced) = (acwVoiced ((bandEnergies bins).foldl (· + ·) 0)
        (s.effFld Reg.ACW_CTRL Fd.ACW_CTRL_GATE) :: s.acw.frames.map (·.voiced)).take 128) ∧
    (bit (s.inEff Reg.ACW_CTRL) 23 = false → exec (.watcherFrame mics) s = .next s)) ∧
  (∀ (req : Req) (n : Fin 4) (s : State), s.Opens req.val (Reg.ACW_SIG_CTRL n.val) →
    ∃ t, exec (.enrol req n) s = .next t ∧ t.bitAt Reg.ACW_STAT 23 = true ∧ t.acw.want.getLsbD n.val = true ∧
      t.acw.mirror.getLast? = some (0x11 + 2 * n.val) ∧ t.acw.arm = s.acw.arm ∧ t.acw.frames = s.acw.frames ∧
      (∀ k : Fin 4, k ≠ n → t.acw.want.getLsbD k.val = s.acw.want.getLsbD k.val) ∧
      (∀ a, a ≠ Reg.ACW_STAT → t.reg a = s.reg a) ∧ t.mem = s.mem ∧ t.eff = s.eff ∧ t.procs = s.procs) ∧
  (∀ s : State, ∃ t, exec .watcherClockHandover s = .next t ∧
    t.bitAt Reg.ACW_STAT 22 = (s.dom 15 && s.bitAt Reg.AUD_PDMCFG (s.effFld Reg.ACW_CTRL Fd.ACW_CTRL_MIC)) ∧
    s.OnlyRegs (fun a => a = Reg.ACW_STAT) t)

/-- NOP, ADD, ADC, SUB, SBC, AND, OR, XOR, MIN, MAX, ADDS, SUBS, NEG, ABS and CLZ: result, flags and frame -/
def Obligations.KyobelArithmeticLogicAndTheirFlags : Prop :=
  ∀ (p : Proc) (d a b : RegNo) (s : State) (x y : Word), s.Ready p.val 1 → s.getW p.val a = x → s.getW p.val b = y →
    (∃ t, exec (.nop p) s = .next t ∧ s.Ran p.val ((s.proc p.val).pc + 1) id t) ∧
    (∃ t, exec (.add p d a b) s = .next t ∧ s.Wrote p.val d (x + y) { n := some (bit (x + y) 23), z := some (x + y == 0), c := some (decide (2 ^ 24 ≤ x.toNat + y.toNat)), v := some (decide ((x + y).toInt ≠ x.toInt + y.toInt)) } t) ∧
    (∀ c r, c = b2n (bit (s.proc p.val).status 21) → r = x + y + wd c →
      (∃ t, exec (.adc p d a b) s = .next t ∧ s.Wrote p.val d (r) { n := some (bit (r) 23), z := some (r == 0), c := some (decide (2 ^ 24 ≤ x.toNat + y.toNat + c)), v := some (decide (r.toInt ≠ x.toInt + y.toInt + c)) } t)) ∧
    (∃ t, exec (.sub p d a b) s = .next t ∧ s.Wrote p.val d (x - y) { n := some (bit (x - y) 23), z := some (x - y == 0), c := some (decide (y.toNat ≤ x.toNat)), v := some (decide ((x - y).toInt ≠ x.toInt - y.toInt)) } t) ∧
    (∀ c r, c + b2n (bit (s.proc p.val).status 21) = 1 → r = x - y - wd c →
      (∃ t, exec (.sbc p d a b) s = .next t ∧ s.Wrote p.val d (r) { n := some (bit (r) 23), z := some (r == 0), c := some (decide (y.toNat + c ≤ x.toNat)), v := some (decide (r.toInt ≠ x.toInt - y.toInt - c)) } t)) ∧
    (∃ t, exec (.and p d a b) s = .next t ∧ s.Wrote p.val d (x &&& y) { n := some (bit ((x &&& y)) 23), z := some ((x &&& y) == 0) } t) ∧
    (∃ t, exec (.or p d a b) s = .next t ∧ s.Wrote p.val d (x ||| y) { n := some (bit ((x ||| y)) 23), z := some ((x ||| y) == 0) } t) ∧
    (∃ t, exec (.xor p d a b) s = .next t ∧ s.Wrote p.val d (x ^^^ y) { n := some (bit ((x ^^^ y)) 23), z := some ((x ^^^ y) == 0) } t) ∧
    (∀ r, r = (if x.toInt ≤ y.toInt then x else y) → (∃ t, exec (.min p d a b) s = .next t ∧ s.Wrote p.val d (r) { n := some (bit (r) 23), z := some (r == 0) } t)) ∧
    (∀ r, r = (if x.toInt ≤ y.toInt then y else x) → (∃ t, exec (.max p d a b) s = .next t ∧ s.Wrote p.val d (r) { n := some (bit (r) 23), z := some (r == 0) } t)) ∧
    (∀ r : Word, r.toInt = max (-8388608) (min 8388607 (x.toInt + y.toInt)) →
      (∃ t, exec (.adds p d a b) s = .next t ∧ s.Wrote p.val d (r) { n := some (bit (r) 23), z := some (r == 0), c := some (decide (2 ^ 24 ≤ x.toNat + y.toNat)), v := some (decide ((x + y).toInt ≠ x.toInt + y.toInt)) } t)) ∧
    (∀ r : Word, r.toInt = max (-8388608) (min 8388607 (x.toInt - y.toInt)) →
      (∃ t, exec (.subs p d a b) s = .next t ∧ s.Wrote p.val d (r) { n := some (bit (r) 23), z := some (r == 0), c := some (decide (y.toNat ≤ x.toNat)), v := some (decide ((x - y).toInt ≠ x.toInt - y.toInt)) } t)) ∧
    (∃ t, exec (.neg p d a) s = .next t ∧ s.Wrote p.val d (0 - x) { n := some (bit (0 - x) 23), z := some (0 - x == 0), c := some (decide (x = 0)), v := some (decide (x = 0x800000)) } t) ∧
    (∀ r, r = (if x = 0x800000 then 0x7FFFFF else if bit x 23 then 0 - x else x) →
      (∃ t, exec (.abs p d a) s = .next t ∧ s.Wrote p.val d (r) { n := some (bit (r) 23), z := some (r == 0), v := some (decide (x = 0x800000)) } t)) ∧
    (∀ k, k ≤ 24 → (∀ i, i < k → bit x (23 - i) = false) → k = 24 ∨ bit x (23 - k) = true →
      (∃ t, exec (.clz p d a) s = .next t ∧ s.Wrote p.val d (wd k) { z := some (k == 0) } t))

/-- Shifts, ROR, the immediate forms, CMP, CMPI, TST, LDK, LDH and LDI: result, flags and frame -/
def Obligations.KyobelShiftsImmediatesComparesAndConstants : Prop :=
  ∀ (p : Proc) (d a b : RegNo) (s : State) (x y : Word), s.Ready p.val 1 → s.getW p.val a = x → s.getW p.val b = y →
    (∀ n, y.toNat % 64 = n → (∃ t, exec (.shl p d a b) s = .next t ∧ s.Wrote p.val d (x <<< n) { n := some (bit ((x <<< n)) 23), z := some ((x <<< n) == 0), c := (if n = 0 then none else some (decide (n ≤ 24) && bit x (24 - n))), v := some false } t)) ∧
    (∀ (m : BitVec 5) (n : Nat), m.toNat = n → (∃ t, exec (.shli p d a m) s = .next t ∧ s.Wrote p.val d (x <<< n) { n := some (bit ((x <<< n)) 23), z := some ((x <<< n) == 0), c := (if n = 0 then none else some (decide (n ≤ 24) && bit x (24 - n))), v := some false } t)) ∧
    (∀ n, y.toNat % 64 = n → (∃ t, exec (.shr p d a b) s = .next t ∧ s.Wrote p.val d (x >>> n) { n := some (bit ((x >>> n)) 23), z := some ((x >>> n) == 0), c := (if n = 0 then none else some (bit x (n - 1))), v := some false } t)) ∧
    (∀ (m : BitVec 5) (n : Nat), m.toNat = n → (∃ t, exec (.shri p d a m) s = .next t ∧ s.Wrote p.val d (x >>> n) { n := some (bit ((x >>> n)) 23), z := some ((x >>> n) == 0), c := (if n = 0 then none else some (bit x (n - 1))), v := some false } t)) ∧
    (∀ n, y.toNat % 64 = n → (∃ t, exec (.sar p d a b) s = .next t ∧ s.Wrote p.val d (x.sshiftRight n) { n := some (bit ((x.sshiftRight n)) 23), z := some ((x.sshiftRight n) == 0), c := (if n = 0 then none else some (bit x (min (n - 1) 23))), v := some false } t)) ∧
    (∀ (m : BitVec 5) (n : Nat), m.toNat = n → (∃ t, exec (.sari p d a m) s = .next t ∧ s.Wrote p.val d (x.sshiftRight n) { n := some (bit ((x.sshiftRight n)) 23), z := some ((x.sshiftRight n) == 0), c := (if n = 0 then none else some (bit x (min (n - 1) 23))), v := some false } t)) ∧
    (∀ n, y.toNat % 64 % 24 = n → (∃ t, exec (.ror p d a b) s = .next t ∧ s.Wrote p.val d (x.rotateRight n) { n := some (bit ((x.rotateRight n)) 23), z := some ((x.rotateRight n) == 0), c := (if n = 0 then none else some (bit (x.rotateRight n) 23)), v := some false } t)) ∧
    (∀ (imm : BitVec 8) (k : Word), k = imm.signExtend 24 →
      (∃ t, exec (.addi p d a imm) s = .next t ∧ s.Wrote p.val d (x + k) { n := some (bit (x + k) 23), z := some (x + k == 0), c := some (decide (2 ^ 24 ≤ x.toNat + k.toNat)), v := some (decide ((x + k).toInt ≠ x.toInt + k.toInt)) } t) ∧
      (∃ t, exec (.cmpi p a imm) s = .next t ∧ s.Ran p.val ((s.proc p.val).pc + 1) (fun z =>
        { z with status := withFlags z.status { n := some (bit (x - k) 23), z := some (x - k == 0), c := some (decide (k.toNat ≤ x.toNat)), v := some (decide ((x - k).toInt ≠ x.toInt - k.toInt)) } }) t)) ∧
    (∀ (imm : BitVec 8) (r : Word), r = x &&& imm.zeroExtend 24 → (∃ t, exec (.andi p d a imm) s = .next t ∧ s.Wrote p.val d (r) { n := some (bit (r) 23), z := some (r == 0) } t)) ∧
    (∀ (imm : BitVec 8) (r : Word), r = x ||| imm.zeroExtend 24 → (∃ t, exec (.ori p d a imm) s = .next t ∧ s.Wrote p.val d (r) { n := some (bit (r) 23), z := some (r == 0) } t)) ∧
    (∀ (imm : BitVec 8) (r : Word), r = x ^^^ imm.zeroExtend 24 → (∃ t, exec (.xori p d a imm) s = .next t ∧ s.Wrote p.val d (r) { n := some (bit (r) 23), z := some (r == 0) } t)) ∧
    (∃ t, exec (.cmp p a b) s = .next t ∧ s.Ran p.val ((s.proc p.val).pc + 1) (fun z =>
      { z with status := withFlags z.status { n := some (bit (x - y) 23), z := some (x - y == 0), c := some (decide (y.toNat ≤ x.toNat)), v := some (decide ((x - y).toInt ≠ x.toInt - y.toInt)) } }) t) ∧
    (∃ t, exec (.tst p a b) s = .next t ∧ s.Ran p.val ((s.proc p.val).pc + 1) (fun z =>
      { z with status := withFlags z.status { n := some (bit ((x &&& y)) 23), z := some ((x &&& y) == 0) } }) t) ∧
    (∀ imm : BitVec 12, (∃ t, exec (.ldk p d imm) s = .next t ∧ s.Wrote p.val d (imm.signExtend 24) {} t) ∧
      (s.getW p.val d = y → (∃ t, exec (.ldh p d imm) s = .next t ∧ s.Wrote p.val d (imm.zeroExtend 24 <<< 12 ||| (y &&& 0xFFF)) {} t))) ∧
    (∀ w : Word, s.Ready p.val 2 → ∃ t, exec (.ldi p d w) s = .next t ∧
      s.Ran p.val ((s.proc p.val).pc + 2) (fun z => z.setW d.toNat w) t)

/-- MUL, MULU, MULF, MAC, MACF, MSU, MTA, MFH, MFL, MFR, DIV, DIVU and the retirement of a long operation -/
def Obligations.KyobelMultiplyUnitAndDivision : Prop :=
  (∀ (p : Proc) (d a b : RegNo) (s : State) (x y : Word), s.Ready p.val 1 → s.getW p.val a = x → s.getW p.val b = y →
    (∃ t, exec (.mul p a b) s = .next t ∧ s.Ran p.val ((s.proc p.val).pc + 1) (fun z => { z with acc := BitVec.ofInt 48 (x.toInt * y.toInt) }) t) ∧
    (∃ t, exec (.mulu p a b) s = .next t ∧ s.Ran p.val ((s.proc p.val).pc + 1) (fun z => { z with acc := BitVec.ofNat 48 (x.toNat * y.toNat) }) t) ∧
    (∃ t, exec (.mulf p a b) s = .next t ∧
      s.Ran p.val ((s.proc p.val).pc + 1) (fun z => { z with acc := BitVec.ofInt 48 (2 * (x.toInt * y.toInt)) }) t) ∧
    (∃ t, exec (.mta p a b) s = .next t ∧ s.Ran p.val ((s.proc p.val).pc + 1) (fun z => { z with acc := x ++ y }) t) ∧
    (∀ i c, (c = if (i < -2 ^ 47 ∨ 2 ^ 47 ≤ i) ∧ bit (s.proc p.val).status 4 = true then some 7 else none) →
      (i = (s.proc p.val).acc.toInt + x.toInt * y.toInt → ∃ t, exec (.mac p a b) s = .next t ∧
        s.Ran p.val ((s.proc p.val).pc + 1) (fun z => { z with acc := BitVec.ofInt 48 i, longs := [⟨none, c⟩] }) t) ∧
      (i = (s.proc p.val).acc.toInt + (BitVec.ofInt 48 (2 * (x.toInt * y.toInt))).toInt → ∃ t, exec (.macf p a b) s = .next t ∧
        s.Ran p.val ((s.proc p.val).pc + 1) (fun z => { z with acc := BitVec.ofInt 48 i, longs := [⟨none, c⟩] }) t) ∧
      (i = (s.proc p.val).acc.toInt - x.toInt * y.toInt → ∃ t, exec (.msu p a b) s = .next t ∧
        s.Ran p.val ((s.proc p.val).pc + 1) (fun z => { z with acc := BitVec.ofInt 48 i, longs := [⟨none, c⟩] }) t)) ∧
    (∀ h3 : BitVec 48, h3 = (s.proc p.val).accHist.getD 2 (s.proc p.val).acc →
      (∃ t, exec (.mfh p d) s = .next t ∧ s.Wrote p.val d (h3.extractLsb' 24 24) {} t) ∧
      (∃ t, exec (.mfl p d) s = .next t ∧ s.Wrote p.val d (h3.extractLsb' 0 24) {} t) ∧
      (h3.toInt + 2 ^ 23 < 2 ^ 47 → ∃ t, exec (.mfr p d) s = .next t ∧
        s.Wrote p.val d (BitVec.ofInt 24 ((h3.toInt + 2 ^ 23) / 2 ^ 24)) { v := some false } t) ∧
      (2 ^ 47 ≤ h3.toInt + 2 ^ 23 → ∃ t, exec (.mfr p d) s = .next t ∧ s.Wrote p.val d 0x7FFFFF { v := some true } t)) ∧
    (∀ (q : Word) (c : Option Nat) (f : ProcSt → ProcSt),
      f = (fun z => if p.val = 16 then { (z.setW d.toNat q) with imprecise := c.toList.map (fun k => (k, 0)) }
        else { z with longs := [⟨some (d, q), c⟩] }) →
      ((y = 0 ∧ c = some 6 ∧ q = (if x.toInt < 0 then 0x800000 else 0x7FFFFF)) ∨
        (y ≠ 0 ∧ c = none ∧ q.toInt = min 8388607 (Int.tdiv x.toInt y.toInt)) → ∃ t, exec (.div p d a b) s = .next t ∧
          s.Ran p.val ((s.proc p.val).pc + 1) f t) ∧
      ((y = 0 ∧ c = some 6 ∧ q = 0x7FFFFF) ∨ (y ≠ 0 ∧ c = none ∧ q.toNat = x.toNat / y.toNat) →
        ∃ t, exec (.divu p d a b) s = .next t ∧ s.Ran p.val ((s.proc p.val).pc + 1) f t))) ∧
  (∀ (p : Proc) (div : Bool) (s : State), (∀ l ∈ (s.proc p.val).longs, l.dest.isSome ≠ div) →
    exec (.longOpRetire p div) s = .next s) ∧
  (∀ (p : Proc) (div : Bool) (l : LongOp) (as bs : List LongOp) (s : State), (s.proc p.val).longs = as ++ l :: bs →
    (∀ x ∈ as, x.dest.isSome ≠ div) → l.dest.isSome = div →
    ∃ t, exec (.longOpRetire p div) s = .next t ∧ s.OnlyProc p.val t ∧
      t.proc p.val = { s.proc p.val with
        longs := as ++ bs, imprecise := (s.proc p.val).imprecise ++ l.cause.toList.map (fun c => (c, 0))
        w := (match l.dest with
          | some (d, v) => (s.proc p.val).setW d.toNat v
          | none => s.proc p.val).w })

/-- LD, LDX, LDP, POP, ST, STX, STP and PUSH, and the answers that loads and buffered stores meet -/
def Obligations.KyobelLoadsStoresAndTheBuffer : Prop :=
  (∀ (p : Proc) (d a b : RegNo) (imm : BitVec 8) (s : State), s.Ready p.val 1 →
    s.LoadsTo p.val (.ld p d a imm) (s.getW p.val a + imm.signExtend 24) d none ∧
    s.LoadsTo p.val (.ldx p d a b) (s.getW p.val a + s.getW p.val b) d none ∧
    s.LoadsTo p.val (.ldp p d a imm) (s.getW p.val a) d (some (a, s.getW p.val a + imm.signExtend 24)) ∧
    s.LoadsTo p.val (.pop p d) (s.getW p.val 15) d (some (15, s.getW p.val 15 + 1)) ∧
    s.StoresTo p.val (.st p d a imm) (s.getW p.val a + imm.signExtend 24) (s.getW p.val d) none ∧
    s.StoresTo p.val (.stx p d a b) (s.getW p.val a + s.getW p.val b) (s.getW p.val d) none ∧
    s.StoresTo p.val (.stp p d a imm) (s.getW p.val a) (s.getW p.val d)
      (if d = a then none else some (a, s.getW p.val a + imm.signExtend 24)) ∧
    s.StoresTo p.val (.push p d) (s.getW p.val 15 - 1) (s.getW p.val d) (some (15, s.getW p.val 15 - 1))) ∧
  (∀ (p : Proc) (v : Word) (a : Nat) (d : RegNo) (upd : Option (RegNo × Word)) (word : Word) (dev : Bool) (s : State),
    s.Plain p.val → (s.proc p.val).wait = some (.load v a d upd word dev) → p.val = 16 ∨ s.locked a = false →
    (dev = false → s.gateIn p.val a false = none → (s.cached p.val (lineNo a)).isSome = false → s.LineFree a →
      ∃ t, exec (.loadResponse p .ok) s = .next t ∧ (t.proc p.val).pc = (s.proc p.val).pc + 1 ∧
        (t.proc p.val).w = ((s.loaded p.val d upd (s.cohWord a)).proc p.val).w ∧ (t.proc p.val).wait = none) ∧
    (∀ u x, dev = true → (s.setWait p.val none).procRead p.val a true = (u, x, true) →
      ∃ t, exec (.loadResponse p .ok) s = .next t ∧ t.mem = u.mem ∧
        (t.proc p.val).w = ((u.loaded p.val d upd x).proc p.val).w) ∧
    (∀ r, r ≠ BusResp.ok → ∃ t, exec (.loadResponse p r) s = .next t ∧ (t.proc p.val).wait = none ∧
      (t.proc p.val).ecause = wd (if r = .poisoned then 11 else 3) ∧ (t.proc p.val).eaddr = v ∧
      (t.proc p.val).epc = (s.proc p.val).pc ∧ (t.proc p.val).w = (s.proc p.val).w ∧ t.mem = s.mem)) ∧
  (∀ (p : Proc) (e : StoreEnt) (es : List StoreEnt) (s : State),
    ((s.proc p.val).stores = e :: es → (s.proc p.val).drains.isEmpty = false ∨ s.ownsLine p.val (lineNo e.paddr) = false →
      (s.refuses (s.plotOf p.val) = false → (s.drawTag p.val (procClass p.val)).isSome = true →
        ∃ t, exec (.storeBufferDrain p) s = .next t ∧ s.OnlyProcAnd p.val tagReg t ∧
          t.proc p.val = { s.proc p.val with stores := es, drains := (s.proc p.val).drains ++ [e] }) ∧
      (s.refuses (s.plotOf p.val) = false → (s.drawTag p.val (procClass p.val)).isSome = false →
        exec (.storeBufferDrain p) s = .next s) ∧
      (s.refuses (s.plotOf p.val) = true → ∃ t, exec (.storeBufferDrain p) s = .next t ∧ s.OnlyProc p.val t ∧
        t.proc p.val = { s.proc p.val with stores := es, imprecise := (s.proc p.val).imprecise ++ [(3, e.vaddr)] })) ∧
    ((s.proc p.val).stores = e :: es → (s.proc p.val).drains = [] → s.ownsLine p.val (lineNo e.paddr) = true →
      s.gateIn p.val e.paddr true = none → s.det p.val = false → ∀ l, s.cached p.val (lineNo e.paddr) = some l →
      ∃ t, exec (.storeBufferDrain p) s = .next t ∧ (t.proc p.val).stores = es ∧ (t.proc p.val).drains = [] ∧ t.mem = s.mem ∧
        t.regs = s.regs ∧
        t.cached p.val (lineNo e.paddr) = some ⟨lineNo e.paddr, .modified, l.words.set (e.paddr % 12) e.value⟩) ∧
    ((s.proc p.val).drains = e :: es → (s.proc p.val).wait = none → s.locked e.paddr = false →
      (∃ t, exec (.storeResponse p .error) s = .next t ∧ s.OnlyProcAnd p.val tagReg t ∧ t.proc p.val =
        { s.proc p.val with drains := es, imprecise := (s.proc p.val).imprecise ++ [(3, e.vaddr)] }) ∧
      (s.gateIn p.val e.paddr true = none →
        (∃ t, exec (.storeResponse p .poisoned) s = .next t ∧ (t.proc p.val).drains = es ∧
          (t.proc p.val).imprecise = (s.proc p.val).imprecise ++ [(11, e.vaddr)]) ∧
        (∃ t, exec (.storeResponse p .ok) s = .next t ∧ (t.proc p.val).drains = es ∧
          (t.proc p.val).imprecise = (s.proc p.val).imprecise ∧ (s.det p.val = true → t.memAt e.paddr = e.value) ∧
          (s.det p.val = false → ∃ l, t.cached p.val (lineNo e.paddr) = some l ∧ l.st = .modified ∧
            (l.words.length = 12 → l.words.getD (e.paddr % 12) 0 = e.value)))))) ∧
  (∀ (p : Proc) (v : Word) (a : Nat) (w word : Word) (s : State), s.Plain p.val →
    (s.proc p.val).wait = some (.store v a w none word) → p.val = 16 ∨ s.locked a = false →
    (((s.setWait p.val none).procWrite p.val v a true w).2 = true →
      ∃ t, exec (.storeResponse p .ok) s = .next t ∧ t.mem = ((s.setWait p.val none).procWrite p.val v a true w).1.mem) ∧
    (∃ t, exec (.storeResponse p .error) s = .next t ∧ (t.proc p.val).wait = none ∧ (t.proc p.val).ecause = 3 ∧
      (t.proc p.val).eaddr = v ∧ (t.proc p.val).epc = (s.proc p.val).pc ∧ t.mem = s.mem))

/-- JMP, JR, Bcc, LOOP, LOOPR, TRAP, RTE, WAIT, BRK, BARRIER, a slot, the end of a loop and of an RTE shadow, a reserved instruction -/
def Obligations.KyobelBranchesLoopsTrapsAndReturns : Prop :=
  ∀ (p : Proc) (s : State), s.Ready p.val 1 →
    (∀ off : BitVec 16, (∃ t, exec (.jmp p off) s = .next t ∧ s.Ran p.val ((s.proc p.val).pc + 1) (fun z => { z with slot := some (z.pc, some (z.pc + off.signExtend 24)) }) t)) ∧
    (∀ a : RegNo, (∃ t, exec (.jr p a) s = .next t ∧ s.Ran p.val ((s.proc p.val).pc + 1) (fun z => { z with slot := some (z.pc, some (s.getW p.val a)) }) t)) ∧
    (∀ (c : Fin 14) (off : BitVec 16), (∃ t, exec (.bcc p c off) s = .next t ∧ s.Ran p.val ((s.proc p.val).pc + 1) (fun z => { z with slot := some (z.pc,
      if condHolds z.status c.val then some (z.pc + off.signExtend 24) else none) }) t)) ∧
    (∀ (b : Word) (tgt : Option Word) (s1 : State), s1 = s.updProc p.val (fun z => { z with slot := some (b, tgt) }) →
      (∃ t, exec (.nop p) s1 = .next t ∧ (t.proc p.val).pc = tgt.getD ((s.proc p.val).pc + 1) ∧ (t.proc p.val).slot = none) ∧
      (∀ off : BitVec 16, ∃ t, exec (.jmp p off) s1 = .next t ∧ (t.proc p.val).ecause = 0x4001 ∧ (t.proc p.val).epc = b ∧
        (t.proc p.val).estatus = (s.proc p.val).status ||| 0x100)) ∧
    (s.Ready p.val 2 → ∀ ofs : BitVec 16,
      (2 ≤ ofs.toNat → ∀ (n : BitVec 12) (a : RegNo) (f : Word → ProcSt → ProcSt),
        f = (fun c z => { z with lc := c, lsa := z.pc + 2, lea := z.pc + wd ofs.toNat }) →
        (n ≠ 0 → (∃ t, exec (.loop p n ofs) s = .next t ∧ s.Ran p.val ((s.proc p.val).pc + 2) (f (n.zeroExtend 24)) t)) ∧
        (n = 0 → (∃ t, exec (.loop p n ofs) s = .next t ∧ s.Ran p.val ((s.proc p.val).pc + wd ofs.toNat + 1) (f 0) t)) ∧
        (s.getW p.val a ≠ 0 → (∃ t, exec (.loopr p a ofs) s = .next t ∧ s.Ran p.val ((s.proc p.val).pc + 2) (f (s.getW p.val a)) t)) ∧
        (s.getW p.val a = 0 → (∃ t, exec (.loopr p a ofs) s = .next t ∧ s.Ran p.val ((s.proc p.val).pc + wd ofs.toNat + 1) (f 0) t))) ∧
      (ofs.toNat < 2 → (∀ n, (∃ t, exec (.loop p n ofs) s = .next t ∧ s.Took p.val 1 0x45 none (s.proc p.val).pc t)) ∧ ∀ a, (∃ t, exec (.loopr p a ofs) s = .next t ∧ s.Took p.val 1 0x46 none (s.proc p.val).pc t))) ∧
    (∀ (n lsa : Word) (s1 : State), n ≠ 0 →
      s1 = s.updProc p.val (fun z => { z with lc := n, lsa := lsa, lea := z.pc }) →
      (∃ t, exec (.nop p) s1 = .next t ∧ (t.proc p.val).lc = n - 1 ∧
        (t.proc p.val).pc = (if n = 1 then (s.proc p.val).pc + 1 else lsa)) ∧
      (∀ off : BitVec 16, ∃ t, exec (.jmp p off) s1 = .next t ∧ (t.proc p.val).ecause = 10 ∧ (t.proc p.val).epc = (s.proc p.val).pc)) ∧
    (∀ imm : BitVec 8, (∃ t, exec (.trap p imm) s = .next t ∧ s.Took p.val 8 imm.toNat none ((s.proc p.val).pc + 1) t)) ∧
    ((s.proc p.val).sup = true → (∃ t, exec (.rte p) s = .next t ∧ s.Ran p.val ((s.proc p.val).pc + 1) (fun z => { z with exit := some 3 }) t) ∧
      (∃ t, exec (.wait p) s = .next t ∧ s.Ran p.val ((s.proc p.val).pc + 1) (fun z => { z with waiting := true }) t)) ∧
    ((s.proc p.val).sup = false → (∃ t, exec (.rte p) s = .next t ∧ s.Took p.val 2 0x48 none (s.proc p.val).pc t) ∧ (∃ t, exec (.wait p) s = .next t ∧ s.Took p.val 2 0x4A none (s.proc p.val).pc t)) ∧
    (∀ s1 : State, s1 = s.updProc p.val (fun z => { z with exit := some 1 }) → ∃ t, exec (.nop p) s1 = .next t ∧
      (t.proc p.val).exit = none ∧
      (bit (s.proc p.val).estatus 6 = false ∨ s.irqRequest p.val = false →
        (t.proc p.val).pc = (s.proc p.val).epc ∧ (t.proc p.val).status = statusOf p.val (s.proc p.val).estatus) ∧
      (bit (s.proc p.val).estatus 6 = true → s.irqRequest p.val = true → ∀ l, l = s.presLevel p.val →
        (t.proc p.val).pc = ((s.proc p.val).evec &&& 0xFFFFF0) + wd (0x100 + 8 * l) ∧ (t.proc p.val).ecause = wd (256 * l) ∧
        (t.proc p.val).epc = (s.proc p.val).epc ∧ (t.proc p.val).estatus = (s.proc p.val).estatus)) ∧
    (s.session = false → (∃ t, exec (.brk p) s = .next t ∧ s.Took p.val 9 0 none (s.proc p.val).pc t)) ∧
    (s.session = true → ∃ t, exec (.brk p) s = .next t ∧ t.halted p.val = true ∧ (t.proc p.val).pc = (s.proc p.val).pc ∧
      t.reg (Reg.DBG_PR_PC p.val) = (s.proc p.val).pc ∧ t.reg (Reg.DBG_PR_STAT p.val) = 0x300000) ∧
    (∀ kind : BitVec 4, s.storing p.val = false → (∃ t, exec (.barrier p kind) s = .next t ∧ s.Ran p.val ((s.proc p.val).pc + 1) (id) t)) ∧
    (∀ op : BitVec 8, (∃ t, exec (.reservedInstruction p op) s = .next t ∧ s.Took p.val 1 op.toNat none (s.proc p.val).pc t))

/-- CALL, CALLR, RET, SWP, the four CACHE operations, and the entry of an interrupt -/
def Obligations.KyobelCallsSwapsAndCacheOperations : Prop :=
  (∀ (p : Proc) (s u : State), s.Ready p.val 2 → (∀ x ∈ s.fab.inflight, opLen x.op ≤ 12) →
    (s.updProc p.val (fun z => { z with waiting := false, missed := false })).fetchIns p.val 2 = .ok u →
    ∀ (mask : BitVec 15) (ws as : List Word), ws = frameWords (s.proc p.val) mask ((s.proc p.val).pc + 2) →
      as = (List.range ws.length).map (fun i => s.getW p.val 15 - wd (i + 1)) →
      (∀ v ∈ as, ∃ a, s.translate p.val v needW = .ok (a, false)) →
      (∀ target, ∃ t, exec (.call p mask target) s = .next t ∧ (t.proc p.val).pc = target ∧
        (t.proc p.val).w = ((s.proc p.val).setW 15 (s.getW p.val 15 - wd ws.length)).w ∧
        t.mem = ((u.flushStores p.val).storeAll p.val (as.zip ws)).1.mem) ∧
      (∀ a, ∃ t, exec (.callr p mask a) s = .next t ∧ (t.proc p.val).pc = s.getW p.val a ∧
        (t.proc p.val).w = ((s.proc p.val).setW 15 (s.getW p.val 15 - wd ws.length)).w ∧
        t.mem = ((u.flushStores p.val).storeAll p.val (as.zip ws)).1.mem)) ∧
  (∀ (p : Proc) (s u u1 u2 : State) (sp ra m : Word) (ns : List Nat) (vs : List Word), s.Ready p.val 1 →
    (s.updProc p.val (fun z => { z with waiting := false, missed := false })).fetchIns p.val 1 = .ok u →
    sp = s.getW p.val 15 → u.loadAll p.val [sp, sp + 1] = (u1, [ra, m], none) →
    ns = (List.range 15).filter (fun n => bit m n) →
    u1.loadAll p.val ((List.range ns.length).map (fun i => sp + 2 + wd i)) = (u2, vs, none) →
    ∃ t, exec (.ret p) s = .next t ∧ (t.proc p.val).pc = ra ∧ t.getW p.val 15 = sp + 2 + wd ns.length ∧
      (∀ i, i < ns.length → (t.proc p.val).reg (ns.getD i 0) = vs.getD i 0) ∧
      (∀ n, n < 15 → n ∉ ns → (t.proc p.val).reg n = (s.proc p.val).reg n)) ∧
  (∀ (p : Proc) (d a b : RegNo) (x : Nat) (dev : Bool) (s : State), s.Ready p.val 1 → s.storing p.val = false →
    s.translate p.val (s.getW p.val a) (needR ||| needW) = .ok (x, dev) → regionOf x = .field x →
    s.gate p.val (s.plotOf p.val) x true = none → p.val = 16 ∨ s.locked x = false → s.LineFree x →
    ∃ t, exec (.swp p d a b) s = .next t ∧ (t.proc p.val).pc = (s.proc p.val).pc + 1 ∧
      (t.proc p.val).w = ((s.proc p.val).setW d.toNat (s.cohWord x)).w ∧ t.memAt x = s.getW p.val b) ∧
  (∀ (p : Proc) (a : RegNo) (s : State), s.Ready p.val 1 → p.val = 16 →
    (∃ t, exec (.cacheWriteback p a) s = .next t ∧ s.Ran p.val ((s.proc p.val).pc + 1) (id) t) ∧ (∃ t, exec (.cacheInvalidate p a) s = .next t ∧ s.Ran p.val ((s.proc p.val).pc + 1) (id) t) ∧ (∃ t, exec (.cacheFlush p a) s = .next t ∧ s.Ran p.val ((s.proc p.val).pc + 1) (id) t) ∧ (∃ t, exec (.cacheIinvalidate p a) s = .next t ∧ s.Ran p.val ((s.proc p.val).pc + 1) (id) t)) ∧
  (∀ (p : Proc) (a : RegNo) (x : Nat) (dev : Bool) (s : State), s.Ready p.val 1 → p.val ≠ 16 → s.storing p.val = false →
    s.translate p.val (s.getW p.val a) 0 = .ok (x, dev) →
    (∃ t, exec (.cacheWriteback p a) s = .next t ∧ (t.proc p.val).pc = (s.proc p.val).pc + 1 ∧
      ∀ l, t.cached p.val (lineNo x) = some l → l.st ≠ .modified) ∧
    ((s.proc p.val).sup = true → ∃ t, exec (.cacheInvalidate p a) s = .next t ∧ (t.proc p.val).pc = (s.proc p.val).pc + 1 ∧
      t.cached p.val (lineNo x) = none ∧ t.mem = s.mem) ∧
    ((s.proc p.val).sup = false → (∃ t, exec (.cacheInvalidate p a) s = .next t ∧ s.Took p.val 2 0x29 none (s.proc p.val).pc t)) ∧
    (∃ t, exec (.cacheFlush p a) s = .next t ∧ (t.proc p.val).pc = (s.proc p.val).pc + 1 ∧ t.cached p.val (lineNo x) = none) ∧
    (∃ t, exec (.cacheIinvalidate p a) s = .next t ∧ (t.proc p.val).pc = (s.proc p.val).pc + 1 ∧
      (t.proc p.val).icache.contains (lineNo x) = false ∧ t.mem = s.mem)) ∧
  (∀ (p : Proc) (s : State), s.Plain p.val → s.canRun p.val = true → (s.proc p.val).imprecise = [] → (p.val = 16 → s.inMicro = false) →
    bit (s.proc p.val).status 6 = true → s.irqRequest p.val = true →
    ∃ t l, exec (.interruptEntry p) s = .next t ∧ l = s.presLevel p.val ∧ (t.proc p.val).epc = (s.proc p.val).pc ∧
      (t.proc p.val).estatus = (s.proc p.val).status ∧ (t.proc p.val).ecause = wd (256 * l) ∧
      (t.proc p.val).status = statusOf p.val (((s.proc p.val).status ||| 0x80) &&& ~~~ 0x40) ∧
      (t.proc p.val).pc = ((s.proc p.val).evec &&& 0xFFFFF0) + wd (0x100 + 8 * l) ∧ t.mem = s.mem)

/-- MFS, MTS, SETM, CLRM, PTW and PTR: values, shadows of mode changes, privilege and reserved numbers -/
def Obligations.SpecialRegistersModesAndThePrivatePort : Prop :=
  ∀ (p : Proc) (s : State), s.Ready p.val 1 →
    (∀ (d a : RegNo) (n : BitVec 8),
      (n.toNat ≤ 11 ∨ (p.val = 16 ∧ n.toNat ≤ 13) → (s.proc p.val).sup = true ∨ p.val = 16 ∨ n.toNat ∈ [0, 5, 6, 7, 9] →
        (∃ t v, exec (.mfs p d n) s = .next t ∧ s.special p.val n.toNat = some v ∧ s.Wrote p.val d v {} t) ∧
        (n.toNat ≠ 0 → n.toNat ≠ 9 ∨ p.val = 16 → (n.toNat = 5 → (s.proc p.val).pc ≠ (s.proc p.val).lea) →
          (∃ t, exec (.mts p a n) s = .next t ∧ s.Ran p.val ((s.proc p.val).pc + 1) (fun z => z.setSpecial p.val n.toNat (s.getW p.val a)) t))) ∧
      (p.val ≠ 16 → n.toNat = 9 → (∃ t, exec (.mts p a n) s = .next t ∧ s.Took p.val 2 0x4D none (s.proc p.val).pc t)) ∧
      (14 ≤ n.toNat ∨ (p.val ≠ 16 ∧ 12 ≤ n.toNat) → (∃ t, exec (.mfs p d n) s = .next t ∧ s.Took p.val 1 0x4C none (s.proc p.val).pc t) ∧ (∃ t, exec (.mts p a n) s = .next t ∧ s.Took p.val 1 0x4D none (s.proc p.val).pc t)) ∧
      (p.val ≠ 16 → (s.proc p.val).sup = false → n.toNat = 1 ∨ n.toNat = 2 ∨ n.toNat = 3 ∨ n.toNat = 4 ∨ n.toNat = 8 ∨
        n.toNat = 10 ∨ n.toNat = 11 → (∃ t, exec (.mfs p d n) s = .next t ∧ s.Took p.val 2 0x4C none (s.proc p.val).pc t) ∧ (∃ t, exec (.mts p a n) s = .next t ∧ s.Took p.val 2 0x4D none (s.proc p.val).pc t))) ∧
    ((s.proc p.val).sup = true →
      (∀ (a : RegNo) (v : Word), s.getW p.val a = v → (∃ t, exec (.mts p a 0) s = .next t ∧ s.Ran p.val ((s.proc p.val).pc + 1) (fun z => { z with
        status := (z.status &&& 0x0FFFFF) ||| (v &&& 0xF00000), shadows := [⟨3, v &&& 0xF0, ~~~ v &&& 0xF0⟩] }) t)) ∧
      (∀ imm : BitVec 8, (∃ t, exec (.setm p imm) s = .next t ∧ s.Ran p.val ((s.proc p.val).pc + 1) (fun z => { z with shadows := [⟨3, imm.zeroExtend 24 &&& 0xF0, 0⟩] }) t) ∧
        (∃ t, exec (.clrm p imm) s = .next t ∧ s.Ran p.val ((s.proc p.val).pc + 1) (fun z => { z with shadows := [⟨3, 0, imm.zeroExtend 24 &&& 0xF0⟩] }) t))) ∧
    ((s.proc p.val).sup = false →
      (∀ (a : RegNo) (v : Word), s.getW p.val a = v →
        ((v ^^^ (s.proc p.val).status) &&& 0xE0 = 0 → (∃ t, exec (.mts p a 0) s = .next t ∧ s.Ran p.val ((s.proc p.val).pc + 1) (fun z => { z with
          status := (z.status &&& 0x0FFFFF) ||| (v &&& 0xF00000), shadows := [⟨3, v &&& 0x10, ~~~ v &&& 0x10⟩] }) t)) ∧
        ((v ^^^ (s.proc p.val).status) &&& 0xE0 ≠ 0 → (∃ t, exec (.mts p a 0) s = .next t ∧ s.Took p.val 2 0x4D none (s.proc p.val).pc t))) ∧
      (∀ (imm : BitVec 8) (m : Word), m = imm.zeroExtend 24 →
        (m &&& ~~~ (s.proc p.val).status &&& 0xE0 = 0 → (∃ t, exec (.setm p imm) s = .next t ∧ s.Ran p.val ((s.proc p.val).pc + 1) (fun z => { z with shadows := [⟨3, m &&& 0x10, 0⟩] }) t)) ∧
        (m &&& ~~~ (s.proc p.val).status &&& 0xE0 ≠ 0 → (∃ t, exec (.setm p imm) s = .next t ∧ s.Took p.val 2 0x4E none (s.proc p.val).pc t)) ∧
        (m &&& (s.proc p.val).status &&& 0xE0 = 0 → (∃ t, exec (.clrm p imm) s = .next t ∧ s.Ran p.val ((s.proc p.val).pc + 1) (fun z => { z with shadows := [⟨3, 0, m &&& 0x10⟩] }) t)) ∧
        (m &&& (s.proc p.val).status &&& 0xE0 ≠ 0 → (∃ t, exec (.clrm p imm) s = .next t ∧ s.Took p.val 2 0x4F none (s.proc p.val).pc t)))) ∧
    (∀ (a b d : RegNo) (g : BitVec 4),
      (2 ≤ g.toNat → (∃ t, exec (.ptw p a b g) s = .next t ∧ s.Took p.val 1 0x60 none (s.proc p.val).pc t) ∧ (∃ t, exec (.ptr p d g) s = .next t ∧ s.Took p.val 1 0x61 none (s.proc p.val).pc t)) ∧
      (g.toNat < 2 → s.dom 19 = false → (∃ t, exec (.ptw p a b g) s = .next t ∧ s.Ran p.val ((s.proc p.val).pc + 1) (id) t)) ∧
      (g.toNat < 2 → s.dom 19 = true → ∀ own m : Word, m = s.getW p.val b &&& own →
        (∀ i, i < 24 → bit own i = s.coreOwnsPin p.val (24 * g.toNat + i)) →
        ∃ t, exec (.ptw p a b g) s = .next t ∧ (t.proc p.val).pc = (s.proc p.val).pc + 1 ∧
          t.reg (Reg.GPO_OUT g.toNat) = (s.reg (Reg.GPO_OUT g.toNat) &&& ~~~ m) ||| (s.getW p.val a &&& m) ∧
          (m ≠ s.getW p.val b → t.fld Reg.GPO_LASTERR Fd.GPO_LASTERR_CAUSE = 2) ∧
          (∀ r, ¬ inGlean r → r ≠ Reg.GPO_OUT g.toNat → (m ≠ s.getW p.val b → r ≠ Reg.GPO_ERRCNT ∧ r ≠ Reg.GPO_LASTERR) →
            t.reg r = s.reg r) ∧ t.mem = s.mem) ∧
      (g.toNat < 2 → ∀ v : Word, (∀ i, i < 24 → bit v i = (s.padLevel (24 * g.toNat + i) && s.coreOwnsPin p.val (24 * g.toNat + i))) →
        ∃ t, exec (.ptr p d g) s = .next t ∧ s.Wrote p.val d v {} t))

/-- LDL, STL, JL, UCSW, WDK and the dispatch of a custom instruction at the Steward -/
def Obligations.StewardManagementAndCustomInstructions : Prop :=
  ∀ (d a b : RegNo) (s : State), s.Ready 16 1 →
    (∀ x, x = longAddr (s.getW 16 b) (s.getW 16 a) →
      (s.storeForward 16 x = none → s.refuses (s.plotOf 16) = false → (s.drawTag 16 .steward).isSome = true →
        ∃ t w, exec (.ldl d a b) s = .next t ∧ s.OnlyProcAnd 16 tagReg t ∧
        (t.proc 16).wait = some (.load (s.getW 16 a) x d none w true) ∧ (t.proc 16).pc = (s.proc 16).pc ∧
        (t.proc 16).w = (s.proc 16).w) ∧
      (∀ v, s.storeForward 16 x = some v → ∃ t, exec (.ldl d a b) s = .next t ∧ s.Wrote 16 d v {} t) ∧
      (s.storing 16 = false → s.refuses (s.plotOf 16) = false → (s.drawTag 16 .steward).isSome = true →
        ∃ t w, exec (.stl d a b) s = .next t ∧ s.OnlyProcAnd 16 tagReg t ∧
        (t.proc 16).wait = some (.store (s.getW 16 a) x (s.getW 16 d) none w) ∧ (t.proc 16).pc = (s.proc 16).pc ∧
        (t.proc 16).w = (s.proc 16).w)) ∧
    (∃ t, exec (.jl a b) s = .next t ∧ s.Ran 16 (s.getW 16 a) (fun z => { z with cseg := s.getW 16 b &&& 0xF }) t) ∧
    (s.ucReady = true → ∃ t, exec (.ucsw a) s = .next t ∧ (t.proc 16).pc = s.getW 16 a ∧ t.ucBank = 1 - s.ucBank ∧
      t.reg Reg.STW_UCVER = s.reg Reg.STW_UCVERI ∧ t.reg Reg.STW_UCVERI = s.reg Reg.STW_UCVER ∧
      t.bitAt Reg.STW_UCSTAT 21 = false ∧ bit (t.proc 16).status 22 = true ∧ (t.proc 16).w = (s.proc 16).w ∧ t.mem = s.mem) ∧
    (s.ucReady = false → ∃ t, exec (.ucsw a) s = .next t ∧
      s.Ran 16 ((s.proc 16).pc + 1) (fun z => { z with status := withFlags z.status { z := some false } }) t) ∧
    (∃ t, exec .wdk s = .next t ∧ s.OnlySteward t ∧ t.uc = { s.uc with wdogAt := s.timebase.toNat } ∧
      (t.proc 16).pc = (s.proc 16).pc + 1 ∧ (t.proc 16).w = (s.proc 16).w ∧ (t.proc 16).status = (s.proc 16).status) ∧
    (∀ f : BitVec 8, ∀ e, e = s.customEntry f.toNat →
      (s.isStub e = true → ∃ t, exec (.customInstruction f d a) s = .next t ∧ s.Took 16 1 0x3F none (s.proc 16).pc t) ∧
      (s.isStub e = false → ∃ t, exec (.customInstruction f d a) s = .next t ∧ s.OnlySteward t ∧
        t.uc.custom = some (f.toNat, (s.proc 16).pc, 0, 0) ∧ t.uc.upc = e ∧ t.uc.ustack = [] ∧
        getF t.uc.ir ⟨23, 8⟩ = 0x3F00 + f.toNat ∧ (t.proc 16).pc = (s.proc 16).pc + 1 ∧ (t.proc 16).w = (s.proc 16).w))

/-- ALU, ALUI, MEM, BR, CALL, RET, END, FETCH2, RAISE, WAITI, SPEC, UCSWAP, WDKICK, LDSEG and reserved microwords -/
def Obligations.MicrowordsOfTheSequencer : Prop :=
  ∀ s : State, s.MicroReady →
    (∀ (op : BitVec 4) (d a b : BitVec 5) (fl : Bool) (imm : BitVec 6) (r : Word) (f : Flags), d.toNat < 26 → s.badDest d = false →
      (s.microword = .alu op d a b fl → microOp op.toNat (s.micro a) (s.micro b) = some (r, f) → ∃ t, exec (.microAlu op d a b fl) s = .next t ∧ t.micro d = r ∧
        t.uc.upc = s.ucAddr (s.uc.upc + 1) ∧ (t.proc 16).status = (if fl then withFlags (s.proc 16).status f else (s.proc 16).status) ∧ s.OnlySteward t) ∧
      (s.microword = .alui op d a imm → microOp op.toNat (s.micro a) (imm.signExtend 24) = some (r, f) → ∃ t, exec (.microAlui op d a imm) s = .next t ∧
        t.micro d = r ∧ t.uc.upc = s.ucAddr (s.uc.upc + 1) ∧ (t.proc 16).status = (s.proc 16).status ∧ s.OnlySteward t)) ∧
    (∀ (op : BitVec 4) (d a : BitVec 5) (x y : Word) (acc : BitVec 48), s.micro a = x →
      (op = 12 ∧ acc = BitVec.ofInt 48 (x.toInt * y.toInt)) ∨ (op = 13 ∧ acc = BitVec.ofNat 48 (x.toNat * y.toNat)) ∨
        (op = 14 ∧ acc = BitVec.ofInt 48 ((s.proc 16).acc.toInt + x.toInt * y.toInt)) →
      (∀ (b : BitVec 5) (fl : Bool), s.microword = .alu op d a b fl → s.micro b = y → ∃ t, exec (.microAlu op d a b fl) s = .next t ∧
        (t.proc 16).acc = acc ∧ t.uc.upc = s.ucAddr (s.uc.upc + 1) ∧ s.OnlySteward t) ∧
      (∀ imm : BitVec 6, s.microword = .alui op d a imm → imm.signExtend 24 = y → ∃ t, exec (.microAlui op d a imm) s = .next t ∧
        (t.proc 16).acc = acc ∧ t.uc.upc = s.ucAddr (s.uc.upc + 1) ∧ s.OnlySteward t)) ∧
    (∀ (lock long : Bool) (d a b : BitVec 5) (x : Nat),
      x = longAddr (if long then s.micro b else (s.proc 16).dseg) (s.micro a) → regionOf x = .field x →
      s.LineFree x → (∀ k, k < 8 → s.bitAt (Reg.DBG_CMP_CFG 16 k) 23 = false) →
      (s.microword = .mem false lock long d a b → d.toNat < 26 → s.badDest d = false → s.gate 16 0 x false = none →
        ∃ t, exec (.microMem false lock long d a b .ok) s = .next t ∧ t.micro d = s.cohWord x ∧ t.uc.upc = s.ucAddr (s.uc.upc + 1) ∧
          (lock = true → t.uc.lock = some x)) ∧
      (s.microword = .mem true lock long d a b → s.gate 16 0 x true = none → ∃ t, exec (.microMem true lock long d a b .ok) s = .next t ∧ t.memAt x = s.micro d ∧
        t.uc.upc = s.ucAddr (s.uc.upc + 1) ∧ (lock = true → t.uc.lock = none))) ∧
    (∀ (cond : BitVec 4) (target : BitVec 14), s.microword = .br cond target → s.badTarget target.toNat false = false →
      ∃ t, exec (.microBr cond target) s = .next t ∧ s.OnlySteward t ∧
        t.uc.upc = (if s.microCond cond.toNat then s.ucAddr target.toNat else s.ucAddr (s.uc.upc + 1))) ∧
    (∀ target : BitVec 14, s.microword = .call target → s.badTarget target.toNat true = false → s.uc.ustack.length < 8 →
      s.ucLegacy = true ∨ target.toNat % 0x2000 ∉ [0x400, 0x404, 0x408] →
      ∃ t, exec (.microCall target) s = .next t ∧ t.uc.upc = s.ucAddr target.toNat ∧
        t.uc.ustack = s.ucAddr (s.uc.upc + 1) :: s.uc.ustack ∧ s.OnlySteward t) ∧
    (∀ x xs, s.microword = .ret → s.uc.ustack = x :: xs → ∃ t, exec .microRet s = .next t ∧ t.uc.upc = x ∧ t.uc.ustack = xs ∧ s.OnlySteward t) ∧
    (s.uc.custom = none → ∀ w, s.ucFetch = some w →
      (s.microword = .fin → ∃ t, exec .microEnd s = .next t ∧ t.uc.ir = w ∧ t.uc.mid = false ∧ t.uc.upc = s.ucAddr (4 * getF w ⟨23, 16⟩) ∧ s.OnlySteward t) ∧
      (s.microword = .fetch2 → ∃ t, exec .microFetch2 s = .next t ∧ t.uc.ir2 = w ∧ (t.proc 16).pc = (s.proc 16).pc + 1 ∧ t.uc.upc = s.ucAddr (s.uc.upc + 1) ∧ s.OnlySteward t)) ∧
    (s.microword = .fin → s.uc.custom.isSome = true → s.Plain 16 → ∃ t, exec .microEnd s = .next t ∧ t.uc.custom = none ∧
      (t.proc 16).pc = (s.proc 16).pc) ∧
    (∀ cause : BitVec 8, s.microword = .raise cause → s.uc.custom = none → s.Plain 16 → ∃ t, exec (.microRaise cause) s = .next t ∧
      (t.proc 16).ecause = wd (cause.toNat + 256 * getF s.uc.ir ⟨23, 16⟩) ∧ (t.proc 16).epc = (s.proc 16).pc ∧
      (t.proc 16).pc = ((s.proc 16).evec &&& 0xFFFFF0) + wd (8 * cause.toNat) ∧ s.OnlySteward t) ∧
    (s.microword = .waiti → ∃ t, exec .microWaiti s = .next t ∧ (t.proc 16).waiting = true ∧ t.uc.upc = s.ucAddr (s.uc.upc + 1) ∧ s.OnlySteward t) ∧
    (∀ (n : BitVec 8) (r : BitVec 5) (v : Word), s.microword = .spec false n r → r.toNat < 26 → s.badDest r = false → s.special 16 n.toNat = some v →
      ∃ t, exec (.microSpec false n r) s = .next t ∧ t.micro r = v ∧ t.uc.upc = s.ucAddr (s.uc.upc + 1) ∧ s.OnlySteward t) ∧
    (∀ (n : BitVec 8) (r : BitVec 5), s.microword = .spec true n r → ∃ t, exec (.microSpec true n r) s = .next t ∧
      t.proc 16 = (s.proc 16).setSpecial 16 n.toNat (s.micro r) ∧ t.uc.upc = s.ucAddr (s.uc.upc + 1) ∧ s.OnlySteward t) ∧
    (s.inRegion = false →
      (∀ r : BitVec 5, s.microword = .ucswap r →
        (s.ucReady = true → ∃ t, exec (.microUcswap r) s = .next t ∧ t.ucBank = 1 - s.ucBank ∧
          (t.proc 16).pc = s.micro r ∧ bit (t.proc 16).status 22 = true) ∧
        (s.ucReady = false → ∃ t, exec (.microUcswap r) s = .next t ∧ bit (t.proc 16).status 22 = false ∧
          t.uc.upc = s.ucAddr (s.uc.upc + 1) ∧ s.OnlySteward t)) ∧
      (s.microword = .wdkick → ∃ t, exec .microWdkick s = .next t ∧ t.uc.wdogAt = s.timebase.toNat ∧ t.uc.upc = s.ucAddr (s.uc.upc + 1) ∧ s.OnlySteward t) ∧
      (∀ r : BitVec 5, s.microword = .ldseg r → ∃ t, exec (.microLdseg r) s = .next t ∧ (t.proc 16).cseg = s.micro r &&& 0xF ∧ t.uc.upc = s.ucAddr (s.uc.upc + 1) ∧ s.OnlySteward t)) ∧
    (∀ w : Word, s.ucWord s.uc.upc = w → decodeMicro w = .reserved → ∃ t, exec (.reservedMicroword w) s = .next t ∧
      t.uc.stopped = true ∧ t.fld Reg.STW_MCHK Fd.STW_MCHK_CAUSE = 3 ∧ t.mem = s.mem ∧
      t.reg Reg.STW_MCHKPC = (match s.uc.custom with
        | some (_, c, _, _) => c
        | none => (s.proc 16).pc))

/-- UCDATA, COPY, SEAL, the scrubber, the watchdog, the start of the Steward and the mailbox indices -/
def Obligations.ControlStoreBanksChecksAndMailboxes : Prop :=
  (∀ (req : Req) (s : State),
    (s.Opens req.val Reg.STW_UCDATA → s.ucLegacy = false → ∀ v, ∃ t, exec (.ucdataWrite req v) s = .next t ∧
      t.ucWord (s.ucInactive (s.reg Reg.STW_UCADDR).toNat) = v ∧
      t.reg Reg.STW_UCADDR = wd (((s.reg Reg.STW_UCADDR).toNat + 1) % 0x2000) ∧ t.bitAt Reg.STW_UCSTAT 21 = false ∧
      t.mem = s.mem ∧ t.procs = s.procs) ∧
    (s.gate req.val (s.reqPlot req.val) Reg.STW_UCDATA false = none → ∃ t, exec (.ucdataRead req) s = .next t ∧
      (t.respOf req.val).value = s.ucWord (s.ucInactive (s.reg Reg.STW_UCADDR).toNat) ∧
      t.reg Reg.STW_UCADDR = wd (((s.reg Reg.STW_UCADDR).toNat + 1) % 0x2000) ∧
      s.OnlyRegs (fun a => a = Reg.STW_UCADDR) t) ∧
    (s.Opens req.val Reg.STW_UCCTRL → s.ucLegacy = false →
      (∃ t, exec (.ucCopy req) s = .next t ∧ t.bitAt Reg.STW_UCSTAT 19 = true ∧ t.bitAt Reg.STW_UCSTAT 21 = false ∧
        s.OnlyRegs (fun a => a = Reg.STW_UCSTAT) t) ∧
      (s.bitAt Reg.STW_UCSTAT 19 = false → ∃ t, exec (.ucSeal req) s = .next t ∧ t.bitAt Reg.STW_UCSTAT 20 = true ∧
        s.OnlyRegs (fun a => a = Reg.STW_UCSTAT) t))) ∧
  (∀ s : State, s.bitAt Reg.STW_UCSTAT 19 = true → ∃ t, exec .ucCopyDone s = .next t ∧ t.bitAt Reg.STW_UCSTAT 19 = false ∧
    (∀ o, o < 0x1800 → t.ucWord (s.ucInactive o) = s.ucWord (s.ucBank * 0x2000 + o)) ∧ t.mem = s.mem) ∧
  (∀ s : State, s.bitAt Reg.STW_UCSTAT 20 = true → ∃ t, exec .ucScanDone s = .next t ∧ t.bitAt Reg.STW_UCSTAT 20 = false ∧
    t.bitAt Reg.STW_UCSTAT 21 = !(s.uc.bad.any (fun a => !s.ucActiveAt a)) ∧
    s.OnlyRegs (fun a => a = Reg.STW_UCSTAT) t) ∧
  (∀ (a : BitVec 14) (upset : Bool) (s : State), s.uc.stopped = false →
    (upset = true ∨ s.uc.bad.contains a.toNat = true → ∃ t, exec (.scrubberRead a upset) s = .next t ∧ t.mem = s.mem ∧
      t.uc.bad.contains a.toNat = true ∧
      (s.ucActiveAt a.toNat = true → t.uc.stopped = true ∧ t.fld Reg.STW_MCHK Fd.STW_MCHK_CAUSE = 2) ∧
      (s.ucActiveAt a.toNat = false → t.bitAt Reg.STW_UCSTAT 18 = true ∧ t.bitAt Reg.STW_UCSTAT 21 = false ∧
        t.procs = s.procs ∧ ∀ r, r ≠ Reg.STW_UCSTAT → t.reg r = s.reg r)) ∧
    (upset = false → s.uc.bad.contains a.toNat = false → exec (.scrubberRead a upset) s = .next s)) ∧
  (∀ s : State, s.halted 16 = false → s.dom 2 = true → ∃ t, exec .watchdogExpiry s = .next t ∧ t.proc 16 = {} ∧
    t.uc.stopped = false ∧ t.uc.custom = none ∧ (s.wdogDue < 2 ^ 64 → s.wdogDue ≤ t.timebase.toNat)) ∧
  (∀ s : State, s.dom 2 = true → (s.proc 16).parked = true → s.bitAt Reg.DBG_CTRL 2 = false → s.imgOk 0 = false →
    s.imgOk 1 = false →
    ∃ t, exec .baseMicrocodeLoaded s = .next t ∧ (t.proc 16).parked = false ∧ t.reg Reg.STW_UCVER = 0x320000 ∧
      t.bitAt Reg.SEC_STAT 20 = true ∧ t.mem = s.mem) ∧
  (∀ (k : Nat) (x : Nat × Nat × Nat) (s : State), s.dom 2 = true → (s.proc 16).parked = true → s.bitAt Reg.DBG_CTRL 2 = false →
    s.fld Reg.GRN_IMGSEL Fd.GRN_IMGSEL_ACT = k → s.imgOk k = true → (s.imgSecs k).find? (fun y => y.1 == 3) = some x →
    ∃ t, exec .baseMicrocodeLoaded s = .next t ∧ (t.proc 16).parked = false ∧ (t.proc 16).cseg = 0xC ∧
      (t.proc 16).pc = wd (k * 0x100000 + x.2.1) ∧ t.bitAt Reg.SEC_STAT 23 = (k == 1) ∧ t.mem = s.mem) ∧
  (∀ (req : Req) (v : Word) (s : State), s.Opens req.val Reg.STW_WDOG →
    ∃ t, exec (.wdogWrite req v) s = .next t ∧ t.procs = s.procs ∧ t.mem = s.mem ∧
      t.uc = { s.uc with wdogAt := s.timebase.toNat } ∧
      (s.bitAt Reg.STW_WDOG 23 = false → t.fld Reg.STW_WDOG Fd.STW_WDOG_TIME = getF v Fd.STW_WDOG_TIME)) ∧
  (∀ (req : Req) (m : Fin 16) (v : Word) (s : State),
    (s.Opens req.val (Reg.STW_MB_TAIL m.val) →
      (ringCount (s.reg (Reg.STW_MB_HEAD m.val)).toNat (getF v Fd.STW_MB_TAIL_INDEX) ≤ s.mbSize m.val →
        ∃ t, exec (.mailboxTailWrite req m v) s = .next t ∧
          (t.reg (Reg.STW_MB_TAIL m.val)).toNat = getF v Fd.STW_MB_TAIL_INDEX ∧
          s.OnlyRegs (fun a => a = Reg.STW_MB_TAIL m.val ∨ inGlean a) t) ∧
      (s.mbSize m.val < ringCount (s.reg (Reg.STW_MB_HEAD m.val)).toNat (getF v Fd.STW_MB_TAIL_INDEX) →
        ∃ t, exec (.mailboxTailWrite req m v) s = .next t ∧ s.OnlyRegs (fun a => a = Reg.STW_ERRCNT) t)) ∧
    (s.Opens req.val (Reg.STW_MB_HEAD m.val) →
      ringCount (s.reg (Reg.STW_MB_HEAD m.val)).toNat (getF v Fd.STW_MB_HEAD_INDEX) ≤ s.mbCount m.val →
      ∃ t, exec (.mailboxHeadWrite req m v) s = .next t ∧
        (t.reg (Reg.STW_MB_HEAD m.val)).toNat = getF v Fd.STW_MB_HEAD_INDEX ∧
        s.OnlyRegs (fun a => a = Reg.STW_MB_HEAD m.val) t))

/-- HELLO, DIR_READ, LINK_STATUS, STAGE_LIST, NR_LOG, CERT_READ and MEM_READ from the local host: replies -/
def Obligations.RequestsThatOnlyRead : Prop :=
  ∀ (f : List Word) (s : State),
    (s.Local 0x01 0 0 f → ∃ t w0 w3, exec (.hello .spi f) s = .next t ∧
      s.Carried id f (fun _ => [0, w0, s.reg Reg.STW_UCVER, s.reg Reg.SEC_DEVID, w3]) t ∧
      getF w0 ⟨23, 8⟩ = 0x3232 ∧ getF w3 ⟨10, 0⟩ = s.devAddr) ∧
    (∀ a n, s.Local 0x03 1 0 f → payF f 0 23 13 = a → payF f 0 12 7 = 0 → payF f 0 6 0 = n → 1 ≤ n → n ≤ 64 → a + n ≤ 2048 →
      (s.isManager = true → ∃ t, exec (.dirRead .spi f) s = .next t ∧
        s.Carried id f (fun _ => 0 :: (List.range n).flatMap (fun i => s.dirWords (a + i))) t) ∧
      (s.isManager = false → ∃ t, exec (.dirRead .spi f) s = .next t ∧ s.Carried id f (fun _ => [0x0F0000]) t)) ∧
    (s.Local 0x70 0 0 f → ∃ t w, exec (.linkStatus .spi f) s = .next t ∧
      s.Carried State.useFree f (fun _ => 0 :: (List.range 8).map s.laneWord ++ [w]) t ∧
      getF w ⟨23, 22⟩ = s.fld Reg.LNK_REFSTAT Fd.LNK_REFSTAT_REF) ∧
    (s.Local 0x33 0 0 f → ∃ t, exec (.stageList .spi f) s = .next t ∧
      s.Carried id f (fun _ => 0 :: (List.range 64).map (fun m =>
        s.fetchZ 0 (0xC000000 + 256 * (s.fld Reg.SUP_STGBASE Fd.SUP_STGBASE_PAGE + m)) &&& 0x80FFFF)) t) ∧
    (∀ page, s.Local 0x41 1 s.supPlot f → payF f 0 23 16 = 0 → s.logPageOf (payF f 0 15 0) = page →
      getF (s.fetchZ 0 (0xC000000 + 256 * page)) ⟨15, 0⟩ = payF f 0 15 0 → ∃ t, exec (.nrLog .spi f) s = .next t ∧
        s.Carried id f (fun _ => 0 :: (List.range 256).map (fun i => s.fetchZ 0 (0xC000000 + 256 * page + i))) t) ∧
    (s.Local 0x60 2 0 f → payF f 0 22 12 = 0 → payF f 1 23 10 = 0 → 1 ≤ payF f 1 9 0 → payF f 1 9 0 ≤ 1000 →
      ∃ t, exec (.certRead .spi f) s = .next t ∧ s.Carried (fun u => { u with freeCtr := u.freeCtr + 8192 }) f
        (fun _ => 0 :: wd (s.certBytes (payF f 0 23 23) % 65536) ::
          (List.range (payF f 1 9 0)).map (fun i => s.certWord (payF f 0 23 23) (payF f 0 11 0 + i))) t) ∧
    (∀ p n, s.Local 0x12 3 p f → s.coresOf p = [] → (pay f 0).toNat ≤ 1 → memAddr f < 0x1800000 → (pay f 2).toNat = n →
      1 ≤ n → n ≤ 1019 → s.badPage p (memAddr f) n 22 = none → s.memReady = true →
      ∃ t, exec (.memRead .spi f) s = .next t ∧
        s.Carried (fun u => u.noteFetches 16 0 ((List.range n).map (memAddr f + ·))) f
          (fun _ => 0 :: (List.range n).map (fun i => s.cohWord (memAddr f + i))) t)

/-- SCENE_SET, MEM_WRITE, AGENT, SHEAF, SHEAF_CANCEL, STAGE_DATA, STAGE_COMMIT and STAGE_START from the local host -/
def Obligations.RequestsThatWriteDisplayMemoryAndPages : Prop :=
  ∀ (f : List Word) (s : State),
    (∀ p n b, s.Local 0x10 (2 + 2 * n) p f → s.coresOf p = [] → payF f 1 7 0 = n → payF f 0 22 22 = b → 1 ≤ n →
      payF f 0 21 16 = 0 → payF f 1 23 8 = 0 →
      (∀ i, i < n → payF f (2 + 2 * i) 23 16 = 0 ∧ payF f (2 + 2 * i) 15 0 ≤ 0x3FFF ∧ payF f (2 + 2 * i) 15 0 ≠ 0x83) →
      s.sceneOwner f = none → s.dom (domOfBeam b) = true → ∃ t, exec (.sceneSet .spi f) s = .next t ∧
        s.Carried (fun u => u.sceneDo f) f (fun t => [0, wd n, t.reg (Reg.BM_SFRAME b)]) t) ∧
    (∀ p n, s.Local 0x11 n p f → 3 ≤ n → n ≤ 1020 → s.coresOf p = [] → (pay f 0).toNat ≤ 1 →
      memAddr f < 0x1800000 → s.badPage p (memAddr f) (n - 2) 21 = none → s.memReady = true →
      ∃ t, exec (.memWrite .spi f) s = .next t ∧
        s.Carried (fun u => u.putWords 16 (memAddr f) (f.drop 6)) f (fun _ => [0]) t) ∧
    (∀ p n, s.Local 0x13 n p f → 1 ≤ n → n ≤ 1020 → payF f 0 23 14 = 0 → 1 ≤ payF f 0 13 0 → payF f 0 13 0 ≤ 10000 →
      (s.coresOf p ≠ [] → (s.mbPut p f).isSome = true → ∃ t, exec (.agent .spi f) s = .next t ∧
        s.Held (fun u => (u.mbPut p f).getD u) f (.agent (s.timebase.toNat + 250000 * (payF f 0 13 0 - 5)) 65535) t) ∧
      (s.coresOf p = [] → ∃ t, exec (.agent .spi f) s = .next t ∧ s.Carried id f (fun _ => [0x0F0000]) t)) ∧
    (∀ p n, s.Local 0x20 n p f → 6 ≤ n → n ≤ 516 → s.coresOf p = [] → (pay f 1).toNat ≤ 1 →
      s.badPage p (16 * (pay f 0).toNat) (n - 3) 21 = none → s.dom 15 = true → s.memReady = true → s.shfState p = 0 →
      ∃ t, exec (.sheaf .spi f) s = .next t ∧ t.tyk.waits.getLast? = some ⟨.spi, f.take 4, .sheaf⟩ ∧ t.shfState p = 1 ∧
        t.reg (Reg.AUD_SHF_BASE p) = pay f 0 ∧ t.reg (Reg.AUD_SHF_TGT p) = pay f 2 ∧
        t.bitAt (Reg.AUD_SHF_CTRL p) 1 = bit (pay f 1) 0) ∧
    (∀ p, s.Local 0x21 0 p f → s.coresOf p = [] → s.dom 15 = true → ∃ t, exec (.sheafCancel .spi f) s = .next t ∧
      s.Carried (fun u => u.shfCancel p) f (fun t => [0, wd (t.fld (Reg.AUD_SHF_STAT p) ⟨23, 16⟩ * 65536)]) t) ∧
    (s.stagingBusy = false → s.dom 3 = true → s.grnPortBusy = false →
      (∀ page n, s.Local 0x30 (2 + 256 * n) 0 f → payF f 0 23 14 = 0 → payF f 0 13 0 = page → payF f 1 23 2 = 0 →
        payF f 1 1 0 = n → 1 ≤ n → page ≤ 16381 →
        (∀ i, i < n → s.logOrImage (page + i) = false ∧ s.descPage (page + i) = false) →
        ∃ t, exec (.stageData .spi f) s = .next t ∧
          t.grn = s.grn ++ [⟨false, page, (f.drop 6).take 256⟩] ∧
          t.tyk.waits.getLast? = some ⟨.spi, f.take 4, .pages ((pagesOf f page n).drop 1) 0⟩ ∧ t.mem = s.mem ∧ t.gran = s.gran) ∧
      (∀ n page, s.Local 0x31 n 0 f → 2 ≤ n → n ≤ 257 → payF f 0 23 6 = 0 → payF f 1 22 16 = 0 → payF f 2 19 8 = 0 →
        payF f 2 7 0 ≤ 120 → (∀ w, w < payF f 2 7 0 → payF f (9 + 2 * w) 22 16 = 0) →
        page = s.fld Reg.SUP_STGBASE Fd.SUP_STGBASE_PAGE + payF f 0 5 0 → s.logOrImage page = false →
        ∃ t, exec (.stageCommit .spi f) s = .next t ∧
          t.grn = s.grn ++ [⟨false, page, (List.range 256).map (fun i => (f.drop 5).getD i 0)⟩] ∧
          t.tyk.waits.getLast? = some ⟨.spi, f.take 4, .pages [] 0⟩ ∧ t.mem = s.mem ∧ t.gran = s.gran)) ∧
    (s.Local 0x32 1 s.supPlot f → payF f 0 22 6 = 0 → s.dom 16 = true → ∃ t, exec (.stageStart .spi f) s = .next t ∧
      s.Carried (fun u => u.writeStggo (if bit (pay f 0) 23 then oneBit 22 else wd (2 ^ 23 + payF f 0 5 0))) f
        (fun t => [0, t.reg Reg.SUP_STGSTAT]) t)

/-- NR_CTRL, OVR_CLEAR, PLOT_ASSIGN, PLOT_CTRL, PLOT_DELEGATE, PLOT_QOS, CERT_ENROL, FW_WRITE, FW_ACTIVATE, LINK_ROUTE -/
def Obligations.RequestsOnSupervisionPlotsFirmwareAndRouting : Prop :=
  ∀ (f : List Word) (s : State),
    (s.Local 0x40 1 s.supPlot f → payF f 0 23 22 = 2 → payF f 0 21 0 = 0 → s.dom 16 = true → s.nrState = 0 →
      ∃ t, exec (.nrCtrl .spi f) s = .next t ∧
        s.Carried State.nrStart f (fun t => [0, t.reg Reg.SUP_NRSTAT, t.reg Reg.SUP_NRNUM]) t) ∧
    (s.Local 0x42 1 s.supPlot f → payF f 0 23 8 = 0 → pay f 0 ≠ 0 → s.dom 16 = true →
      (∀ n, n < 8 → bit (pay f 0) n = true → s.ovA n = s.ovB n) → ∃ t, exec (.ovrClear .spi f) s = .next t ∧
        s.Carried (fun u => ((List.range 8).filter (fun n => bit (pay f 0) n)).foldl (fun u n => u.ovClear n) u) f
          (fun _ => [0, pay f 0]) t) ∧
    (∀ c p first n, s.Local 0x50 1 0 f → payF f 0 23 19 = c → payF f 0 18 16 = p → payF f 0 15 8 = first → payF f 0 7 0 = n →
      c < 20 → 1 ≤ n → n ≤ 128 → first + n ≤ classSize.getD c 0 →
      (∀ i, first ≤ i → i < first + n → s.ownerRes c i = 0 ∨ s.ownerRes c i = p ∨ s.plotState (s.ownerRes c i) = 2) →
      ∃ t, exec (.plotAssign .spi f) s = .next t ∧ s.Carried (fun u => ((List.range n).map (first + ·)).foldl
        (fun u i => u.setFld (Reg.PLT_OWN c i) Fd.PLT_OWN_OWNER p) u) f (fun _ => [0]) t) ∧
    (∀ p, s.Local 0x51 1 0 f → payF f 0 20 3 = 0 → payF f 0 2 0 = p → p ≠ 0 →
      (payF f 0 23 21 = 1 → s.plotState p = 0 → ∃ t, exec (.plotCtrl .spi f) s = .next t ∧ t.plotState p = 1 ∧
        t.tyk.waits.getLast? = some ⟨.spi, f.take 4, .fence p⟩) ∧
      (payF f 0 23 21 = 2 → s.plotState p = 2 → ∃ t, exec (.plotCtrl .spi f) s = .next t ∧
        s.Carried (fun u => u.plotRelease p) f (fun _ => [0]) t ∧ t.plotState p = 0)) ∧
    (∀ p k, s.Local 0x52 1 p f → payF f 0 21 11 = 0 → payF f 0 23 22 = k → (k = 0 → s.coresOf p ≠ [] ∧ p ≠ 0) →
      (k = 3 → p ≠ 0) → ∃ t, exec (.plotDelegate .spi f) s = .next t ∧ s.Carried id f (fun _ => [0]) t ∧
        t.holderOf p = (k, payF f 0 10 0)) ∧
    (∀ p v, s.Local 0x53 2 0 f → payF f 0 23 16 = 0 → payF f 0 7 0 = 0 → payF f 1 23 19 = 0 → payF f 1 15 10 = 0 →
      payF f 1 9 5 ≤ 16 → payF f 1 4 0 ≤ 16 → payF f 1 18 16 = p → v = pay f 1 &&& 0x3FF →
      s.bresSum p Fd.PLT_BRES_RESA v ≤ 16 → s.bresSum p Fd.PLT_BRES_RESB v ≤ 16 →
      ∃ t, exec (.plotQos .spi f) s = .next t ∧
        s.Carried (fun u => (u.setFld (Reg.FAB_QOS p) Fd.FAB_QOS_WEIGHT (payF f 0 15 8)).writeBres p v) f (fun _ => [0]) t) ∧
    (∀ n, s.Local 0x61 n 0 f → 2 ≤ n → n ≤ 1020 → payF f 0 22 12 = 0 →
      (payF f 0 23 23 = 0 → ∃ t, exec (.certEnrol .spi f) s = .next t ∧ s.Carried id f (fun _ => [0]) t ∧
        ∀ i, i < n - 1 → Tab.get 0 t.tyk.enrol (payF f 0 11 0 + i) = pay f (1 + i)) ∧
      (payF f 0 23 23 = 1 → payF f 0 11 0 = 0 → ∃ t, exec (.certEnrol .spi f) s = .next t ∧
        (∀ e, s.enrolCheck ((f.drop 5).flatMap wordBytes) = .error e → s.Carried id f (fun _ => [statusWord 11 e]) t) ∧
        (∀ c r k, s.enrolCheck ((f.drop 5).flatMap wordBytes) = .ok (c, r, k) →
          s.Carried (fun u => u.enrolInstall c r k) f (fun _ => [0]) t))) ∧
    (∀ n page, s.Local 0x62 (2 + 256 * n) 0 f → payF f 0 23 14 = 0 → payF f 1 23 2 = 0 → payF f 1 1 0 = n → 1 ≤ n →
      payF f 0 13 0 + n ≤ 4096 → page = s.inactiveSlot * 0x1000 + payF f 0 13 0 → s.grnProtected (s.inactiveSlot * 0x1000) = false →
      s.dom 3 = true → s.grnPortBusy = false → ∃ t, exec (.fwWrite .spi f) s = .next t ∧
        t.grn = s.grn ++ [⟨false, page, (f.drop 6).take 256⟩] ∧ t.mem = s.mem ∧ t.gran = s.gran) ∧
    (s.Local 0x63 1 0 f → payF f 0 22 0 = 0 → s.dom 3 = true → (payF f 0 23 23 = 1 → s.ucLegacy = false) →
      ∃ t, exec (.fwActivate .spi f) s = .next t ∧
        (s.imgOk s.inactiveSlot = true →
          s.Carried (fun u => if payF f 0 23 23 = 1 then (u.setReg Reg.GRN_IMGSEL (wd s.inactiveSlot)).swapCustomer s.inactiveSlot
            else u.setReg Reg.GRN_IMGSEL (wd s.inactiveSlot)) f (fun t => [0, t.reg Reg.STW_UCVER]) t) ∧
        (s.imgOk s.inactiveSlot = false → ∃ d, s.Carried State.useFree f (fun _ => [statusWord 11 d]) t)) ∧
    (∀ n, s.Local 0x71 (1 + 2 * n) 0 f → (pay f 0).toNat = n → 1 ≤ n → n ≤ 64 →
      (∀ i, i < n → payF f (1 + 2 * i) 21 12 = 0 ∧ payF f (2 + 2 * i) 23 8 = 0) → (s.stageRoutes f).isSome = true →
      ∃ t, exec (.linkRoute .spi f) s = .next t ∧
        s.Carried (fun u => ((u.stageRoutes f).getD u).routeGo) f (fun _ => [0]) t)

/-- ACK, an agent reply, the agent and relay timeouts, and the resending of reports -/
def Obligations.AgentsRelaysReportsAndAcknowledgements : Prop :=
  (∀ (p : Nat) (f : List Word) (s : State), s.Local 0x02 1 p f → ∃ t, exec (.ack .spi f) s = .next t ∧
    { t with tyk := s.tyk } = s ∧ t.tyk.out = s.tyk.out ∧
    Tab.get [] t.tyk.reports p = (Tab.get [] s.tyk.reports p).filter (fun r => r.seq != (pay f 0).toNat) ∧
    ∀ q, q ≠ p → Tab.get [] t.tyk.reports q = Tab.get [] s.tyk.reports q) ∧
  (∀ (p : Fin 8) (f : List Word) (s : State), s.stewUp = true → s.mbCount (8 + p.val) ≠ 0 → s.mbFrame (8 + p.val) = f →
    (tykKind f = 1 → (∃ w ∈ s.tyk.waits, w.ofAgent p.val = true ∧ answers f w.head = true) →
      ∃ t, exec (.agentReply p) s = .next t ∧ t.reg (Reg.STW_MB_HEAD (8 + p.val)) =
          wd (((s.reg (Reg.STW_MB_HEAD (8 + p.val))).toNat + 1) % 32) ∧
        ∀ w ∈ t.tyk.waits, ¬ (w.ofAgent p.val = true ∧ answers f w.head = true)) ∧
    (tykKind f ≠ 1 → ∃ t, exec (.agentReply p) s = .next t ∧ t.tyk = s.tyk ∧
      t.reg (Reg.STW_MB_HEAD (8 + p.val)) = wd (((s.reg (Reg.STW_MB_HEAD (8 + p.val))).toNat + 1) % 32))) ∧
  (∀ (p : Fin 8) (w : TykWait) (s : State), s.stewUp = true →
    s.firstDue p.val = some w → w.via = .spi →
    ∃ t, exec (.agentTimeout p) s = .next t ∧ w ∉ t.tyk.waits ∧ t.mem = s.mem ∧ t.timebase = (s.passTo w.due).timebase ∧
      t.tyk.out.getLast? = some (.spi, (mkFrame (tykCode w.head) 1 (tykPlot w.head) s.devAddr (tykSrcKind w.head) (tykSrc w.head)
        (tykSeq w.head) [0x090000]).flatMap wordBytes)) ∧
  (∀ (seq : Word) (q : List Word) (due : Nat) (s : State), s.stewUp = true →
    s.tyk.relays.reverse.find? (fun q => q.1.getD 3 0 == seq) = some (q, due) → ∃ t, exec (.relayTimeout seq) s = .next t ∧
      (q, due) ∉ t.tyk.relays ∧ t.tyk.out = s.tyk.out ++ [(.host,
        (mkFrame (tykCode q) 1 (tykPlot q) s.devAddr (tykSrcKind q) (tykSrc q) (tykSeq q) [0x090000]).flatMap wordBytes)] ∧
      t.timebase = (s.passTo due).timebase ∧ (∀ a, ¬ inGlean a → a ≠ Reg.TMR_EVT → t.reg a = s.reg a) ∧ t.mem = s.mem) ∧
  (∀ (p : Fin 8) (s : State), s.stewUp = true → s.joined = false → ∃ t, exec (.reportResend p) s = .next t ∧
    { t with tyk := s.tyk } = s ∧ t.tyk.reports = s.tyk.reports ∧ t.tyk.out = s.tyk.out ++
      (Tab.get [] s.tyk.reports p.val).map (fun r => (.spi, (mkFrame r.code 2 p.val s.devAddr 2 0 r.seq r.words).flatMap wordBytes)))

/-- Fence, release, reset and restart of a plot: states, what stops, what returns to reset, where cores start -/
def Obligations.PlotCommandsMoveAPlotThroughItsStates : Prop :=
  (∀ (req : Req) (p : Fin 8) (s : State), s.Opens req.val Reg.PLT_PCMD →
    (p.val ≠ 0 → s.plotState p.val = 0 → ∃ t, exec (.plotFence req p) s = .next t ∧ t.plotState p.val = 1 ∧
      t.bitAt Reg.FAB_FENCE p.val = true ∧ (∀ q, q < 8 → q ≠ p.val → t.plotState q = s.plotState q) ∧
      (∀ b, b < 2 → s.ownerRes 1 b = p.val → (t.beam b).fur.run = none ∧ t.bitAt (Reg.HRW_FW_STAT b) 22 = true) ∧
      t.shfState p.val = 0 ∧ t.bitAt (Reg.SEC_OP_CTRL p.val) 22 = false ∧
      (∀ c, c < 32 → s.ownerRes 5 c = p.val → t.bitAt (Reg.DRL_CH_CTRL c) 23 = false)) ∧
    (p.val ≠ 0 → s.plotState p.val = 2 → s.bitAt Reg.FAB_FENCE (8 + p.val) = true →
      (∃ t, exec (.plotRelease req p) s = .next t ∧ t.plotState p.val = 0 ∧ t.bitAt Reg.FAB_FENCE p.val = false ∧
        t.bitAt Reg.FAB_FENCE (8 + p.val) = false ∧
        s.OnlyRegs (fun a => a = Reg.PLT_STATE p.val ∨ a = Reg.FAB_FENCE ∨ a = Reg.FAB_STAT) t) ∧
      (∃ t, exec (.plotRestart req p) s = .next t ∧ t.plotState p.val = 0 ∧ t.bitAt Reg.FAB_FENCE p.val = false ∧
        (∀ c, c < 16 → s.corePlot c = p.val → (t.proc c).pc = s.reg (Reg.PLT_BOOT p.val) ∧ (t.proc c).parked = false ∧
          (t.proc c).w = [] ∧ (t.proc c).status = 0x80 ∧ (t.proc c).acc = 0 ∧ (t.proc c).dcache = (s.proc c).dcache) ∧
        (∀ c, c < 16 → s.corePlot c ≠ p.val → t.proc c = s.proc c) ∧ t.mem = s.mem ∧ t.eff = s.eff)) ∧
    (p.val ≠ 0 → s.plotState p.val = 2 → ∃ t, exec (.plotReset req p) s = .next t ∧ t.plotState p.val = 3 ∧
      (∀ c, c < 16 → s.corePlot c = p.val → t.proc c = { parked := (s.proc c).parked }) ∧
      (∀ c, c < 16 → s.corePlot c ≠ p.val → t.proc c = s.proc c) ∧
      (∀ a, 0x8010000 ≤ a → s.ownedBy p.val a = true → t.reg a = wd (resetOf a)) ∧
      (∀ n, n < 16 → s.ownerRes 6 n = p.val → Tab.get 0 t.tmr.cnt n = 0)) ∧
    (p.val = 0 ∨ s.plotState p.val ≠ 0 → ∃ t, exec (.plotFence req p) s = .next t ∧ s.OnlyRegs (· = Reg.PLT_ERRCNT) t) ∧
    (p.val = 0 ∨ s.plotState p.val ≠ 2 → (∃ t, exec (.plotRelease req p) s = .next t ∧ s.OnlyRegs (· = Reg.PLT_ERRCNT) t) ∧
      (∃ t, exec (.plotReset req p) s = .next t ∧ s.OnlyRegs (· = Reg.PLT_ERRCNT) t) ∧
      ∃ t, exec (.plotRestart req p) s = .next t ∧ s.OnlyRegs (· = Reg.PLT_ERRCNT) t)) ∧
  (∀ (p : Fin 8) (s : State),
    (s.plotState p.val = 1 → s.bitAt Reg.FAB_FENCE (8 + p.val) = true → (∀ j ∈ s.grn, j.sup = false ∨ s.supPlot ≠ p.val) →
      ∃ t, exec (.plotFenced p) s = .next t ∧ t.plotState p.val = 2 ∧ ∀ q, q < 8 → q ≠ p.val → t.plotState q = s.plotState q) ∧
    (s.plotState p.val ≠ 1 ∨ s.bitAt Reg.FAB_FENCE (8 + p.val) = false → exec (.plotFenced p) s = .next s) ∧
    (s.plotState p.val = 3 → ∃ t, exec (.plotResetDone p) s = .next t ∧ t.plotState p.val = 2 ∧
      ∀ q, q < 8 → q ≠ p.val → t.plotState q = s.plotState q) ∧
    (s.plotState p.val ≠ 3 → exec (.plotResetDone p) s = .next s))

/-- Page-table and reservation writes, security operations, plot-key generations, OPFW, Granary pages -/
def Obligations.PageTablesReservationsAndSecurityUnits : Prop :=
  (∀ (req : Req) (p : Fin 8) (page : BitVec 8) (v : Word) (s : State), s.Opens req.val (Reg.PLT_PT p.val page.toNat) →
    (bit v 23 = false ∨ 0x180 ≤ getF v ⟨11, 0⟩ ∨ s.fld (Reg.PLT_PGOWN (getF v ⟨11, 0⟩)) Fd.PLT_PGOWN_OWNER = p.val ∨
        s.bitAt (Reg.PLT_PGOWN (getF v ⟨11, 0⟩)) 4 = true →
      ∃ t, exec (.pageTableWrite req p page v) s = .next t ∧ (t.reg (Reg.PLT_PT p.val page.toNat)) &&& 0xFC0FFF = v &&& 0xFC0FFF ∧
        (∀ a, a ≠ Reg.PLT_PT p.val page.toNat → t.reg a = s.reg a) ∧
        (∀ c, c < 16 → s.corePlot c = p.val → t.proc c = { s.proc c with tlb := (s.proc c).tlb.filter (· != page.toNat) }) ∧
        (∀ c, 16 ≤ c ∨ s.corePlot c ≠ p.val → t.proc c = s.proc c) ∧ t.mem = s.mem ∧ t.eff = s.eff) ∧
    (bit v 23 = true → getF v ⟨11, 0⟩ < 0x180 → s.fld (Reg.PLT_PGOWN (getF v ⟨11, 0⟩)) Fd.PLT_PGOWN_OWNER ≠ p.val →
      s.bitAt (Reg.PLT_PGOWN (getF v ⟨11, 0⟩)) 4 = false →
      ∃ t, exec (.pageTableWrite req p page v) s = .next t ∧ s.OnlyRegs (· = Reg.PLT_ERRCNT) t)) ∧
  (∀ (req : Req) (p : Fin 8) (v : Word) (s : State), s.Opens req.val (Reg.PLT_BRES p.val) →
    (s.bresSum p.val Fd.PLT_BRES_RESA v ≤ 16 → s.bresSum p.val Fd.PLT_BRES_RESB v ≤ 16 → ∃ t, exec (.bresWrite req p v) s = .next t ∧
      (t.reg (Reg.PLT_BRES p.val)) &&& 0x3FF = v &&& 0x3FF ∧ s.OnlyRegs (· = Reg.PLT_BRES p.val) t) ∧
    (16 < s.bresSum p.val Fd.PLT_BRES_RESA v ∨ 16 < s.bresSum p.val Fd.PLT_BRES_RESB v →
      ∃ t, exec (.bresWrite req p v) s = .next t ∧ s.OnlyRegs (· = Reg.PLT_ERRCNT) t)) ∧
  (∀ (req : Req) (p : Fin 8) (s : State) (i : Instr) (op n : Nat), s.Opens req.val (Reg.SEC_OP_CTRL p.val) →
    s.fld (Reg.SEC_OP_LEN p.val) Fd.SEC_OP_LEN_LEN = n → i = .secSeal req p ∧ op = 1 ∨ i = .secOpen req p ∧ op = 2 ∨ i = .secSign req p ∧ op = 3 →
    (s.bitAt (Reg.SEC_OP_CTRL p.val) 22 = false → op = 1 ∧ 1 ≤ n ∧ n ≤ 49152 ∨ op = 2 ∧ 29 ≤ n ∧ n ≤ 49180 ∨ op = 3 ∧ p.val = 0 →
      ∃ t, exec i s = .next t ∧ t.bitAt (Reg.SEC_OP_CTRL p.val) 22 = true ∧
        t.fld (Reg.SEC_OP_CTRL p.val) Fd.SEC_OP_CTRL_OP = op ∧ s.OnlyRegs (· = Reg.SEC_OP_CTRL p.val) t) ∧
    (s.bitAt (Reg.SEC_OP_CTRL p.val) 22 = true ∨ op = 1 ∧ ¬ (1 ≤ n ∧ n ≤ 49152) ∨ op = 2 ∧ ¬ (29 ≤ n ∧ n ≤ 49180) ∨ op = 3 ∧ p.val ≠ 0 →
      ∃ t, exec i s = .next t ∧ s.OnlyRegs (fun a => a = Reg.SEC_ERRCNT ∨ a = Reg.SEC_EVT) t)) ∧
  (∀ (p : Fin 8) (s u : State) (bs : List (BitVec 8)) (ok : Bool), s.bitAt (Reg.SEC_OP_CTRL p.val) 22 = true →
    s.secInput p.val (if s.fld (Reg.SEC_OP_CTRL p.val) Fd.SEC_OP_CTRL_OP = 3 then 32 else s.fld (Reg.SEC_OP_LEN p.val) Fd.SEC_OP_LEN_LEN) =
      (u, bs, ok) → ∃ t, exec (.secOpDone p) s = .next t ∧ t.bitAt (Reg.SEC_OP_CTRL p.val) 22 = false ∧ t.bitAt Reg.SEC_EVT 0 = true ∧
      (ok = false → t.fld (Reg.SEC_OP_CTRL p.val) Fd.SEC_OP_CTRL_RES = 2 ∧ t.mem = u.mem) ∧
      (ok = true → s.fld (Reg.SEC_OP_CTRL p.val) Fd.SEC_OP_CTRL_OP = 2 → Crypto.gcmOpen (u.plotKey p.val) bs = none →
        t.fld (Reg.SEC_OP_CTRL p.val) Fd.SEC_OP_CTRL_RES = 1 ∧ t.mem = u.mem) ∧
      (∀ w k, ok = true → s.fld (Reg.SEC_OP_CTRL p.val) Fd.SEC_OP_CTRL_OP = 1 → Tab.get 0 u.sec.iv p.val = k →
        State.busWrites { u with sec := { u.sec with iv := Tab.put 0 u.sec.iv p.val (k + 1) } } 24 p.val
          (16 * (u.reg (Reg.SEC_OP_DST p.val)).toNat) (packWords (Crypto.gcmSeal (u.plotKey p.val) (Crypto.toBytes 12 k) bs)) = (w, true) →
        t.fld (Reg.SEC_OP_CTRL p.val) Fd.SEC_OP_CTRL_RES = 0 ∧ t.mem = w.mem ∧ t.sec = w.sec)) ∧
  (∀ (req : Req) (p : Fin 8) (s : State), s.Opens req.val (Reg.SEC_PKGEN p.val) →
    (s.fld (Reg.SEC_PKGEN p.val) Fd.SEC_PKGEN_GEN < 0xFFFF → ∃ t, exec (.pkgenInc req p) s = .next t ∧
      t.fld (Reg.SEC_PKGEN p.val) Fd.SEC_PKGEN_GEN = s.fld (Reg.SEC_PKGEN p.val) Fd.SEC_PKGEN_GEN + 1 ∧
      s.OnlyRegs (· = Reg.SEC_PKGEN p.val) t) ∧
    (s.fld (Reg.SEC_PKGEN p.val) Fd.SEC_PKGEN_GEN = 0xFFFF → ∃ t, exec (.pkgenInc req p) s = .next t ∧
      s.OnlyRegs (fun a => a = Reg.SEC_ERRCNT ∨ a = Reg.SEC_EVT) t)) ∧
  (∀ (req : Req) (s : State), s.Opens req.val Reg.SEC_CTRL → ∃ t, exec (.opfwSet req) s = .next t ∧ t.bitAt Reg.SEC_CTRL 0 = true ∧
    s.OnlyRegs (· = Reg.SEC_CTRL) t) ∧
  (∀ (req : Req) (v : Word) (s : State),
    (∀ i : BitVec 8, s.Opens req.val (Reg.GRN_BUF i.toNat) →
      (s.grnPortBusy = false → ∃ t, exec (.grnBufWrite req i v) s = .next t ∧ t.reg (Reg.GRN_BUF i.toNat) = v ∧
        s.OnlyRegs (· = Reg.GRN_BUF i.toNat) t) ∧
      (s.grnPortBusy = true → ∃ t, exec (.grnBufWrite req i v) s = .next t ∧ t.fld Reg.GRN_ERRCNT Fd.GRN_ERRCNT_CAUSE = 2 ∧
        s.OnlyRegs (fun a => a = Reg.GRN_ERRCNT ∨ a = Reg.GRN_EVT) t)) ∧
    (∀ page, getF v Fd.GRN_CMD_PAGE = page → s.Opens req.val Reg.GRN_CMD →
      (s.grnPortBusy = false → s.grnProtected page = false → ∃ t, exec (.grnGo req v) s = .next t ∧
        t.grn = s.grn ++ [⟨false, page, (List.range 256).map (fun i => s.reg (Reg.GRN_BUF i))⟩] ∧
        (∀ a, a ≠ Reg.GRN_CMD → a ≠ Reg.GRN_STAT → t.reg a = s.reg a) ∧ t.gran = s.gran ∧ t.mem = s.mem ∧ t.eff = s.eff ∧ t.procs = s.procs) ∧
      (s.grnPortBusy = true ∨ s.grnProtected page = true → ∃ t, exec (.grnGo req v) s = .next t ∧
        t.fld Reg.GRN_ERRCNT Fd.GRN_ERRCNT_CAUSE = (if s.grnPortBusy then 1 else 3) ∧ t.bitAt Reg.GRN_EVT 1 = true ∧
        s.OnlyRegs (fun a => a = Reg.GRN_ERRCNT ∨ a = Reg.GRN_EVT) t))) ∧
  (∀ (page : Nat) (ws : List Word) (js : List GrnJob) (s : State), s.grn = ⟨false, page, ws⟩ :: js → ws.length = 256 →
    s.tyk.waits = [] → ∃ t, exec (.grnProgramDone true) s = .next t ∧ (∀ i, i < 256 → t.granAt (256 * page + i) = ws.getD i 0) ∧
      (∀ a, a < 256 * page ∨ 256 * page + 256 ≤ a → t.granAt a = s.granAt a) ∧ t.bitAt Reg.GRN_EVT 0 = true ∧ t.grn = js ∧
      (∀ a, a ≠ Reg.GRN_STAT → a ≠ Reg.GRN_EVT → t.reg a = s.reg a) ∧ t.mem = s.mem ∧ t.eff = s.eff ∧ t.procs = s.procs) ∧
  (∀ (page : Nat) (ws : List Word) (js : List GrnJob) (s : State), s.grn = ⟨false, page, ws⟩ :: js → s.tyk.waits = [] →
    ∃ t, exec (.grnProgramDone false) s = .next t ∧ t.fld Reg.GRN_ERRCNT Fd.GRN_ERRCNT_CAUSE = 4 ∧ t.grn = js ∧ t.gran = s.gran ∧
      (∀ a, a ≠ Reg.GRN_STAT → a ≠ Reg.GRN_EVT → a ≠ Reg.GRN_ERRCNT → t.reg a = s.reg a) ∧ t.mem = s.mem ∧ t.eff = s.eff ∧ t.procs = s.procs) ∧
  (∀ (ok : Bool) (s : State), (∀ j ∈ s.grn.head?, j.sup = true) → exec (.grnProgramDone ok) s = .next s)

/-- A lane from EN 1 over capability exchange, rate switch and block lock to up; and down again -/
def Obligations.LanesTrainAgreeAndComeUp : Prop :=
  (∀ (req : Req) (n : Fin 8) (s : State), s.Opens req.val (Reg.LNK_L_CFG n.val) → s.dom (domOfLane n.val) = true →
    (s.bitAt (Reg.LNK_L_CFG n.val) 23 = false → ∃ t, exec (.laneEnable req n) s = .next t ∧
      t.bitAt (Reg.LNK_L_CFG n.val) 23 = true ∧ t.nState n.val = (if s.cfgMode n.val = 1 then 5 else 1) ∧
      (∀ a, a ≠ Reg.LNK_L_CFG n.val → a ≠ Reg.LNK_L_STAT n.val → t.reg a = s.reg a) ∧ t.mem = s.mem ∧ t.eff = s.eff ∧ t.procs = s.procs) ∧
    (s.bitAt (Reg.LNK_L_CFG n.val) 23 = true → ∃ t, exec (.laneDisable req n) s = .next t ∧
      t.bitAt (Reg.LNK_L_CFG n.val) 23 = false ∧ t.reg (Reg.LNK_L_STAT n.val) = 0 ∧ (t.lane n.val).setw = none ∧
      (s.nState n.val = 4 → t.bitAt (Reg.LNK_L_EVT n.val) 1 = true))) ∧
  (∀ (n : Fin 8) (s : State), s.nState n.val = 1 → ∃ t, exec (.capSend n) s = .next t ∧
    s.Handed n.val 0 (s.ownFrame n.val 0 0 0 false false (s.nextSeq 0) (s.capBlock n.val)) t ∧
    (∀ a, ¬ inGlean a → t.reg a = s.reg a) ∧ (∀ m, m ≠ n.val → t.lane m = s.lane m) ∧ t.mem = s.mem ∧ t.eff = s.eff ∧ t.procs = s.procs) ∧
  (∀ (n : Fin 8) (f : LinkFrame) (s u : State), s.laneCounts n.val f = u →
    (u.lane n.val).dropped = (s.lane n.val).dropped + f.lost ∧
    (s.bitAt (Reg.LNK_L_STAT n.val) 19 = false → u.regs = s.regs) ∧
    (s.bitAt (Reg.LNK_L_STAT n.val) 19 = true →
      getF (u.reg (Reg.LNK_L_FECCNT n.val)) ⟨15, 0⟩ = min 65535 (getF (s.reg (Reg.LNK_L_FECCNT n.val)) ⟨15, 0⟩ + f.fixed) ∧
      getF (u.reg (Reg.LNK_L_ERRCNT n.val)) ⟨15, 0⟩ = min 65535 (getF (s.reg (Reg.LNK_L_ERRCNT n.val)) ⟨15, 0⟩ + f.spoilt) ∧
      (f.spoilt ≠ 0 → u.bitAt (Reg.LNK_L_EVT n.val) 3 = true)) ∧
    (s.nState n.val ≠ 1 → exec (.capFrame n f) s = .next u) ∧
    (s.nState n.val = 1 → u.frameOpen n.val 0 f = none → ∃ t, exec (.capFrame n f) s = .next t ∧
      t.fld Reg.LNK_LASTERR Fd.LNK_LASTERR_CAUSE = 3 ∧ t.lnk = u.lnk ∧ t.mem = s.mem ∧ t.eff = s.eff ∧ t.procs = s.procs) ∧
    (∀ ws, s.nState n.val = 1 → u.frameOpen n.val 0 f = some ws → ∃ t, exec (.capFrame n f) s = .next t ∧
      (t.lane n.val).block = ws ∧ (∀ m, m ≠ n.val → t.lane m = s.lane m) ∧ t.mem = s.mem ∧ t.eff = s.eff ∧ t.procs = s.procs ∧
      (∀ c, u.computeSet n.val ws = some c →
        ((u.lane n.val).setw = some c → (t.lane n.val).out = (u.lane n.val).out) ∧
        ((u.lane n.val).setw ≠ some c → (u.lane n.val).keyid = 0 → ∃ x, (t.lane n.val).out.getLast? = some x ∧ x.ty = 0 ∧
          getF (x.body.payload.getD 0 0) ⟨12, 12⟩ = 1 ∧ getF (x.body.payload.getD 4 0) ⟨23, 18⟩ = c) ∧
        (bit (ws.getD 0 0) 12 = false → (t.lane n.val).setw = some c ∧
          u.OnlyRegs (fun a => a = Reg.LNK_L_CAP n.val ∨ inGlean a) { t with lnk := u.lnk }) ∧
        (bit (ws.getD 0 0) 12 = true → getF (ws.getD 4 0) ⟨23, 18⟩ = c → (t.lane n.val).setw = some c ∧ t.nState n.val = 2) ∧
        (bit (ws.getD 0 0) 12 = true → getF (ws.getD 4 0) ⟨23, 18⟩ ≠ c → (t.lane n.val).setw = none ∧ t.nState n.val = 1 ∧
          t.fld Reg.LNK_LASTERR Fd.LNK_LASTERR_CAUSE = 6 ∧ t.fld Reg.LNK_LASTERR Fd.LNK_LASTERR_LANE = n.val)) ∧
      (u.computeSet n.val ws = none → (t.lane n.val).setw = none ∧ t.nState n.val = 1 ∧
        t.fld Reg.LNK_LASTERR Fd.LNK_LASTERR_CAUSE = 6))) ∧
  (∀ (n : Fin 8) (ws : List Word) (s : State) (r : Nat) (fec : Bool),
    getF (ws.getD 0 0) ⟨23, 22⟩ = 0 → s.cfgMode n.val = 0 ∨ s.cfgMode n.val = 2 → bit (ws.getD 0 0) 13 = true →
    topRate (s.laneRates n.val &&& getF (ws.getD 0 0) ⟨21, 19⟩) = r → r ≠ 0 →
    (fec = true ↔ s.laneFec n.val = 2 ∨ getF (ws.getD 0 0) ⟨18, 17⟩ = 2 ∨ 1 ≤ s.laneFec n.val ∧ 1 ≤ getF (ws.getD 0 0) ⟨18, 17⟩) →
    ¬ (s.laneFec n.val = 2 ∧ getF (ws.getD 0 0) ⟨18, 17⟩ = 0) → ¬ (s.laneFec n.val = 0 ∧ getF (ws.getD 0 0) ⟨18, 17⟩ = 2) →
    s.computeSet n.val ws = some (16 * r + 8 * b2n fec + 1)) ∧
  (∀ (n : Fin 8) (s : State) (r f w m : Nat), s.nState n.val = 2 → r < 4 → f < 2 → w < 2 → m = 1 ∨ m = 2 →
    (s.lane n.val).setw = some (16 * r + 8 * f + 4 * w + m) → ∃ t, exec (.rateSwitchDone n) s = .next t ∧ t.laneMode n.val = m + 1 ∧
      t.fld (Reg.LNK_L_STAT n.val) Fd.LNK_L_STAT_RATE = r ∧ t.bitAt (Reg.LNK_L_STAT n.val) 19 = decide (f = 1) ∧ t.bitAt (Reg.LNK_L_STAT n.val) 18 = decide (w = 1) ∧
      t.bitAt (Reg.LNK_L_STAT n.val) 17 = false ∧ t.nState n.val = 2 ∧ s.OnlyRegs (· = Reg.LNK_L_STAT n.val) { t with lnk := s.lnk } ∧
      (n.val % 2 = 0 → (t.lane n.val).wide = decide (w = 1) ∧ (t.lane (n.val + 1)).wide = decide (w = 1)) ∧
      (n.val % 2 = 1 → (t.lane n.val).wide = ((s.lane (n.val - 1)).wide && s.laneIsUp (n.val - 1)))) ∧
  (∀ (n : Fin 8) (s : State),
    (s.nState n.val = 2 → s.laneMode n.val = 2 → ∃ t, exec (.blockLock n) s = .next t ∧ t.nState n.val = 3 ∧
      t.bitAt (Reg.LNK_L_STAT n.val) 17 = true ∧ (∀ a, a ≠ Reg.LNK_L_STAT n.val → ¬ inGlean a → t.reg a = s.reg a) ∧ t.mem = s.mem ∧ t.eff = s.eff ∧ t.procs = s.procs ∧
      (s.recovery = true → t.lnk = s.lnk) ∧
      (s.recovery = false → (t.lane n.val).auth = (s.authNew false).1 ∧
        s.Handed n.val 5 (s.ownFrame n.val 0 0 0 false false (s.nextSeq 5) (s.authNew false).1.mine) t)) ∧
    (s.nState n.val = 2 → s.laneMode n.val = 3 → ∃ t, exec (.blockLock n) s = .next t ∧ t.nState n.val = 4 ∧
      t.bitAt (Reg.LNK_L_STAT n.val) 17 = true ∧ t.bitAt (Reg.LNK_L_EVT n.val) 0 = true ∧ (t.lane n.val).lost = false) ∧
    (s.nState n.val = 1 ∨ s.nState n.val = 5 → ∃ t, exec (.blockLock n) s = .next t ∧ t.reg (Reg.LNK_L_STAT n.val) = s.reg (Reg.LNK_L_STAT n.val) ||| oneBit 17 ∧
      s.OnlyRegs (· = Reg.LNK_L_STAT n.val) t) ∧
    (∀ c g, s.nState n.val = 2 → (s.lane n.val).setw = some c → 1 ≤ c / 16 → g = (s.lane n.val).removed ||| 2 ^ (c / 16 - 1) →
      ∃ t, exec (.blockLockTimeout n) s = .next t ∧ t.nState n.val = 1 ∧ t.laneMode n.val = 0 ∧
        t.fld Reg.LNK_LASTERR Fd.LNK_LASTERR_CAUSE = 6 ∧
        (if (2 ^ max 1 (s.fld (Reg.LNK_L_CFG n.val) Fd.LNK_L_CFG_MAXRATE) - 1) &&& (7 - g % 8) = 0
          then (t.lane n.val).removed = 0 ∧ t.bitAt (Reg.LNK_L_EVT n.val) 2 = true else (t.lane n.val).removed = g) ∧
        (∀ a, a ≠ Reg.LNK_L_STAT n.val → a ≠ Reg.LNK_L_EVT n.val → a ≠ Reg.LNK_ERRCNT ∧ a ≠ Reg.LNK_LASTERR ∧ a ≠ Reg.LNK_EVT → t.reg a = s.reg a) ∧ t.mem = s.mem ∧ t.eff = s.eff ∧ t.procs = s.procs) ∧
    (∀ i, i = .blockLockLoss n ∨ i = .lossOfSignal n → s.nState n.val ≠ 0 → ∃ t, exec i s = .next t ∧
      t.nState n.val = (if s.cfgMode n.val = 1 then 5 else 1) ∧ t.laneMode n.val = 0 ∧
      (s.nState n.val = 4 → t.bitAt (Reg.LNK_L_EVT n.val) 1 = true)) ∧
    (s.nState n.val = 1 → s.cfgMode n.val = 0 → s.bitAt (Reg.LNK_L_CFG n.val) 15 = true → (s.lane n.val).block = [] →
      ∃ t, exec (.capWaitTimeout n) s = .next t ∧ t.nState n.val = 5 ∧ s.OnlyRegs (· = Reg.LNK_L_STAT n.val) t) ∧
    (s.nState n.val = 5 → ∃ t, exec (.ethernetSearchEnd n true) s = .next t ∧ t.nState n.val = 4 ∧ t.laneMode n.val = 1 ∧
      t.fld (Reg.LNK_L_STAT n.val) Fd.LNK_L_STAT_RATE = 3 ∧ t.bitAt (Reg.LNK_L_EVT n.val) 0 = true) ∧
    (s.nState n.val = 5 → s.cfgMode n.val ≠ 1 → ∃ t, exec (.ethernetSearchEnd n false) s = .next t ∧ t.nState n.val = 1 ∧
      t.laneMode n.val = 0 ∧ s.OnlyRegs (· = Reg.LNK_L_STAT n.val) t) ∧
    (s.nState n.val = 5 → s.cfgMode n.val = 1 → exec (.ethernetSearchEnd n false) s = .next s) ∧
    (∀ k, s.nState n.val = 3 → s.authKeys (s.lane n.val).auth = some k → ∃ t, exec (.hopAuthDone n) s = .next t ∧ t.nState n.val = 4 ∧
      t.bitAt (Reg.LNK_L_STAT n.val) 16 = true ∧ (t.lane n.val).keyid = 1 ∧ (t.lane n.val).tx = k.1 ∧ (t.lane n.val).rx = k.2 ∧
      t.bitAt (Reg.LNK_L_EVT n.val) 0 = true) ∧
    (s.nState n.val = 3 → s.authKeys (s.lane n.val).auth = none → ∃ t, exec (.hopAuthDone n) s = .next t ∧ t.nState n.val = 1 ∧
      (t.lane n.val).keyid = 0 ∧ t.fld Reg.LNK_LASTERR Fd.LNK_LASTERR_CAUSE = 7 ∧ t.bitAt Reg.LNK_EVT 9 = true ∧
      (s.joined = false → (s.ringOf n.val).isSome = true → t.bitAt Reg.LNK_EVT 8 = true) ∧
      (∀ a, a ≠ Reg.LNK_L_STAT n.val → a ≠ Reg.LNK_ERRCNT ∧ a ≠ Reg.LNK_LASTERR ∧ a ≠ Reg.LNK_EVT → t.reg a = s.reg a) ∧ t.mem = s.mem ∧ t.eff = s.eff ∧ t.procs = s.procs) ∧
    (s.bitAt (Reg.LNK_L_STAT n.val) 16 = true → s.recovery = false → ∃ t, exec (.hopRekey n) s = .next t ∧
      (t.lane n.val).keyid = (s.lane n.val).keyid ∧ (t.lane n.val).auth = (s.authNew false).1 ∧
      s.Handed n.val 5 (s.ownFrame n.val 0 0 0 false false (s.nextSeq 5) (s.authNew false).1.mine) t ∧
      (∀ m, m ≠ n.val → t.lane m = s.lane m) ∧ (∀ a, ¬ inGlean a → t.reg a = s.reg a) ∧ t.mem = s.mem ∧ t.eff = s.eff ∧ t.procs = s.procs))

/-- Frames of every TYPE: dropped where the check fails, later copies counted, their effects, forwarding with HOPS - 1 -/
def Obligations.FramesActOnceAreForwardedOrDropped : Prop :=
  (∀ (n : Fin 8) (f : LinkFrame) (s u : State) (ty : Nat) (i : Instr), s.nState n.val = 3 ∨ s.nState n.val = 4 →
    s.laneCounts n.val f = u → s.frameOpen n.val ty f = none →
    i = .beatFrame n f ∧ ty = 1 ∨ i = .timeFrame n f ∧ ty = 2 ∨ i = .streamFrame n f ∧ ty = 3 ∨ i = .ctrlFrame n f ∧ ty = 4 ∨
      i = .joinFrame n f ∧ ty = 5 ∨ i = .ringFrame n f ∧ ty = 6 → ∃ t, exec i s = .next t ∧
    t.fld Reg.LNK_LASTERR Fd.LNK_LASTERR_CAUSE = 3 ∧ t.bitAt Reg.LNK_EVT 12 = true ∧
    u.OnlyRegs (fun a => a = Reg.LNK_L_ERRCNT n.val ∨ a = Reg.LNK_LASTERR ∨ a = Reg.LNK_EVT ∨ a = Reg.LNK_L_EVT n.val ∨ inGlean a ∨
      (ty = 3 ∨ ty = 4 ∨ ty = 6) ∧ a = Reg.LNK_BADCNT) { t with lnk := u.lnk } ∧
    (∀ other, s.GoesOn n.val ty f other → u.Passed other ty (u.onward other f true) t)) ∧
  (∀ (n : Fin 8) (ty : BitVec 4) (s : State), s.nState n.val = 3 ∨ s.nState n.val = 4 → 9 ≤ ty.toNat →
    ∃ t, exec (.unknownFrameType n ty) s = .next t ∧ t.fld Reg.LNK_LASTERR Fd.LNK_LASTERR_CAUSE = 4 ∧
    s.OnlyRegs (fun a => a = Reg.LNK_L_ERRCNT n.val ∨ a = Reg.LNK_LASTERR ∨ a = Reg.LNK_EVT ∨ a = Reg.LNK_L_EVT n.val ∨ inGlean a) t) ∧
  (∀ (n : Fin 8) (f : LinkFrame) (ws : List Word) (s u : State), s.laneCounts n.val f = u → s.nState n.val = 4 →
    (u.frameOpen n.val 4 f = some ws → u.clearOk n.val 4 f = true →
      (u.isCopy 4 f = true → ∃ t, exec (.ctrlFrame n f) s = .next t ∧
        t.reg Reg.LNK_DUPCNT = (u.bump Reg.LNK_DUPCNT).reg Reg.LNK_DUPCNT ∧
        u.OnlyRegs (fun a => a = Reg.LNK_DUPCNT ∨ inGlean a) { t with lnk := u.lnk } ∧
        ∀ other, u.GoesOn n.val 4 f other → u.Passed other 4 (u.onward other { f with payload := ws } false) t) ∧
      (u.isCopy 4 f = false → u.frameMine f = true →
        (∀ x m, u.e2eOf f.dest.toNat f.src.toNat = some x → x.keyed = true → x.unsealed ws = some m → tykKind m = 0 →
          ∃ t, exec (.ctrlFrame n f) s = .next t ∧ t.tyk.inq = u.tyk.inq ++ [⟨.link, m, u.tyk.holder⟩] ∧ t.lnk.lanes = u.lnk.lanes ∧
            t.isCopy 4 f = true ∧ (∀ a, ¬ inGlean a → t.reg a = u.reg a) ∧ t.mem = s.mem ∧ t.eff = s.eff ∧ t.procs = s.procs) ∧
        (u.e2eOf f.dest.toNat f.src.toNat = none → ∃ t, exec (.ctrlFrame n f) s = .next t ∧
          t.fld Reg.LNK_LASTERR Fd.LNK_LASTERR_CAUSE = 3 ∧ t.tyk = s.tyk ∧ t.lnk.lanes = u.lnk.lanes ∧ t.mem = s.mem ∧ t.eff = s.eff ∧ t.procs = s.procs))) ∧
    (∀ r west other, u.frameOpen n.val 6 f = some ws → u.clearOk n.val 6 f = true → u.isCopy 6 f = false →
      u.ringOf n.val = some (r, west, other) → u.ringHead r = false → u.isManager = false → getF (ws.getD 0 0) ⟨23, 22⟩ = 1 →
      ∃ t, exec (.ringFrame n f) s = .next t ∧ t.bitAt Reg.LNK_RINGSTAT (cutBit r) = true ∧ t.bitAt Reg.LNK_EVT 0 = true ∧
        t.isCopy 6 f = true ∧ (u.GoesOn n.val 6 f other → u.Passed other 6 (u.onward other { f with payload := ws } false) t)) ∧
    (u.frameOpen n.val 1 f = some ws → u.clearOk n.val 1 f = true → (u.lane n.val).lost = false → u.partnerIn n.val = true →
      ∃ t, exec (.beatFrame n f) s = .next t ∧ t.mem = s.mem ∧ t.eff = s.eff ∧ t.procs = s.procs ∧
      (getF (ws.getD 0 0) ⟨23, 21⟩ = 3 → t.bitAt Reg.LNK_STAT 22 = true ∧ t.lnk.mgrAt = s.timebase.toNat ∧
        t.fld Reg.LNK_STAT Fd.LNK_STAT_EPOCH = max (s.fld Reg.LNK_STAT Fd.LNK_STAT_EPOCH) (getF (ws.getD 0 0) ⟨15, 8⟩) ∧
        (s.fld Reg.LNK_STAT Fd.LNK_STAT_EPOCH < getF (ws.getD 0 0) ⟨15, 8⟩ →
          s.fld Reg.LNK_CTRL Fd.LNK_CTRL_ROLE = 3 ∨ s.bitAt Reg.LNK_ADDR 22 = true →
          t.fld Reg.LNK_CTRL Fd.LNK_CTRL_ROLE = 0 ∧ t.bitAt Reg.LNK_ADDR 22 = false ∧ t.joined = false)) ∧
      (getF (ws.getD 0 0) ⟨23, 21⟩ = 4 → s.fld Reg.LNK_CTRL Fd.LNK_CTRL_ROLE = 3 →
        getF (ws.getD 0 0) ⟨15, 8⟩ ≤ s.fld Reg.LNK_STAT Fd.LNK_STAT_EPOCH → t.bitAt Reg.LNK_ADDR 22 = true) ∧
      (∀ other, u.ringOf n.val = some (0, true, other) → u.ringHead 0 = false → f.hops.toNat = (Config.ringHops 0).toNat →
        t.fld Reg.LNK_RINGSTAT Fd.LNK_RINGSTAT_POS = (getF (ws.getD 0 0) ⟨7, 0⟩ + 1) % 256))) ∧
  (∀ (n : Fin 8) (s : State) (r : Nat) (west : Bool) (other : Nat), s.ringLaneUp n.val = true → s.ringOf n.val = some (r, west, other) →
    ∃ t, exec (.beatMiss n) s = .next t ∧ (t.lane n.val).lost = true ∧ t.bitAt Reg.LNK_RINGSTAT (cutBit r) = true ∧
      t.bitAt Reg.LNK_EVT 0 = true) ∧
  (∀ (s : State) (e w h : Nat), s.ringLanes 0 = some (e, w) → s.ringLanes 1 = none → e ≠ w → s.laneIsUp e = true → s.laneIsUp w = true →
    h = (Config.ringHops 0).toNat → ∃ t, exec .beatSend s = .next t ∧
      s.Handed e 1 (s.ownFrame e h 0 0 false true (s.nextSeq 1) [s.beatWord 0]) t ∧
      s.Handed w 1 (s.ownFrame w h 0 0 true true ((s.nextSeq 1 + 1) % 2 ^ 24) [s.beatWord 0]) t ∧
      (∀ a, ¬ inGlean a → t.reg a = s.reg a) ∧ t.mem = s.mem ∧ t.eff = s.eff ∧ t.procs = s.procs) ∧
  (∀ (n : Fin 8) (f : LinkFrame) (x : Word) (s u : State), s.laneCounts n.val f = u → s.nState n.val = 4 →
    u.frameOpen n.val 3 f = some [x] → u.clearOk n.val 3 f = true →
    (idxSeen (Tab.get [] s.lnk.seen f.sid.toNat) f.seq.toNat = false → s.audState ≠ 0 → ∃ t, exec (.streamFrame n f) s = .next t ∧
      (∀ j, j < 16 → bit (s.inEff (Reg.AUD_LNKIN j)) 23 = true → getF (s.inEff (Reg.AUD_LNKIN j)) Fd.AUD_LNKIN_SID = f.sid.toNat →
        (Tab.get [] s.aud.linkIn j).length < 32 → Tab.get [] t.aud.linkIn j = Tab.get [] s.aud.linkIn j ++ [(f.seq.toNat, x)]) ∧
      (∀ j, j < 16 → bit (s.inEff (Reg.AUD_LNKIN j)) 23 = false ∨ getF (s.inEff (Reg.AUD_LNKIN j)) Fd.AUD_LNKIN_SID ≠ f.sid.toNat →
        Tab.get [] t.aud.linkIn j = Tab.get [] s.aud.linkIn j) ∧
      Tab.get [] t.lnk.seen f.sid.toNat = idxTake (Tab.get [] s.lnk.seen f.sid.toNat) f.seq.toNat ∧ t.mem = s.mem ∧ t.eff = s.eff ∧ t.procs = s.procs) ∧
    (idxSeen (Tab.get [] s.lnk.seen f.sid.toNat) f.seq.toNat = true → ∃ t, exec (.streamFrame n f) s = .next t ∧ t.aud = s.aud ∧
      t.reg Reg.LNK_DUPCNT = (s.bump Reg.LNK_DUPCNT).reg Reg.LNK_DUPCNT ∧ (∀ a, a ≠ Reg.LNK_DUPCNT → ¬ inGlean a → t.reg a = u.reg a) ∧ t.mem = s.mem ∧ t.eff = s.eff ∧ t.procs = s.procs)) ∧
  (∀ (n : Fin 8) (s : State) (d a : Nat), s.laneIsUp n.val = true → s.laneMode n.val = 2 → ((s.lane n.val).part).getD (0, 0) = (d, a) →
    ∃ t w, exec (.timeSend n) s = .next t ∧
      s.Handed n.val 2 (s.ownFrame n.val 0 0 0 false false (s.nextSeq 2)
        (timeWords s.timebase.toNat ++ timeWords a ++ timeWords d ++ [w])) t ∧
      (t.lane n.val).sent = some (s.timebase.toNat, (s.lane n.val).part) ∧ (∀ a, ¬ inGlean a → t.reg a = s.reg a) ∧ t.mem = s.mem ∧ t.eff = s.eff ∧ t.procs = s.procs) ∧
  (∀ (n : Fin 8) (f : LinkFrame) (ws : List Word) (s u : State), s.laneCounts n.val f = u → s.nState n.val = 4 →
    u.frameOpen n.val 2 f = some ws → u.clearOk n.val 2 f = true → s.upstream ≠ some n.val →
    (∀ r, s.ringLanes r = none) → ∃ t, exec (.timeFrame n f) s = .next t ∧
      (t.lane n.val).part = some (timeOf ws 0, s.timebase.toNat) ∧ t.timebase = s.timebase ∧ t.mem = s.mem ∧ t.eff = s.eff ∧ t.procs = s.procs ∧
      (∀ t1 t2 t3 : Nat, (s.lane n.val).sent = some (t3, some (t1, t2)) → timeOf ws 6 = t3 → (s.lane n.val).delays = [] →
        t.reg (Reg.LNK_L_DELAY n.val) = wdI (20 * (((timeOf ws 3 : Int) - t1) - ((t3 : Int) - t2)) +
          signed 16 (s.fld (Reg.LNK_L_ASYM n.val) Fd.LNK_L_ASYM_ASYM)))) ∧
  (∀ (n : Fin 8) (s : State) (b : Nat), s.laneIsUp n.val = true → s.laneMode n.val = 3 → s.laneBeam n.val = b →
    s.genState b = 1 ∨ s.genState b = 4 → ∃ t, exec (.relockFrame n) s = .next t ∧
      s.Handed n.val 8 { s.ownFrame n.val 0 0 0 false false (s.nextSeq 8)
        [wd ((s.inEff (Reg.BM_HACT b)).toNat % 2 ^ 14), wd ((s.inEff (Reg.BM_VACT b)).toNat % 2 ^ 13)] with keyid := 0 } t ∧
      (∀ a, ¬ inGlean a → t.reg a = s.reg a) ∧ t.mem = s.mem ∧ t.eff = s.eff ∧ t.procs = s.procs)

/-- Reference selection and slew, loss of manager and standby, the amplifier control channel, routing GO -/
def Obligations.ReferencesManagersAndAmplifiers : Prop :=
  (∀ (k : Fin 4) (s u : State),
    (∀ t0, s.refSince k.val = some t0 → u = s.passTo (t0 + 250000000 * max 1 (s.fld Reg.LNK_REFCFG Fd.LNK_REFCFG_QUAL)) →
      ∃ t, exec (.referenceQualified k) s = .next t ∧ t.bitAt Reg.LNK_REFSTAT (15 + k.val) = true ∧
      t.fld Reg.LNK_REFSTAT Fd.LNK_REFSTAT_TARGET = (u.setBit Reg.LNK_REFSTAT (15 + k.val)).wantRef ∧
      (t.fld Reg.LNK_REFSTAT Fd.LNK_REFSTAT_TARGET ≠ s.fld Reg.LNK_REFSTAT Fd.LNK_REFSTAT_TARGET →
        t.bitAt Reg.LNK_REFSTAT 19 = true ∧ t.bitAt Reg.LNK_EVT 2 = true) ∧
      (t.fld Reg.LNK_REFSTAT Fd.LNK_REFSTAT_TARGET = s.fld Reg.LNK_REFSTAT Fd.LNK_REFSTAT_TARGET → u.OnlyRegs (· = Reg.LNK_REFSTAT) t)) ∧
    (s.refSince k.val = none → exec (.referenceQualified k) s = .next s) ∧
    (k.val ≠ 3 → ∃ t, exec (.referenceInvalid k) s = .next t ∧ t.bitAt Reg.LNK_REFSTAT (15 + k.val) = false ∧
      t.refSince k.val = none ∧ t.fld Reg.LNK_REFSTAT Fd.LNK_REFSTAT_TARGET = (s.clrBit Reg.LNK_REFSTAT (15 + k.val)).wantRef ∧
      (s.refSince k.val = none → t.timebase = s.timebase) ∧
      (t.fld Reg.LNK_REFSTAT Fd.LNK_REFSTAT_TARGET = 3 → s.fld Reg.LNK_REFSTAT Fd.LNK_REFSTAT_TARGET ≠ 3 → t.bitAt Reg.LNK_EVT 3 = true)) ∧
    (∀ j, s.fld Reg.LNK_CTRL Fd.LNK_CTRL_ROLE = 3 → s.fld Reg.LNK_REFCFG Fd.LNK_REFCFG_PRI0 = j → j ≠ 3 →
      s.bitAt Reg.LNK_REFSTAT (15 + j) = true → s.wantRef = j) ∧
    (s.fld Reg.LNK_CTRL Fd.LNK_CTRL_ROLE ≠ 3 → s.bitAt Reg.LNK_ADDR 22 = false →
      s.wantRef = if s.bitAt Reg.LNK_REFSTAT 17 then 2 else 3)) ∧
  (∀ (o : Int) (s : State), s.bitAt Reg.LNK_PTPCFG 12 = true → s.laneIsUp (s.fld Reg.LNK_PTPCFG Fd.LNK_PTPCFG_LANE) = true →
    s.laneMode (s.fld Reg.LNK_PTPCFG Fd.LNK_PTPCFG_LANE) = 1 →
    (-100 ≤ o → o ≤ 100 → s.fld Reg.LNK_REFSTAT Fd.LNK_REFSTAT_TARGET = 1 → ∃ t, exec (.ptpMessage o) s = .next t ∧
      s.OnlyRegs (· = Reg.LNK_REFOFS) { t with lnk := s.lnk } ∧ t.reg Reg.LNK_REFOFS = wdI o ∧
      (s.bitAt Reg.LNK_REFCFG 6 = true → s.refSince 1 = none → t.refSince 1 = some s.timebase.toNat)) ∧
    (o < -100 ∨ 100 < o → ∃ t, exec (.ptpMessage o) s = .next t ∧ t.refSince 1 = none ∧ t.bitAt Reg.LNK_REFSTAT 16 = false ∧
      t.fld Reg.LNK_REFSTAT Fd.LNK_REFSTAT_TARGET ≠ 1 ∧ t.reg Reg.LNK_REFOFS = s.reg Reg.LNK_REFOFS)) ∧
  (∀ s : State, s.bitAt Reg.LNK_REFSTAT 19 = true → ∃ t, exec .slewDone s = .next t ∧ t.bitAt Reg.LNK_REFSTAT 19 = false ∧
    t.fld Reg.LNK_REFSTAT Fd.LNK_REFSTAT_REF = s.fld Reg.LNK_REFSTAT Fd.LNK_REFSTAT_TARGET ∧ t.bitAt Reg.LNK_EVT 4 = true ∧
    (∀ a, a ≠ Reg.LNK_REFSTAT → a ≠ Reg.LNK_EVT → a ≠ Reg.LNK_REFOFS → t.reg a = s.reg a) ∧ t.mem = s.mem ∧ t.eff = s.eff ∧ t.procs = s.procs) ∧
  (∀ s u : State,
    (u = s.passTo (s.lnk.stbyAt + s.mgrTicks / 2) → s.fld Reg.LNK_CTRL Fd.LNK_CTRL_ROLE = 3 →
      s.fld Reg.LNK_MGRCFG Fd.LNK_MGRCFG_STBYADDR ≠ 0 → ∃ t, exec .managerSilent s = .next t ∧
      t.bitAt Reg.LNK_ADDR 22 = false ∧ t.bitAt Reg.LNK_EVT 5 = true ∧ u.OnlyRegs (fun a => a = Reg.LNK_ADDR ∨ a = Reg.LNK_EVT) t) ∧
    (u = s.passTo (s.lnk.mgrAt + s.mgrTicks) → s.bitAt Reg.LNK_MGRCFG 23 = true → s.bitAt Reg.LNK_ADDR 22 = false →
      ∃ t, exec .managerLost s = .next t ∧ t.timebase = u.timebase ∧ (∀ e ∈ s.lnk.dir, e ∈ t.lnk.dir) ∧
      t.bitAt Reg.LNK_ADDR 22 = true ∧ t.isManager = true ∧ t.bitAt Reg.LNK_EVT 6 = true ∧ t.bitAt Reg.LNK_STAT 22 = false ∧
      t.fld Reg.LNK_STAT Fd.LNK_STAT_EPOCH = (s.fld Reg.LNK_STAT Fd.LNK_STAT_EPOCH + 1) % 256)) ∧
  (∀ (k : Fin 4) (s : State), s.ampOn k.val = true →
    (s.bitAt (Reg.LNK_TDMCAP k.val) 23 = false → ∃ t, exec (.capq k) s = .next t ∧
      Tab.get [] t.lnk.amp k.val = Tab.get [] s.lnk.amp k.val ++ [[0x01]] ∧ { t with lnk := s.lnk } = s) ∧
    (∀ ch fl v i : BitVec 8, 1 ≤ ch.toNat → ch.toNat ≤ 8 → ∃ t, exec (.ampCap k [0x81, ch, fl, v, i]) s = .next t ∧
      t.reg (Reg.LNK_TDMCAP k.val) = wd (2 ^ 23 + fl.toNat % 2 * 2 ^ 22 + ch.toNat * 2 ^ 16 + v.toNat * 256 + i.toNat) ∧
      Tab.get [] t.lnk.amp k.val = Tab.get [] s.lnk.amp k.val ++ [[0x02, if s.bitAt Reg.AUD_CTRL 1 then 1 else 0]] ∧
      t.lnk.ampAck.getLsbD k.val = false ∧ (t.port k.val).ctl.heard = s.timebase.toNat ∧
      (t.reg (Reg.LNK_TDMCAP k.val) ≠ s.reg (Reg.LNK_TDMCAP k.val) → t.bitAt Reg.LNK_EVT 10 = true) ∧
      s.OnlyRegs (fun a => a = Reg.LNK_TDMCAP k.val ∨ a = Reg.LNK_EVT) { t with lnk := s.lnk, aud := s.aud }) ∧
    (∃ t, exec (.ampAck k) s = .next t ∧ t.lnk.ampAck.getLsbD k.val = true ∧ (t.port k.val).ctl.heard = s.timebase.toNat ∧
      { t with lnk := s.lnk, aud := s.aud } = s)) ∧
  (∀ (k : Fin 4) (s u : State), u = s.passTo ((s.port k.val).ctl.heard + 25000000) → ∃ t, exec (.ampAbsent k) s = .next t ∧
    t.bitAt (Reg.LNK_TDMCAP k.val) 23 = false ∧ (s.bitAt (Reg.LNK_TDMCAP k.val) 23 = true → t.bitAt Reg.LNK_EVT 10 = true) ∧
    u.OnlyRegs (fun a => a = Reg.LNK_TDMCAP k.val ∨ a = Reg.LNK_EVT) t) ∧
  (∀ (req : Req) (s : State), s.Opens req.val Reg.LNK_RTCMT →
    (s.audState = 2 → ∃ t, exec (.rtcmtGo req) s = .next t ∧ t.bitAt Reg.LNK_RTCMT 22 = true ∧ s.OnlyRegs (· = Reg.LNK_RTCMT) t) ∧
    (s.audState ≠ 2 → ∃ t, exec (.rtcmtGo req) s = .next t ∧ t.bitAt Reg.LNK_RTCMT 22 = false ∧
      (∀ i, i < 256 → t.inEff (Reg.LNK_RT i) = s.reg (Reg.LNK_RT i)) ∧
      (∀ a, (∀ i, i < 256 → a ≠ Reg.LNK_RT i) → t.inEff a = s.inEff a) ∧
      (∀ a, a ≠ Reg.LNK_RTCMT → a ≠ Reg.LNK_ERRCNT ∧ a ≠ Reg.LNK_LASTERR ∧ a ≠ Reg.LNK_EVT → t.reg a = s.reg a) ∧ t.mem = s.mem ∧ t.procs = s.procs))

/-- Interrupt lines, writes of source registers, the request of a processor, CMP, END, hold-off and doorbells -/
def Obligations.InterruptLinesRoutesAndCompletion : Prop :=
  (∀ (n : BitVec 8) (p : Fin 8) (s : State) (a : Nat), n.toNat < 250 → irqReg n.toNat p.val = a →
    ∃ t, exec (.irqLineChange n p) s = .next t ∧ t.bitAt a 20 = s.rawLine n.toNat p.val ∧
      t.bitAt a 21 = (s.bitAt a 23 && (s.bitAt a 21 || (s.rawLine n.toNat p.val && !(s.bitAt a 22 && s.bitAt a 20)))) ∧
      s.OnlyRegs (· = a) t) ∧
  (∀ (req : Req) (n : BitVec 8) (v : Word) (s : State) (k : Nat), getF v Fd.IRQ_SRC_TARGET = k → s.Opens req.val (Reg.IRQ_SRC n.toNat) →
    (n.toNat < 248 → k ≤ 16 → 16 ≤ req.val ∨ k < 16 ∧ s.corePlot k = s.corePlot req.val → ∃ t, exec (.irqSrcWrite req n v) s = .next t ∧
      t.bitAt (Reg.IRQ_SRC n.toNat) 23 = bit v 23 ∧ t.bitAt (Reg.IRQ_SRC n.toNat) 22 = bit v 22 ∧
      t.fld (Reg.IRQ_SRC n.toNat) Fd.IRQ_SRC_LEVEL = getF v Fd.IRQ_SRC_LEVEL ∧ t.fld (Reg.IRQ_SRC n.toNat) Fd.IRQ_SRC_TARGET = k ∧
      t.bitAt (Reg.IRQ_SRC n.toNat) 20 = s.bitAt (Reg.IRQ_SRC n.toNat) 20 ∧ s.OnlyRegs (· = Reg.IRQ_SRC n.toNat) t) ∧
    (∀ c, 248 ≤ n.toNat ∧ c = 5 ∨ n.toNat < 248 ∧ 16 < k ∧ c = 1 ∨
        n.toNat < 248 ∧ k ≤ 16 ∧ req.val < 16 ∧ (k = 16 ∨ s.corePlot k ≠ s.corePlot req.val) ∧ c = 2 →
      ∃ t, exec (.irqSrcWrite req n v) s = .next t ∧ t.fld Reg.IRQ_LASTERR Fd.IRQ_LASTERR_CAUSE = c ∧
        t.fld Reg.IRQ_LASTERR Fd.IRQ_LASTERR_SRC = n.toNat ∧ s.OnlyRegs (fun a => a = Reg.IRQ_ERRCNT ∨ a = Reg.IRQ_LASTERR) t)) ∧
  (∀ (s : State) (t : Nat), s.irqRequest t = true ↔
    ∃ l ∈ irqLines, s.presents t l = true ∧ s.fld (Reg.IRQ_THR t) Fd.IRQ_THR_THR < s.irqLevel l.1 l.2 ∧ s.runLevel t < s.irqLevel l.1 l.2) ∧
  (∀ (req : Req) (q : Proc) (n : BitVec 8) (s : State), s.Opens req.val (Reg.IRQ_DONE q.val) →
    (n.toNat < 250 → n.toNat ≠ 248 → s.pendsOn q.val (n.toNat, 0) = true → ∃ t, exec (.irqCmp req q n) s = .next t ∧
      t.bitAt (Reg.IRQ_SRC n.toNat) 21 = (!s.bitAt (Reg.IRQ_SRC n.toNat) 22 && s.rawLine n.toNat 0) ∧
      t.irqHeld.getLsbD (n.toNat / 16) = (s.irqHeld.getLsbD (n.toNat / 16) || s.fld (Reg.IRQ_GRP (n.toNat / 16)) Fd.IRQ_GRP_HOLD != 0) ∧
      (∀ g, g ≠ n.toNat / 16 → t.irqHeld.getLsbD g = s.irqHeld.getLsbD g) ∧
      (∀ h, s.fld (Reg.IRQ_GRP (n.toNat / 16)) Fd.IRQ_GRP_HOLD = h → h ≠ 0 →
        Tab.get 0 t.irqUntil (n.toNat / 16) = s.timebase.toNat + 250 * h) ∧
      s.OnlyRegs (· = Reg.IRQ_SRC n.toNat) { t with irqHeld := s.irqHeld, irqUntil := s.irqUntil }) ∧
    ((∀ l ∈ irqLines, l.1 = n.toNat → s.pendsOn q.val l = false) → ∃ t, exec (.irqCmp req q n) s = .next t ∧
      t.fld Reg.IRQ_LASTERR Fd.IRQ_LASTERR_CAUSE = 3 ∧ s.OnlyRegs (fun a => a = Reg.IRQ_ERRCNT ∨ a = Reg.IRQ_LASTERR) t) ∧
    (s.reg (Reg.IRQ_RUN q.val) &&& 0xFFFE ≠ 0 → ∃ t, exec (.irqEnd req q) s = .next t ∧
      (∀ i, 1 ≤ i → i < 16 → t.bitAt (Reg.IRQ_RUN q.val) i = (s.bitAt (Reg.IRQ_RUN q.val) i && i != s.runLevel q.val)) ∧
      t.fld (Reg.IRQ_RUN q.val) Fd.IRQ_RUN_RUN = t.runLevel q.val ∧ t.runLevel q.val < s.runLevel q.val ∧
      s.OnlyRegs (· = Reg.IRQ_RUN q.val) t) ∧
    (s.reg (Reg.IRQ_RUN q.val) &&& 0xFFFE = 0 → ∃ t, exec (.irqEnd req q) s = .next t ∧
      t.fld Reg.IRQ_LASTERR Fd.IRQ_LASTERR_CAUSE = 4 ∧ s.OnlyRegs (fun a => a = Reg.IRQ_ERRCNT ∨ a = Reg.IRQ_LASTERR) t)) ∧
  (∀ (g : Fin 16) (s u : State), (if s.irqHeld.getLsbD g.val = true then s.passTo (Tab.get 0 s.irqUntil g.val) else s) = u →
    ∃ t, exec (.holdoffEnd g) s = .next t ∧ (∀ i, t.irqHeld.getLsbD i = (s.irqHeld.getLsbD i && i != g.val)) ∧
    { t with irqHeld := u.irqHeld, irqUntil := u.irqUntil } = u) ∧
  (∀ (req : Req) (c : Fin 16) (s : State), s.Opens req.val (Reg.IRQ_BELL c.val) →
    (∃ t, exec (.bellRing req c) s = .next t ∧ t.bitAt (Reg.IRQ_BELL c.val) 0 = true ∧ s.OnlyRegs (· = Reg.IRQ_BELL c.val) t) ∧
    (∃ t, exec (.bellClr req c) s = .next t ∧ t.bitAt (Reg.IRQ_BELL c.val) 0 = false ∧ s.OnlyRegs (· = Reg.IRQ_BELL c.val) t))

/-- A tine event: published, accepted with merging at the entry stage, delivered to TIN_SEEN, gate units, timers and Drill -/
def Obligations.TineEventsAreAcceptedAndDelivered : Prop :=
  (∀ (req : Req) (p : Fin 8) (c : Tine) (s : State), s.Opens req.val (Reg.TIN_PUB p.val) →
    (s.bitAt (Reg.TIN_ACL c.toNat) p.val = true → ∃ t, exec (.tinPub req p c) s = .next t ∧
      t.tin.waiting = s.tin.waiting ++ [⟨c.toNat, false⟩] ∧ t.tin.transit = s.tin.transit ∧
      s.OnlyRegs (fun _ => False) { t with tin := s.tin }) ∧
    (s.bitAt (Reg.TIN_ACL c.toNat) p.val = false → ∃ t, exec (.tinPub req p c) s = .next t ∧
      t.fld Reg.TIN_LASTERR Fd.TIN_LASTERR_CAUSE = 2 ∧ t.fld Reg.TIN_LASTERR Fd.TIN_LASTERR_PLOT = p.val ∧
      s.OnlyRegs (fun a => a = Reg.TIN_ERRCNT ∨ a = Reg.TIN_LASTERR) t)) ∧
  (∀ (c : Tine) (s : State) (ws : List TineEvent), s.tin.waiting.filter (fun e => e.tine == c.toNat) = ws →
    (ws = [] → exec (.tineEntry c) s = .next s) ∧
    (ws ≠ [] → ∃ t, exec (.tineEntry c) s = .next t ∧ t.tin.waiting = s.tin.waiting.filter (fun e => e.tine != c.toNat) ∧
      (∃ g, t.tin.transit = s.tin.transit ++ [⟨c.toNat, g⟩] ∧ (g = true ↔ ∀ e ∈ ws, e.fromGate = true)) ∧
      (1 < ws.length → t.bitAt (Reg.TIN_MRG (c.toNat / 24)) (c.toNat % 24) = true) ∧
      (ws.length = 1 → t.regs = s.regs) ∧
      s.OnlyRegs (· = Reg.TIN_MRG (c.toNat / 24)) { t with tin := s.tin })) ∧
  (∀ (c : Tine) (s : State),
    ((∀ e ∈ s.tin.transit, e.tine ≠ c.toNat) → exec (.tineDelivery c) s = .next s) ∧
    (∀ e, s.tin.transit.find? (fun e => e.tine == c.toNat) = some e → ∃ t, exec (.tineDelivery c) s = .next t ∧
      t.tin.transit = s.tin.transit.erase e ∧
      (∀ p, p < 8 → t.bitAt (Reg.TIN_SEEN p (c.toNat / 24)) (c.toNat % 24) = true) ∧
      (∀ k, k < 16 → e.fromGate = false → s.bitAt (Reg.TIN_GU k) 23 = true → s.fld (Reg.TIN_GU k) Fd.TIN_GU_IN = c.toNat →
        s.gateSignal k (s.fld (Reg.TIN_GU k) Fd.TIN_GU_SIG) = !s.bitAt (Reg.TIN_GU k) 22 →
        ⟨s.fld (Reg.TIN_GU k) Fd.TIN_GU_OUT, true⟩ ∈ t.tin.waiting) ∧
      (∀ k, k < 16 → s.frozen 0 = false → s.tmrTine k = false → s.bitAt (Reg.TMR_T_CFG k) 23 = true →
        s.fld (Reg.TMR_T_CFG k) Fd.TMR_T_CFG_STINE = c.toNat → s.tmrRun k = false →
        t.tmrRun k = true ∧ t.tmrCnt k = wide (s.reg (Reg.TMR_T_PHASEHI k)) (s.reg (Reg.TMR_T_PHASELO k))) ∧
      (∀ k, k < 16 → s.frozen 0 = false → s.tmrTine k = true → s.fld (Reg.TMR_T_CTRL k) Fd.TMR_T_CTRL_CTINE = c.toNat →
        s.bitAt (Reg.TMR_T_CFG k) 23 = false → s.tmr.busy.getLsbD k = true →
        t.bitAt (Reg.TMR_T_EVT k) 2 = true ∧ t.tmrCnt k = s.tmrCnt k) ∧
      (∀ k, k < 32 → s.bitAt (Reg.DRL_CH_CTRL k) 23 = true → s.bitAt (Reg.DRL_CH_CFG k) 23 = true →
        s.fld (Reg.DRL_CH_CFG k) Fd.DRL_CH_CFG_TTINE = c.toNat → t.drl.grant.getLsbD k = true)))

/-- Capture and wrap of the timebase; start, group start, stop, capture, load and advance of timers -/
def Obligations.TimersStartCountMatchAndCapture : Prop :=
  (∀ (req : Req) (p : Fin 8) (s : State), s.Opens req.val (Reg.TMR_TBCMD p.val) → ∃ t, exec (.tbCapture req p) s = .next t ∧
    t.bitAt (Reg.TMR_TBCMD p.val) 22 = true ∧
    (t.reg (Reg.TMR_TB2 p.val)).toNat * 2 ^ 48 + (t.reg (Reg.TMR_TB1 p.val)).toNat * 2 ^ 24 + (t.reg (Reg.TMR_TB0 p.val)).toNat = s.timebase.toNat ∧
    s.OnlyRegs (fun a => a = Reg.TMR_TBCMD p.val ∨ a = Reg.TMR_TB2 p.val ∨ a = Reg.TMR_TB1 p.val ∨ a = Reg.TMR_TB0 p.val) t) ∧
  (∀ s : State, ∃ t, exec .timebaseWrap s = .next t ∧ t.timebase = 0 ∧ t.bitAt Reg.TMR_EVT 0 = true ∧
    s.OnlyRegs (· = Reg.TMR_EVT) { t with timebase := s.timebase, tmr := s.tmr } ∧ t.tmr.cnt = s.tmr.cnt) ∧
  (∀ (req : Req) (k : Fin 16) (s : State) (ph : BitVec 48), s.Opens req.val (Reg.TMR_T_CTRL k.val) →
    wide (s.reg (Reg.TMR_T_PHASEHI k.val)) (s.reg (Reg.TMR_T_PHASELO k.val)) = ph →
    (s.tmrTine k.val = false →
      (∃ t, exec (.timerStart req k) s = .next t ∧ t.tmrRun k.val = true ∧ t.tmrCnt k.val = ph ∧
        t.tmrMatch k.val = wide (s.reg (Reg.TMR_T_MATCHHI k.val)) (s.reg (Reg.TMR_T_MATCHLO k.val)) ∧
        (∀ j, j ≠ k.val → t.tmrCnt j = s.tmrCnt j) ∧ (∀ a, a ≠ (Reg.TMR_T_CTRL k.val) → t.reg a = s.reg a) ∧ t.mem = s.mem ∧ t.procs = s.procs) ∧
      (∃ t, exec (.timerCap req k) s = .next t ∧
        wide (t.reg (Reg.TMR_T_CAPHI k.val)) (t.reg (Reg.TMR_T_CAPLO k.val)) = s.tmrCnt k.val ∧
        s.OnlyRegs (fun a => a = Reg.TMR_T_CAPHI k.val ∨ a = Reg.TMR_T_CAPLO k.val) t) ∧
      (∃ t, exec (.timerLoad req k) s = .next t ∧
        t.tmrCnt k.val = wide (s.reg (Reg.TMR_T_LDHI k.val)) (s.reg (Reg.TMR_T_LDLO k.val)) ∧
        (∀ j, j ≠ k.val → t.tmrCnt j = s.tmrCnt j) ∧ s.OnlyRegs (fun _ => False) { t with tmr := s.tmr })) ∧
    (s.tmrTine k.val = true →
      (∃ t, exec (.timerStart req k) s = .next t ∧ t.tmr.start.getLsbD k.val = true ∧ t.tmr.cnt = s.tmr.cnt ∧
        s.OnlyRegs (fun _ => False) { t with tmr := s.tmr }) ∧
      (∃ t, exec (.timerCap req k) s = .next t ∧ t.tmr.cap.getLsbD k.val = true ∧ t.tmr.cnt = s.tmr.cnt ∧
        s.OnlyRegs (fun _ => False) { t with tmr := s.tmr }) ∧
      (∃ t, exec (.timerLoad req k) s = .next t ∧ t.tmr.load.getLsbD k.val = true ∧ t.tmr.cnt = s.tmr.cnt ∧
        s.OnlyRegs (fun _ => False) { t with tmr := s.tmr })) ∧
    (∃ t, exec (.timerStop req k) s = .next t ∧ t.tmrRun k.val = false ∧ s.OnlyRegs (· = (Reg.TMR_T_CTRL k.val)) t)) ∧
  (∀ (req : Req) (p : Fin 8) (mask : BitVec 16) (d : Nat) (s : State), s.Opens req.val (Reg.TMR_GSTART p.val) →
    ((∀ k, k < 16 → mask.getLsbD k = true → s.ownerRes 6 k = p.val ∧ s.tmrTine k = false ∧
        s.fld (Reg.TMR_T_CTRL k) Fd.TMR_T_CTRL_DIV = d) → ∃ t, exec (.gstart req p mask) s = .next t ∧
      (∀ k, k < 16 → mask.getLsbD k = true → t.tmrRun k = true ∧
        t.tmrCnt k = wide (s.reg (Reg.TMR_T_PHASEHI k)) (s.reg (Reg.TMR_T_PHASELO k))) ∧
      (∀ k, k < 16 → mask.getLsbD k = false → t.tmrRun k = s.tmrRun k ∧ t.tmrCnt k = s.tmrCnt k)) ∧
    (∀ k, k < 16 → mask.getLsbD k = true → s.ownerRes 6 k ≠ p.val ∨ s.tmrTine k = true → ∃ t, exec (.gstart req p mask) s = .next t ∧
      t.fld Reg.TMR_LASTERR Fd.TMR_LASTERR_CAUSE = 2 ∧ t.tmr = s.tmr ∧
      s.OnlyRegs (fun a => a = Reg.TMR_ERRCNT ∨ a = Reg.TMR_LASTERR ∨ a = Reg.TMR_EVT) t)) ∧
  (∀ (k : Fin 16) (s : State) (c m n : BitVec 48), s.tmrRun k.val = true → s.tmrTine k.val = false → s.frozen 0 = false →
    s.tmrCnt k.val = c → s.tmrMatch k.val = m → n = (if s.tmrMode k.val ≠ 0 ∧ c = m then 0 else c + 1) → ∃ t, exec (.timerAdvance k) s = .next t ∧
      t.tmrCnt k.val = n ∧ (∀ j, j ≠ k.val → t.tmrCnt j = s.tmrCnt j) ∧
      t.bitAt (Reg.TMR_T_EVT k.val) 0 = (s.bitAt (Reg.TMR_T_EVT k.val) 0 || decide (n = m)) ∧
      t.bitAt (Reg.TMR_T_EVT k.val) 1 = (s.bitAt (Reg.TMR_T_EVT k.val) 1 || decide (c = 0xFFFFFFFFFFFF)) ∧
      t.tmrRun k.val = !(decide (n = m) && decide (s.tmrMode k.val = 2)) ∧
      (∀ a, a ≠ Reg.TMR_T_EVT k.val → a ≠ (Reg.TMR_T_CTRL k.val) → t.reg a = s.reg a) ∧ t.mem = s.mem ∧ t.procs = s.procs)

/-- A Drill channel: GO, a burst that moves its words, the end of a block, disable -/
def Obligations.DrillBlocksAndBursts : Prop :=
  (∀ (req : Req) (c : Fin 32) (s : State), s.Opens req.val (Reg.DRL_CH_CTRL c.val) →
    (∀ k, s.reg (Reg.DRL_CH_COUNT c.val) = 0 ∧ k = 1 ∨ s.reg (Reg.DRL_CH_COUNT c.val) ≠ 0 ∧ s.bitAt (Reg.DRL_CH_CTRL c.val) 20 = true ∧ k = 2 →
      ∃ t, exec (.drillGo req c) s = .next t ∧ t.fld Reg.DRL_LASTERR Fd.DRL_LASTERR_CAUSE = k ∧
        t.fld Reg.DRL_LASTERR Fd.DRL_LASTERR_CHAN = c.val ∧ s.OnlyRegs (fun a => a = Reg.DRL_ERRCNT ∨ a = Reg.DRL_LASTERR) t) ∧
    (s.reg (Reg.DRL_CH_COUNT c.val) ≠ 0 → s.bitAt (Reg.DRL_CH_CTRL c.val) 20 = false → ∃ t, exec (.drillGo req c) s = .next t ∧
      (s.drlOverlaps c.val = true → t.bitAt (Reg.DRL_CH_EVT c.val) 2 = true) ∧
      (s.bitAt (Reg.DRL_CH_CTRL c.val) 21 = true → t.bitAt (Reg.DRL_CH_CTRL c.val) 20 = true ∧ t.eff = s.eff ∧
        t.reg (Reg.DRL_CH_ACNT c.val) = s.reg (Reg.DRL_CH_ACNT c.val)) ∧
      (s.bitAt (Reg.DRL_CH_CTRL c.val) 21 = false → t.bitAt (Reg.DRL_CH_CTRL c.val) 21 = true ∧ t.bitAt (Reg.DRL_CH_CTRL c.val) 20 = false ∧
        t.reg (Reg.DRL_CH_ASRC c.val) = s.reg (Reg.DRL_CH_SRC c.val) ∧ t.reg (Reg.DRL_CH_ADST c.val) = s.reg (Reg.DRL_CH_DST c.val) ∧
        t.reg (Reg.DRL_CH_ACNT c.val) = s.reg (Reg.DRL_CH_COUNT c.val) ∧ t.inEff (Reg.DRL_CH_XCFG c.val) = s.reg (Reg.DRL_CH_XCFG c.val)) ∧
      (∀ a, a ≠ (Reg.DRL_CH_CTRL c.val) → a ≠ Reg.DRL_CH_EVT c.val → a ≠ Reg.DRL_OVLCNT → a ≠ Reg.DRL_CH_ASRC c.val → a ≠ Reg.DRL_CH_ADST c.val →
        a ≠ Reg.DRL_CH_ACNT c.val → t.reg a = s.reg a) ∧ t.mem = s.mem ∧ t.procs = s.procs) ∧
    (∃ t, exec (.drillDisable req c) s = .next t ∧ t.bitAt (Reg.DRL_CH_CTRL c.val) 23 = false ∧ t.bitAt (Reg.DRL_CH_CTRL c.val) 21 = false ∧
      t.bitAt (Reg.DRL_CH_CTRL c.val) 20 = false ∧ t.drl.grant.getLsbD c.val = false ∧
      (∀ j, j ≠ c.val → t.drl.grant.getLsbD j = s.drl.grant.getLsbD j) ∧
      (∀ a, a ≠ (Reg.DRL_CH_CTRL c.val) → a ≠ Reg.DRL_CH_ASRC c.val → a ≠ Reg.DRL_CH_ADST c.val → a ≠ Reg.DRL_CH_ACNT c.val → t.reg a = s.reg a) ∧
      t.mem = s.mem ∧ t.eff = s.eff ∧ t.procs = s.procs)) ∧
  (∀ (s : State) (n : Nat),
    (14 ≤ n → s.requestLine n = false) ∧
    (n ∈ [0, 1, 2, 3, 8, 10, 12] → s.requestLine n = decide (Tab.get 0 s.drl.fifo n ≤ 8)) ∧
    (n ∈ [4, 5, 6, 7, 9, 11, 13] → s.requestLine n = decide (8 ≤ Tab.get 0 s.drl.fifo n))) ∧
  (∀ (fifo : List (Fin 17)) (s u : State), s.setFifos fifo = u → { u with drl := s.drl } = s ∧
    (∀ rd wr, u.drlPick = none ∨ s.frozen 1 = true ∨ s.drawTag 20 .normal = none → exec (.drillBurst fifo rd wr) s = .next u) ∧
    (∀ c n src dst, s.frozen 1 = false → (s.drawTag 20 .normal).isSome = true →
      u.drlPick = some c → s.drlSize c = n → s.bitAt (Reg.DRL_CH_CFG c) 6 = true → s.bitAt (Reg.DRL_CH_CFG c) 5 = true →
      s.drlSrc c = src → s.drlDst c = dst → src + n ≤ fieldWords → dst + n ≤ fieldWords → s.Quiet → s.refuses (s.ownerRes 5 c) = false →
      ∃ t, exec (.drillBurst fifo .ok .ok) s = .next t ∧
        (∀ i, i < n → t.memAt (dst + i) = s.memAt (src + i)) ∧ (∀ a, a < dst ∨ dst + n ≤ a → t.memAt a = s.memAt a) ∧
        (t.reg (Reg.DRL_CH_ACNT c)).toNat = (s.reg (Reg.DRL_CH_ACNT c)).toNat - n ∧
        (t.reg (Reg.DRL_CH_ASRC c)) = wd (src + n) ∧ (t.reg (Reg.DRL_CH_ADST c)) = wd (dst + n) ∧
        (∀ a, ¬ inGlean a → ¬ tagReg a → a ≠ Reg.DRL_CH_ACNT c → a ≠ Reg.DRL_CH_ASRC c → a ≠ Reg.DRL_CH_ADST c → t.reg a = s.reg a))) ∧
  (∀ (c : Fin 32) (s : State), s.bitAt (Reg.DRL_CH_CTRL c.val) 21 = true → s.reg (Reg.DRL_CH_ACNT c.val) = 0 → ∃ t, exec (.drillBlockDone c) s = .next t ∧
    t.reg (Reg.DRL_CH_BLKCNT c.val) = s.reg (Reg.DRL_CH_BLKCNT c.val) + 1 ∧ t.bitAt (Reg.DRL_CH_EVT c.val) 0 = true ∧
    (s.bitAt (Reg.DRL_CH_CTRL c.val) 20 = false → t.bitAt (Reg.DRL_CH_CTRL c.val) 21 = false ∧ t.eff = s.eff) ∧
    (s.bitAt (Reg.DRL_CH_CTRL c.val) 20 = true → t.bitAt (Reg.DRL_CH_CTRL c.val) 21 = true ∧ t.bitAt (Reg.DRL_CH_CTRL c.val) 20 = false ∧
      t.reg (Reg.DRL_CH_ACNT c.val) = s.reg (Reg.DRL_CH_COUNT c.val) ∧ t.reg (Reg.DRL_CH_ASRC c.val) = s.reg (Reg.DRL_CH_SRC c.val)) ∧
    (s.bitAt (Reg.DRL_CH_CFG c.val) 15 = true →
      t.tin.waiting = s.tin.waiting ++ [⟨s.fld (Reg.DRL_CH_CFG c.val) Fd.DRL_CH_CFG_ETINE, false⟩]) ∧ t.mem = s.mem ∧ t.procs = s.procs)

/-- The SPI target port, set and clear of outputs bit by bit, the pin filter -/
def Obligations.HostPortAndPinsAct : Prop :=
  (∀ s : State, s.dom 19 = true →
    (∃ t, exec .spiStatus s = .next t ∧ t.respOf hostPort = ⟨wd (128 * b2n s.outRdy + 64 * b2n s.inRdy + b2n s.pads.spiErr), [], .ok⟩ ∧
      t.pads.spiErr = false ∧ { t with pads := s.pads, resp := s.resp } = s) ∧
    (∀ bytes : List (BitVec 8), s.inRdy = true → 12 ≤ bytes.length → bytes.length = 3 * (4 + tykLen (bytesToWords bytes)) →
      ∃ t, exec (.spiWrite bytes) s = .next t ∧ t.tyk.inq = s.tyk.inq ++ [⟨.spi, bytesToWords bytes, s.tyk.holder⟩] ∧ { t with tyk := s.tyk } = s) ∧
    (∀ bytes : List (BitVec 8), s.inRdy = false ∨ bytes.length < 12 ∨ bytes.length ≠ 3 * (4 + tykLen (bytesToWords bytes)) →
      ∃ t, exec (.spiWrite bytes) s = .next t ∧ t.pads.spiErr = true ∧ t.fld Reg.GPO_LASTERR Fd.GPO_LASTERR_CAUSE = 4 ∧
        s.OnlyRegs (fun a => a = Reg.GPO_ERRCNT ∨ a = Reg.GPO_LASTERR) { t with pads := s.pads }) ∧
    (∀ f : List (BitVec 8), s.tyk.out.find? (fun x => x.1 == .spi) = some (.spi, f) → ∃ t, exec .spiRead s = .next t ∧
      t.respOf hostPort = ⟨(f.getD 0 0).setWidth 24, (f.drop 1).map (fun b => b.setWidth 24), .ok⟩ ∧
      t.tyk.out = s.tyk.out.erase (.spi, f) ∧ { t with tyk := s.tyk, resp := s.resp } = s) ∧
    (s.outRdy = false → ∃ t, exec .spiRead s = .next t ∧ t.pads.spiErr = true ∧ s.OnlyRegs (fun a => a = Reg.GPO_ERRCNT ∨ a = Reg.GPO_LASTERR) { t with pads := s.pads }) ∧
    (∃ t, exec .spiCsTimeout s = .next t ∧ t.pads.spiErr = true ∧ t.fld Reg.GPO_LASTERR Fd.GPO_LASTERR_CAUSE = 4 ∧
      s.OnlyRegs (fun a => a = Reg.GPO_ERRCNT ∨ a = Reg.GPO_LASTERR) { t with pads := s.pads })) ∧
  (∀ (req : Req) (k : Fin 2) (v : Word) (s : State),
    (s.Opens req.val (Reg.GPO_OUTSET k.val) → ∃ t, exec (.gpoOutset req k v) s = .next t ∧
      (∀ i, i < 24 → t.bitAt (Reg.GPO_OUT k.val) i = (s.bitAt (Reg.GPO_OUT k.val) i || (bit v i && s.pinMay req.val (24 * k.val + i) true))) ∧
      ((∃ i, i < 24 ∧ bit v i = true ∧ s.pinMay req.val (24 * k.val + i) true = false) → t.fld Reg.GPO_LASTERR Fd.GPO_LASTERR_CAUSE = 2) ∧
      ((∀ i, i < 24 → bit v i = true → s.pinMay req.val (24 * k.val + i) true = true) → t.reg Reg.GPO_ERRCNT = s.reg Reg.GPO_ERRCNT) ∧
      s.OnlyRegs (fun a => a = Reg.GPO_OUT k.val ∨ a = Reg.GPO_ERRCNT ∨ a = Reg.GPO_LASTERR) t) ∧
    (s.Opens req.val (Reg.GPO_OUTCLR k.val) → ∃ t, exec (.gpoOutclr req k v) s = .next t ∧
      (∀ i, i < 24 → t.bitAt (Reg.GPO_OUT k.val) i = (s.bitAt (Reg.GPO_OUT k.val) i && !(bit v i && s.pinMay req.val (24 * k.val + i) true))) ∧
      ((∃ i, i < 24 ∧ bit v i = true ∧ s.pinMay req.val (24 * k.val + i) true = false) → t.fld Reg.GPO_LASTERR Fd.GPO_LASTERR_CAUSE = 2) ∧
      s.OnlyRegs (fun a => a = Reg.GPO_OUT k.val ∨ a = Reg.GPO_ERRCNT ∨ a = Reg.GPO_LASTERR) t)) ∧
  (∀ (n : Fin 48) (level : Bool) (s : State),
    (s.padOn n.val = true → s.pads.filt.getLsbD n.val ≠ level → s.secPin n.val = false → n.val < 40 → ∃ t, exec (.pinFilter n level) s = .next t ∧
      t.pads.filt.getLsbD n.val = level ∧ (∀ m, m ≠ n.val → t.pads.filt.getLsbD m = s.pads.filt.getLsbD m) ∧
      t.bitAt (Reg.GPO_EVT (n.val / 24)) (n.val % 24) = (s.bitAt (Reg.GPO_EVT (n.val / 24)) (n.val % 24) ||
        (s.dom 19 && irqmTakes (s.fld (Reg.GPO_PIN_CFG n.val) Fd.GPO_PIN_CFG_IRQM) level)) ∧
      s.OnlyRegs (· = Reg.GPO_EVT (n.val / 24)) { t with pads := s.pads }) ∧
    (s.pads.filt.getLsbD n.val = level → exec (.pinFilter n level) s = .next s))

/-- The voltage loop, the VREQ frame and its answer, the thermal limit, the junction sensor and its trip -/
def Obligations.VoltageLoopRequestsAndThermalLimit : Prop :=
  (∀ (m : Nat) (s : State), s.dom 2 = true → s.declareAll.pwr.winMin = m → ∃ t, exec .vloopWindow s = .next t ∧
    (s.bitAt Reg.PWR_VLOOP 23 = false → t.pwr.need = 0 ∧ t.pwr.windows = 0) ∧
    t.pwr.winMin = s.declareAll.fld Reg.FAB_TOL Fd.FAB_TOL_TOL ∧
    (s.bitAt Reg.PWR_VLOOP 23 = true →
      (m < 16 * s.fld Reg.PWR_VLOOP Fd.PWR_VLOOP_LOWSLACK → t.pwr.need = min (s.pwr.need + 1) 35) ∧
      (16 * s.fld Reg.PWR_VLOOP Fd.PWR_VLOOP_HIGHSLACK < m → t.pwr.windows = s.pwr.windows + 1) ∧
      (m ≤ 16 * s.fld Reg.PWR_VLOOP Fd.PWR_VLOOP_HIGHSLACK → t.pwr.windows = 0) ∧
      (16 * s.fld Reg.PWR_VLOOP Fd.PWR_VLOOP_LOWSLACK ≤ m → 16 * s.fld Reg.PWR_VLOOP Fd.PWR_VLOOP_HIGHSLACK < m →
        t.pwr.need = if max 1 (s.fld Reg.PWR_VLOOP Fd.PWR_VLOOP_DOWNWIN) ≤ s.pwr.windows + 1 ∧ s.bitAt Reg.PWR_VLOOP 22 = true
          then s.pwr.need - 1 else s.pwr.need) ∧
      (16 * s.fld Reg.PWR_VLOOP Fd.PWR_VLOOP_LOWSLACK ≤ m → m ≤ 16 * s.fld Reg.PWR_VLOOP Fd.PWR_VLOOP_HIGHSLACK →
        t.pwr.need = s.pwr.need)) ∧
    (∀ need limit target req, t.pwr.need = need → limit = min (s.fld Reg.PWR_VSTAT Fd.PWR_VSTAT_THERM) (s.codeAt Reg.PWR_VCEIL) →
      target = min limit (max (s.codeAt Reg.PWR_VFLOOR) need) → s.fld Reg.PWR_VSTAT Fd.PWR_VSTAT_REQ = req →
      t.fld Reg.PWR_VSTAT Fd.PWR_VSTAT_REQ = (if req < target then req + 1 else if target < req then req - 1 else req) ∧
      t.bitAt Reg.PWR_VSTAT 5 = decide (limit < need) ∧
      (limit < need → s.bitAt Reg.PWR_VSTAT 5 = false → t.bitAt Reg.PWR_EVT 2 = true) ∧
      (s.pwr.inFrame = none → req ≠ target → t.pwr.inFrame = some (t.fld Reg.PWR_VSTAT Fd.PWR_VSTAT_REQ))) ∧
    s.declareAll.OnlyRegs (fun a => a = Reg.PWR_VSTAT ∨ a = Reg.PWR_EVT ∨ a = Reg.PWR_VCAPCNT) { t with pwr := s.declareAll.pwr }) ∧
  (∀ (c : Nat) (s : State), s.pwr.inFrame = some c → c ≤ 35 →
    (∃ t, exec (.vreqResponse true) s = .next t ∧ t.fld Reg.PWR_VSTAT Fd.PWR_VSTAT_ACKED = c ∧
      t.pwr.inFrame = s.pwr.pendReq.filter (· != c) ∧ t.pwr.pendReq = none ∧ s.OnlyRegs (· = Reg.PWR_VSTAT) { t with pwr := s.pwr }) ∧
    (s.pwr.retries < 3 → ∃ t, exec (.vreqResponse false) s = .next t ∧ t.pwr = { s.pwr with retries := s.pwr.retries + 1 } ∧
      { t with pwr := s.pwr } = s) ∧
    (3 ≤ s.pwr.retries → ∃ t, exec (.vreqResponse false) s = .next t ∧ t.bitAt Reg.PWR_EVT 3 = true ∧
      t.fld Reg.PWR_LASTERR Fd.PWR_LASTERR_CAUSE = 5 ∧ t.pwr.inFrame = s.pwr.pendReq.filter (· != c) ∧
      s.OnlyRegs (fun a => a = Reg.PWR_EVT ∨ a = Reg.PWR_ERRCNT ∨ a = Reg.PWR_LASTERR) { t with pwr := s.pwr })) ∧
  (∀ (s : State) (x : Nat), s.dom 2 = true → s.fld Reg.PWR_VSTAT Fd.PWR_VSTAT_THERM = x → ∃ t, exec .thermalLimitStep s = .next t ∧
    (240 ≤ s.junction → t.fld Reg.PWR_VSTAT Fd.PWR_VSTAT_THERM = x - 1 ∧ (x = 35 → t.bitAt Reg.PWR_EVT 1 = true)) ∧
    (s.junction < 234 → t.fld Reg.PWR_VSTAT Fd.PWR_VSTAT_THERM = (if x < 35 then x + 1 else x) ∧ (x = 34 → t.bitAt Reg.PWR_EVT 1 = true)) ∧
    (234 ≤ s.junction → s.junction < 240 → t = s) ∧
    s.OnlyRegs (fun a => a = Reg.PWR_VSTAT ∨ a = Reg.PWR_EVT) t) ∧
  (∀ (v : BitVec 10) (s : State), s.pwr.pd0Runs = true → ∃ t, exec (.tempRead v) s = .next t ∧ t.reg Reg.PWR_TEMP = wd v.toNat ∧
    t.pwr.hot = decide (260 ≤ v.toInt) ∧ (v.toInt < 220 → t.pwr.tripped = false) ∧
    (v.toInt < 260 ∨ s.pwr.hot = false ∨ s.pwr.tripped = true → s.OnlyRegs (· = Reg.PWR_TEMP) { t with pwr := s.pwr }) ∧
    (260 ≤ v.toInt → s.pwr.hot = true → s.pwr.tripped = false → t.pwr.tripped = true ∧ t.reg Reg.PWR_RSTCAUSE = oneBit 20 ∧
      t.mem = [] ∧ t.procs = [] ∧ t.dom 2 = false))

/-- Domain switching, the three power-state commands and their ends, wake sources and the wake timer -/
def Obligations.DomainsPowerStatesAndWakeSources : Prop :=
  (∀ (req : Req) (v : Word) (s : State), s.Opens req.val Reg.PWR_DOMCTRL →
    (∀ d, (List.range 20).find? (fun d => switched d && s.dom d && !bit v d && !s.mayOff d) = some d →
      ∃ t, exec (.domctrlWrite req v) s = .next t ∧ t.fld Reg.PWR_LASTERR Fd.PWR_LASTERR_CAUSE = 2 ∧
        t.fld Reg.PWR_LASTERR Fd.PWR_LASTERR_DOMAIN = d ∧
        s.OnlyRegs (fun a => a = Reg.PWR_ERRCNT ∨ a = Reg.PWR_LASTERR ∨ a = Reg.PWR_EVT) t) ∧
    ((∀ d, d < 20 → switched d = true → s.dom d = true → bit v d = false → s.mayOff d = true) →
      ∃ t, exec (.domctrlWrite req v) s = .next t ∧
        (∀ d, d < 20 → switched d = true → t.dom d = (s.dom d && bit v d)) ∧
        (∀ d, d < 20 → switched d = true → bit v d = true → s.dom d = false → t.pwr.rising.getLsbD d = true) ∧
        (∀ d, d < 20 → switched d = false → t.dom d = s.dom d))) ∧
  (∀ (d : Fin 20) (s : State), (s.pwr.rising.getLsbD d.val = true → ∃ t, exec (.domainOnDone d) s = .next t ∧ t.dom d.val = true ∧
      t.pwr.rising.getLsbD d.val = false ∧ (∀ e, e ≠ d.val → t.dom e = s.dom e) ∧
      s.OnlyRegs (· = Reg.PWR_DOMSTAT) { t with pwr := s.pwr }) ∧
    (s.pwr.rising.getLsbD d.val = false → exec (.domainOnDone d) s = .next s)) ∧
  (∀ (req : Req) (keep : BitVec 4) (s : State), s.Opens req.val Reg.PWR_STATECMD →
    (s.bitAt Reg.PWR_STAT 21 = true → ∀ i, i = .stateFull req ∨ i = .stateFallow req keep ∨ i = .stateDormant req → ∃ t, exec i s = .next t ∧
      t.fld Reg.PWR_LASTERR Fd.PWR_LASTERR_CAUSE = 1 ∧
      s.OnlyRegs (fun a => a = Reg.PWR_ERRCNT ∨ a = Reg.PWR_LASTERR ∨ a = Reg.PWR_EVT) t) ∧
    (s.bitAt Reg.PWR_STAT 21 = false →
      (s.fld Reg.PWR_STAT Fd.PWR_STAT_STATE = 1 → ∃ t, exec (.stateFull req) s = .next t ∧ t.bitAt Reg.PWR_STAT 21 = true ∧
        t.pwr.target = some (0, 0) ∧ (∀ d, d = 12 ∨ d = 13 ∨ d = 14 → s.dom d = false → t.pwr.rising.getLsbD d = true) ∧
        s.OnlyRegs (· = Reg.PWR_STAT) { t with pwr := s.pwr }) ∧
      (s.fld Reg.PWR_STAT Fd.PWR_STAT_STATE ≠ 1 → ∃ t, exec (.stateFull req) s = .next t ∧ s.OnlyRegs (fun _ => False) t) ∧
      ((∀ c, c < 16 → keep.getLsbD (c / 4) = false → s.plotState (s.corePlot c) ≠ 0) → ∃ t, exec (.stateFallow req keep) s = .next t ∧
        t.bitAt Reg.PWR_STAT 21 = true ∧ t.pwr.target = some (1, keep.toNat) ∧ s.OnlyRegs (· = Reg.PWR_STAT) { t with pwr := s.pwr }) ∧
      ((∃ c, c < 16 ∧ keep.getLsbD (c / 4) = false ∧ s.plotState (s.corePlot c) = 0) → ∃ t, exec (.stateFallow req keep) s = .next t ∧
        t.fld Reg.PWR_LASTERR Fd.PWR_LASTERR_CAUSE = 3 ∧ t.bitAt Reg.PWR_STAT 21 = false ∧ t.pwr = s.pwr) ∧
      (s.anyWake = false → ∃ t, exec (.stateDormant req) s = .next t ∧
        t.fld Reg.PWR_LASTERR Fd.PWR_LASTERR_CAUSE = 4 ∧ t.bitAt Reg.PWR_STAT 21 = false ∧ t.pwr = s.pwr) ∧
      (s.anyWake = true → s.bitAt Reg.PWR_EVT 0 = true → ∃ t, exec (.stateDormant req) s = .next t ∧ t.bitAt Reg.PWR_STAT 20 = true ∧
        t.bitAt Reg.PWR_EVT 4 = true ∧ s.OnlyRegs (fun a => a = Reg.PWR_STAT ∨ a = Reg.PWR_EVT) t) ∧
      (s.anyWake = true → s.bitAt Reg.PWR_EVT 0 = false → ∃ t, exec (.stateDormant req) s = .next t ∧ t.bitAt Reg.PWR_STAT 21 = true ∧
        t.pwr.target = some (2, 0) ∧ s.OnlyRegs (· = Reg.PWR_STAT) { t with pwr := s.pwr }))) ∧
  (∀ (keep : Nat) (s : State),
    (s.pwr.target = some (0, keep) → s.dom 12 = true → s.dom 13 = true → s.dom 14 = true → ∃ t, exec .powerSequenceDone s = .next t ∧
      t.bitAt Reg.PWR_STAT 21 = false ∧ t.fld Reg.PWR_STAT Fd.PWR_STAT_STATE = 0 ∧ t.pwr.target = none ∧
      s.OnlyRegs (· = Reg.PWR_STAT) { t with pwr := s.pwr }) ∧
    (s.pwr.target = some (1, keep) → s.bitAt (Reg.BM_TCTRL 0) 0 = false → s.bitAt (Reg.BM_TCTRL 1) 0 = false →
      ∃ t, exec .powerSequenceDone s = .next t ∧ t.bitAt Reg.PWR_STAT 21 = false ∧ t.fld Reg.PWR_STAT Fd.PWR_STAT_STATE = 1 ∧
      (∀ d, t.dom d = (s.dom d && !(d == 12 || d == 13 || d == 14 || (decide (4 ≤ d ∧ d < 8) && !keep.testBit (d - 4)))))) ∧
    (s.pwr.target = some (2, keep) → s.pwr.wakeHeld = none → s.grn = [] → ∃ t, exec .powerSequenceDone s = .next t ∧ t.pwr.dormant = true ∧
      t.mem = [] ∧ t.procs = [] ∧ t.gran = s.gran ∧ t.dom 0 = true ∧ (∀ d, 2 ≤ d → t.dom d = false) ∧ t.bitAt Reg.PWR_STAT 21 = false ∧
      t.reg Reg.PWR_WAKECFG = s.reg Reg.PWR_WAKECFG ∧ t.reg Reg.PWR_WAKETMR = s.reg Reg.PWR_WAKETMR ∧ t.acw = s.acw)) ∧
  (∀ (src : WakeSrc) (s : State), s.wakeOn src = true → s.pwr.pd0Runs = true →
    (s.pwr.dormant = false → (∀ k, s.pwr.target ≠ some (2, k)) → ∃ t, exec (.wakeSource src) s = .next t ∧ t.bitAt Reg.PWR_EVT 0 = true ∧
      t.fld Reg.PWR_STAT Fd.PWR_STAT_WAKECAUSE = wakeCause src ∧ s.OnlyRegs (fun a => a = Reg.PWR_EVT ∨ a = Reg.PWR_STAT) t) ∧
    (s.pwr.dormant = false → ∀ k, s.pwr.target = some (2, k) → ∃ t, exec (.wakeSource src) s = .next t ∧
      t.pwr.wakeHeld = some (wakeCause src) ∧ t.pwr.target = some (2, k)) ∧
    (s.pwr.dormant = true → ∃ t, exec (.wakeSource src) s = .next t ∧ t.reg Reg.PWR_RSTCAUSE = oneBit 17 ∧
      t.fld Reg.PWR_STAT Fd.PWR_STAT_WAKECAUSE = wakeCause src ∧ t.pwr.dormant = false ∧ t.pwr.started = false)) ∧
  (∀ (s : State) (n : Nat), s.bitAt Reg.PWR_WAKECFG 21 = true → (s.reg Reg.PWR_WAKETMR).toNat = n →
    (2 ≤ n → ∃ t, exec .wakeTimerTick s = .next t ∧ (t.reg Reg.PWR_WAKETMR).toNat = n - 1 ∧ s.OnlyRegs (· = Reg.PWR_WAKETMR) t) ∧
    (n = 1 → s.pwr.dormant = false → ∃ t, exec .wakeTimerTick s = .next t ∧ t.reg Reg.PWR_WAKETMR = 0 ∧ t.bitAt Reg.PWR_EVT 0 = true ∧
      t.fld Reg.PWR_STAT Fd.PWR_STAT_WAKECAUSE = 4) ∧
    (n = 0 → exec .wakeTimerTick s = .next s))

/-- What each kind of reset leaves, release and start-up, pulses on XRST_DW, debug sessions -/
def Obligations.ResetsStartUpAndDebugSessions : Prop :=
  (∀ (i : Instr) (k : Nat) (s : State), s.grn = [] →
    i = .externalReset ∧ k = 22 ∨ i = .railBrownout ∧ s.pwr.pd0Runs = true ∧ k = 21 ∨
      (∃ req, i = .systemReset req ∧ s.Opens (Fin.val req) Reg.PWR_RSTCMD ∧ k = 19) ∨
      (∃ req, i = .debugReset req ∧ s.Opens (Fin.val req) Reg.DBG_SYSRST ∧ s.lock = 0 ∧ s.dom 1 = true ∧ k = 18) →
    ∃ t, exec i s = .next t ∧ t.reg Reg.PWR_RSTCAUSE = oneBit k ∧
      (∀ a, inPD0 a = false → neverReset a = false → a ≠ Reg.SEC_STAT → a ≠ Reg.STW_UCSTAT → t.reg a = wd (resetOf a)) ∧
      (∀ a, neverReset a = true → t.reg a = s.reg a) ∧
      (∀ a, inPD0 a = true → a ≠ Reg.PWR_RSTCAUSE → a ≠ Reg.PWR_STAT → a ≠ Reg.DBG_CTRL → a ≠ Reg.DBG_EVT → t.reg a = s.reg a) ∧
      t.session = false ∧ t.mem = [] ∧ t.procs = [] ∧ t.timebase = 0 ∧ t.tyk = State.reset.tyk ∧ t.gran = s.gran ∧ t.sec = s.sec ∧
      t.acw = s.acw ∧ t.pending = s.pending) ∧
  (∀ s : State, s.grn = [] → ∃ t, exec .powerOnReset s = .next t ∧
    (∀ a, neverReset a = false → a ≠ Reg.SEC_STAT → t.reg a = wd (resetOf a)) ∧ (∀ a, neverReset a = true → t.reg a = s.reg a) ∧
    t.mem = [] ∧ t.procs = [] ∧ t.timebase = 0 ∧ t.acw = State.reset.acw ∧ t.pwr = State.reset.pwr ∧ t.gran = s.gran ∧ t.sec = s.sec ∧
    t.pads.level = s.pads.level) ∧
  (∀ s : State, (∃ t, exec .powerOnResetRelease s = .next t ∧ t.pwr = { s.pwr with pd0Runs := true } ∧ { t with pwr := s.pwr } = s) ∧
    (s.pwr.pd0Runs = true →
      (∃ t, exec .crystalStable s = .next t ∧ t.bitAt Reg.PWR_STAT 15 = true ∧ s.OnlyRegs (· = Reg.PWR_STAT) t) ∧
      (s.pwr.started = false → s.pwr.tripped = false → s.pwr.dormant = false → ∃ t, exec .startUp s = .next t ∧
        (∀ d, t.dom d = (s.dom d || d == 2 || d == 3 || d == 8 || d == 9 || d == 10 || d == 11 || d == 16 || d == 19)) ∧
        t.fld Reg.PWR_VSTAT Fd.PWR_VSTAT_REQ = 20 ∧ t.pwr.started = true ∧ (s.pwr.inFrame = none → t.pwr.inFrame = some 20) ∧
        s.OnlyRegs (fun a => a = Reg.PWR_DOMSTAT ∨ a = Reg.PWR_VSTAT) { t with pwr := s.pwr }) ∧
      (s.session = false → ∃ t, exec .wakePulse s = .next t ∧ t.session = true ∧ t.dom 1 = true ∧ t.bitAt Reg.DBG_EVT 1 = true ∧
        s.OnlyRegs (fun a => a = Reg.DBG_CTRL ∨ a = Reg.DBG_EVT ∨ a = Reg.PWR_DOMSTAT) t) ∧
      (s.session = true → exec .wakePulse s = .next s) ∧
      (s.lock = 0 → ∃ t, exec .connectUnderReset s = .next t ∧ t.bitAt Reg.DBG_CTRL 2 = true ∧ s.OnlyRegs (· = Reg.DBG_CTRL) t) ∧
      (∀ h, 20 ≤ h ∧ h < 40 ∨ 160 < h ∧ h ≤ 200 → ∃ t, exec (.ignoredPulse h) s = .next t ∧
        t.fld Reg.DBG_LASTERR Fd.DBG_LASTERR_CAUSE = 4 ∧
        s.OnlyRegs (fun a => a = Reg.DBG_ERRCNT ∨ a = Reg.DBG_LASTERR ∨ a = Reg.DBG_EVT) t)) ∧
    (s.session = true → ∃ t, exec .sessionTimeout s = .next t ∧ t.session = false ∧ t.dom 1 = false ∧ t.bitAt Reg.DBG_EVT 1 = true ∧
      (∀ p, p < 17 → t.halted p = false) ∧ t.dbg = State.reset.dbg) ∧
    (s.session = false → exec .sessionTimeout s = .next s))

/-- Frames of the debug port: reads, writes, the + forms, RESULT, STATUS, CLOSE and the end of a slow access -/
def Obligations.DebugPortAnswersAndAccesses : Prop :=
  (∀ (i : Instr) (x : Addr) (a : Nat) (w : Bool) (s : State), s.session = true → s.dbg.wait = none → s.refuses 0 = false →
    i = .dbgRead x w ∧ x.toNat = a ∨ i = .dbgReadPlus w ∧ a = s.dbg.addr + 1 →
    (s.lock < 2 → a < fieldWords → s.Quiet →
      (w = false → ∃ t, exec i s = .next t ∧ t.dbg.ack = 1 ∧ t.dbg.data = s.memAt a ∧ t.dbg.addr = a ∧ { t with dbg := s.dbg } = s) ∧
      (w = true → ∃ t, exec i s = .next t ∧ t.dbg.ack = 2 ∧ t.dbg.wait = some (a, none) ∧ t.dbg.addr = a ∧ { t with dbg := s.dbg } = s)) ∧
    (s.lock < 2 → 2 ^ 28 ≤ a → w = false → ∃ t, exec i s = .next t ∧ t.dbg.ack = 3) ∧
    (s.lock < 2 → a < 2 ^ 28 → regionOf a = .unmapped → w = false → ∃ t, exec i s = .next t ∧ t.dbg.ack = 3 ∧
      t.fld Reg.FAB_DECERR Fd.FAB_DECERR_LASTREQ = 25) ∧
    (2 ≤ s.lock → ∃ t, exec i s = .next t ∧ t.dbg.ack = 4 ∧ t.fld Reg.DBG_LASTERR Fd.DBG_LASTERR_CAUSE = 6 ∧
      s.OnlyRegs (fun a => a = Reg.DBG_ERRCNT ∨ a = Reg.DBG_LASTERR ∨ a = Reg.DBG_EVT) { t with dbg := s.dbg })) ∧
  (∀ (i : Instr) (x : Addr) (a : Nat) (v : Word) (w : Bool) (s : State), s.session = true → s.dbg.wait = none → s.refuses 0 = false → a < fieldWords →
    i = .dbgWrite x v w ∧ x.toNat = a ∨ i = .dbgWritePlus v w ∧ a = s.dbg.addr + 1 →
    (s.lock = 0 → s.Quiet →
      (w = false → ∃ t, exec i s = .next t ∧ t.dbg.ack = 1 ∧ t.memAt a = v ∧ (∀ b, b ≠ a → t.memAt b = s.memAt b) ∧
        t.regs = s.regs ∧ t.dbg.addr = a) ∧
      (w = true → ∃ t, exec i s = .next t ∧ t.dbg.ack = 2 ∧ t.dbg.wait = some (a, some v) ∧ { t with dbg := s.dbg } = s)) ∧
    (1 ≤ s.lock → ∃ t, exec i s = .next t ∧ t.dbg.ack = 4 ∧ t.fld Reg.DBG_LASTERR Fd.DBG_LASTERR_CAUSE = 6 ∧ t.mem = s.mem)) ∧
  (∀ (i : Instr) (a : Addr) (v : Word) (w : Bool) (s : State), s.session = true → s.dbg.wait.isSome = true →
    i = .dbgRead a w ∨ i = .dbgReadPlus w ∨ i = .dbgWrite a v w ∨ i = .dbgWritePlus v w ∨ i = .dbgResult ∨ i = .dbgClose →
    ∃ t, exec i s = .next t ∧ t.dbg.ack = 2 ∧ t.dbg.wait = s.dbg.wait ∧ { t with dbg := s.dbg } = s) ∧
  (∀ s : State, s.session = true →
    (∀ k v, s.dbg.wait = none → s.lock < 2 → s.dbg.result = some (k, v) → ∃ t, exec .dbgResult s = .next t ∧ t.dbg.ack = k ∧ t.dbg.data = v ∧
      { t with dbg := s.dbg } = s) ∧
    (∃ t, exec .dbgStatus s = .next t ∧ t.dbg.ack = 1 ∧ getF t.dbg.data ⟨23, 16⟩ = getF (s.reg Reg.DBG_CTRL) ⟨23, 16⟩ ∧
      getF t.dbg.data ⟨15, 0⟩ = getF (s.reg Reg.DBG_HALTED) ⟨15, 0⟩ ∧ { t with dbg := s.dbg } = s) ∧
    (s.dbg.wait = none → ∃ t, exec .dbgClose s = .next t ∧ t.session = false ∧ t.dom 1 = false ∧ t.dbg.ack = 1 ∧ ∀ p, p < 17 → t.halted p = false)) ∧
  (∀ (s : State) (a : Nat), a < fieldWords → s.refuses 0 = false → s.Quiet →
    (s.dbg.wait = some (a, none) → ∃ t, exec .debugAccessDone s = .next t ∧ t.dbg.wait = none ∧ t.dbg.result = some (1, s.memAt a) ∧
      { t with dbg := s.dbg } = s) ∧
    (∀ v, s.dbg.wait = some (a, some v) → ∃ t, exec .debugAccessDone s = .next t ∧ t.dbg.wait = none ∧ t.dbg.result = some (1, 0) ∧
      t.memAt a = v ∧ ∀ b, b ≠ a → t.memAt b = s.memAt b))

/-- Halt, resume, step and RDATA of a processor; captures, snapshots, records and sample buffers of Glean -/
def Obligations.HaltedProcessorsAndGleanRecords : Prop :=
  (∀ (req : Req) (s : State), s.dom 1 = true → (req.val = 25 → s.lock = 0) →
    (∀ mask : BitVec 17, s.Opens req.val Reg.DBG_HALT → ∃ t, exec (.dbgHalt req mask) s = .next t ∧
      (∀ p, p < 17 → t.bitAt Reg.DBG_HALT p = (s.bitAt Reg.DBG_HALT p || (mask.getLsbD p && !s.halted p && !(p == 16 && req.val == 16)))) ∧
      t.procs = s.procs ∧ t.mem = s.mem) ∧
    (∀ mask : BitVec 17, s.Opens req.val Reg.DBG_RESUME → s.uc.stopped = false → ∃ t, exec (.dbgResume req mask) s = .next t ∧
      (∀ p, p < 17 → t.halted p = (s.halted p && !mask.getLsbD p)) ∧
      (∀ p, p < 17 → mask.getLsbD p = true → s.halted p = true →
        t.proc p = { s.proc p with pc := if (s.proc p).atBrk then (s.proc p).pc + 1 else (s.proc p).pc, atBrk := false }) ∧
      (∀ p, mask.getLsbD p = false → t.proc p = s.proc p) ∧ t.mem = s.mem) ∧
    (∀ p : Proc, s.Opens req.val (Reg.DBG_PR_CTRL p.val) → s.halted p.val = true → s.uc.stopped = false →
      ∃ t, exec (.dbgStep req p) s = .next t ∧ t.halted p.val = false ∧ (t.proc p.val).stepping = true ∧
        (t.proc p.val).w = (s.proc p.val).w ∧ t.mem = s.mem) ∧
    (∀ (p : Proc) (n : Nat) (v : Word), s.Opens req.val (Reg.DBG_PR_RDATA p.val) → s.halted p.val = true →
      s.fld (Reg.DBG_PR_RSEL p.val) Fd.DBG_PR_RSEL_SEL = n →
      (n < 16 → ∃ t, exec (.rdataAccess req p (some v)) s = .next t ∧ t.proc p.val = (s.proc p.val).setW n v ∧ s.OnlyRegs (fun _ => False) { t with procs := s.procs }) ∧
      (n = 16 → ∃ t, exec (.rdataAccess req p (some v)) s = .next t ∧ (t.proc p.val).pc = v ∧ (t.proc p.val).w = (s.proc p.val).w) ∧
      (n = 17 → ∃ t, exec (.rdataAccess req p (some v)) s = .next t ∧ (t.proc p.val).acc = v ++ (s.proc p.val).ml)) ∧
    (∀ (p : Proc) (n : Nat), s.gate req.val (s.reqPlot req.val) (Reg.DBG_PR_RDATA p.val) false = none →
      s.fld (Reg.DBG_PR_RSEL p.val) Fd.DBG_PR_RSEL_SEL = n →
      (s.halted p.val = true → ∃ t, exec (.rdataAccess req p none) s = .next t ∧ { t with resp := s.resp } = s ∧
        (n < 16 → t.respOf req.val = ⟨(s.proc p.val).reg n, [], .ok⟩) ∧ (n = 16 → t.respOf req.val = ⟨(s.proc p.val).pc, [], .ok⟩)) ∧
      (s.halted p.val = false → ∃ t, exec (.rdataAccess req p none) s = .next t ∧ t.respOf req.val = ⟨0, [], .ok⟩ ∧
        t.fld Reg.DBG_LASTERR Fd.DBG_LASTERR_CAUSE = 2))) ∧
  (∀ (p : Proc) (s : State), s.bitAt Reg.DBG_HALT p.val = true → (s.proc p.val).slot = none → (s.proc p.val).exit = none →
    (s.proc p.val).wait = none → s.uc.custom = none → s.impDue p.val = false → s.irqDue p.val = false → ∃ t, exec (.haltTaken p) s = .next t ∧ t.halted p.val = true ∧
      t.bitAt Reg.DBG_HALT p.val = false ∧ t.reg (Reg.DBG_PR_PC p.val) = (s.proc p.val).pc ∧ t.reg (Reg.DBG_PR_STAT p.val) = 0x100000 ∧
      t.bitAt Reg.DBG_EVT 0 = true ∧ (t.proc p.val).w = (s.proc p.val).w ∧ (t.proc p.val).pc = (s.proc p.val).pc) ∧
  (∀ (req : Req) (u : BitVec 5) (s : State), s.Opens req.val Reg.GLN_CAPCMD → u.toNat < 24 →
    (16 ≤ req.val ∨ s.gleanPlot u.toNat = s.corePlot req.val → ∃ t, exec (.gleanCapture req u) s = .next t ∧
      (∀ k, k < 4 → t.reg (Reg.GLN_CCAP u.toNat k) = s.reg (Reg.GLN_CNT u.toNat k)) ∧
      s.OnlyRegs (fun a => ∃ k, k < 4 ∧ a = Reg.GLN_CCAP u.toNat k) t) ∧
    (req.val < 16 → s.gleanPlot u.toNat ≠ s.corePlot req.val → ∃ t, exec (.gleanCapture req u) s = .next t ∧
      t.fld Reg.GLN_LASTERR Fd.GLN_LASTERR_CAUSE = 2 ∧ s.OnlyRegs (fun a => a = Reg.GLN_ERRCNT ∨ a = Reg.GLN_LASTERR ∨ a = Reg.GLN_EVT) t)) ∧
  (∀ s : State, s.bitAt Reg.GLN_CTRL 23 = true → s.frozen 7 = false → s.dom 2 = true →
    (s.gln.isSome = true → ∃ t, exec .gleanSnapshot s = .next t ∧ t.bitAt Reg.GLN_EVT 2 = true ∧
      s.OnlyRegs (fun a => a = Reg.GLN_SKIPCNT ∨ a = Reg.GLN_EVT) t) ∧
    (∀ seq len, s.gln = none → s.fld Reg.GLN_STAT Fd.GLN_STAT_SEQ = seq → max 1 (s.fld Reg.GLN_LEN Fd.GLN_LEN_LEN) = len →
      ∃ t h, exec .gleanSnapshot s = .next t ∧ t.gln = some (16 * (s.reg Reg.GLN_BASE).toNat + seq % len * (4 + 4 * s.glnUnits.length),
          [h, wd (s.timebase.toNat / 2 ^ 48), s.tbWord 24, s.tbWord 0] ++
          s.glnUnits.flatMap (fun u => (List.range 4).map (fun k => if s.unitOn u then s.reg (Reg.GLN_CNT u k) else 0))) ∧
        getF h ⟨15, 0⟩ = seq ∧ bit h 23 = s.glnUnits.any (fun u => !s.unitOn u) ∧ t.bitAt Reg.GLN_STAT 23 = true ∧
        s.OnlyRegs (· = Reg.GLN_STAT) { t with gln := s.gln })) ∧
  (∀ (s : State) (base : Nat) (ws : List Word) (seq : Nat), s.gln = some (base, ws) → base + ws.length ≤ fieldWords → s.Quiet →
    s.refuses 0 = false → s.fld Reg.GLN_STAT Fd.GLN_STAT_SEQ = seq →
    ∃ t, exec (.gleanRecordDone .ok) s = .next t ∧ t.gln = none ∧ (∀ i, i < ws.length → t.memAt (base + i) = ws.getD i 0) ∧
      (∀ a, a < base ∨ base + ws.length ≤ a → t.memAt a = s.memAt a) ∧ t.fld Reg.GLN_STAT Fd.GLN_STAT_SEQ = (seq + 1) % 65536 ∧
      t.bitAt Reg.GLN_STAT 23 = false ∧ t.bitAt Reg.GLN_EVT 0 = true ∧
      (∀ a, a ≠ Reg.GLN_STAT → a ≠ Reg.GLN_EVT → t.reg a = s.reg a)) ∧
  (∀ (req : Req) (c : Fin 16) (s : State), s.gate req.val (s.reqPlot req.val) (Reg.GLN_SMP_DATA c.val) false = none →
    16 ≤ req.val ∨ (s.proc req.val).sup = true →
    (∀ r rs, (s.proc c.val).samples = r :: rs → ∃ t, exec (.sampleRead req c) s = .next t ∧
      t.respOf req.val = ⟨r.getD (s.proc c.val).smpWord 0, [], .ok⟩ ∧
      ((s.proc c.val).smpWord < 2 → (t.proc c.val).samples = r :: rs ∧ (t.proc c.val).smpWord = (s.proc c.val).smpWord + 1 ∧ t.regs = s.regs) ∧
      (2 ≤ (s.proc c.val).smpWord → (t.proc c.val).samples = rs ∧ (t.proc c.val).smpWord = 0)) ∧
    ((s.proc c.val).samples = [] → ∃ t, exec (.sampleRead req c) s = .next t ∧ t.respOf req.val = ⟨0, [], .ok⟩ ∧
      t.fld Reg.GLN_LASTERR Fd.GLN_LASTERR_CAUSE = 1 ∧ t.procs = s.procs))

/-- In user mode a change of SUP, IE or DET takes a privilege exception; a change of OVT alone is allowed -/
def Obligations.UserModeChangesOfTheModeBits : Prop :=
  ∀ (p : Proc) (s : State), s.Ready p.val 1 → (s.proc p.val).sup = false →
    (∀ imm : BitVec 8,
      (imm.zeroExtend 24 &&& 0xE0 &&& ~~~ (s.proc p.val).status ≠ 0 → ∃ t, exec (.setm p imm) s = .next t ∧
        s.Took p.val 2 0x4E none (s.proc p.val).pc t ∧ (t.proc p.val).shadows = []) ∧
      (imm.zeroExtend 24 &&& 0xE0 &&& ~~~ (s.proc p.val).status = 0 → ∃ t, exec (.setm p imm) s = .next t ∧
        s.Ran p.val ((s.proc p.val).pc + 1) (fun z => { z with shadows := [⟨3, imm.zeroExtend 24 &&& 0x10, 0⟩] }) t) ∧
      (imm.zeroExtend 24 &&& 0xE0 &&& (s.proc p.val).status ≠ 0 → ∃ t, exec (.clrm p imm) s = .next t ∧
        s.Took p.val 2 0x4F none (s.proc p.val).pc t ∧ (t.proc p.val).shadows = []) ∧
      (imm.zeroExtend 24 &&& 0xE0 &&& (s.proc p.val).status = 0 → ∃ t, exec (.clrm p imm) s = .next t ∧
        s.Ran p.val ((s.proc p.val).pc + 1) (fun z => { z with shadows := [⟨3, 0, imm.zeroExtend 24 &&& 0x10⟩] }) t)) ∧
    (∀ (a : RegNo) (v : Word), s.getW p.val a = v →
      ((v ^^^ (s.proc p.val).status) &&& 0xE0 ≠ 0 → ∃ t, exec (.mts p a 0) s = .next t ∧
        s.Took p.val 2 0x4D none (s.proc p.val).pc t ∧ (t.proc p.val).shadows = []) ∧
      ((v ^^^ (s.proc p.val).status) &&& 0xE0 = 0 → ∃ t, exec (.mts p a 0) s = .next t ∧
        s.Ran p.val ((s.proc p.val).pc + 1) (fun z => { z with
          status := (z.status &&& 0x0FFFFF) ||| (v &&& 0xF00000), shadows := [⟨3, v &&& 0x10, ~~~ v &&& 0x10⟩] }) t))

/-- Sources 136 to 151 follow the timers' event bits, 96 to 103 those of the Harrow; TMR_EVT drives none -/
def Obligations.TimerAndHarrowEventsDriveTheirSources : Prop :=
  (∀ (p : Fin 8) (s : State),
    (∀ k, k < 16 → ∃ t, exec (.irqLineChange (BitVec.ofNat 8 (136 + k)) p) s = .next t ∧
      t.bitAt (Reg.IRQ_SRC (136 + k)) 20 = (s.bitAt (Reg.TMR_T_EVT k) 0 || s.bitAt (Reg.TMR_T_EVT k) 1 || s.bitAt (Reg.TMR_T_EVT k) 2) ∧
      s.OnlyRegs (· = Reg.IRQ_SRC (136 + k)) t) ∧
    (∀ q, q < 4 → ∃ t, exec (.irqLineChange (BitVec.ofNat 8 (96 + q)) p) s = .next t ∧
      t.bitAt (Reg.IRQ_SRC (96 + q)) 20 = s.bitAt (Reg.HRW_Q_STAT q) 23 ∧ s.OnlyRegs (· = Reg.IRQ_SRC (96 + q)) t) ∧
    (∃ t, exec (.irqLineChange 100 p) s = .next t ∧
      t.bitAt (Reg.IRQ_SRC 100) 20 = (s.bitAt Reg.HRW_EVT 0 || s.bitAt Reg.HRW_EVT 1 || s.bitAt Reg.HRW_EVT 2 || s.bitAt Reg.HRW_EVT 3) ∧
      s.OnlyRegs (· = Reg.IRQ_SRC 100) t) ∧
    (∃ t, exec (.irqLineChange 101 p) s = .next t ∧ t.bitAt (Reg.IRQ_SRC 101) 20 = s.bitAt Reg.HRW_EVT 4 ∧
      s.OnlyRegs (· = Reg.IRQ_SRC 101) t) ∧
    (∀ b, b < 2 → ∃ t, exec (.irqLineChange (BitVec.ofNat 8 (102 + b)) p) s = .next t ∧
      t.bitAt (Reg.IRQ_SRC (102 + b)) 20 = (List.range 5).any (fun i => s.bitAt (Reg.HRW_FW_EVT b) i) ∧
      s.OnlyRegs (· = Reg.IRQ_SRC (102 + b)) t)) ∧
  (∀ (n p : Nat) (v : Word) (s : State), (s.setReg Reg.TMR_EVT v).rawLine n p = s.rawLine n p)

/-- JOIN frames: a new hop key, a request at the manager, the address it gives, acceptance, refusal and retry at the joining device -/
def Obligations.DevicesJoinAndPartnersAuthenticate : Prop :=
  (∀ (n : Fin 8) (f : LinkFrame) (ws : List Word) (s u : State), s.laneCounts n.val f = u → s.nState n.val = 4 → s.recovery = false →
    u.frameOpen n.val 5 f = some ws → u.clearOk n.val 5 f = true →
    (∀ sig k, Config.joinRead ws = some (.proof false sig) → (u.lane n.val).auth.mine ≠ [] →
      u.authKeys { (u.lane n.val).auth with proof := sig } = some k → ∃ t, exec (.joinFrame n f) s = .next t ∧
        (t.lane n.val).keyid = (if (u.lane n.val).keyid = 255 then 1 else (u.lane n.val).keyid + 1) ∧
        (t.lane n.val).tx = k.1 ∧ (t.lane n.val).rx = k.2) ∧
    (∀ d c p, Config.joinRead ws = some (.ask d c p) → u.frameMine f = true → ∃ t, exec (.joinFrame n f) s = .next t ∧
      t.lnk.joinOf = some (n.val, d, c, p) ∧
      (∃ x, t.e2eOf 0 0 = some x ∧ x.lane = some n.val ∧ x.auth = (u.authNew true).1 ∧ x.keyed = false) ∧
      u.Handed n.val 5 (u.ownFrame n.val (Config.ringHops ((u.ringOf n.val).elim 0 (·.1))).toNat 0 0
        (((u.ringOf n.val).map (·.2.1)).getD false) false (u.nextSeq 5) (u.authNew true).1.mine) t ∧
      t.lnk.dir = s.lnk.dir ∧ t.mem = s.mem ∧ t.eff = s.eff ∧ t.procs = s.procs) ∧
    (∀ sig x k l d c p a role seg, Config.joinRead ws = some (.proof true sig) → f.src = 0 → f.dest = 0 → f.bc = false →
      u.bitAt Reg.LNK_ADDR 22 = true → u.e2eOf 0 0 = some x → x.lane.isSome = true → x.auth.mine ≠ [] → x.wait = [] →
      u.authKeys { x.auth with proof := sig } = some k → u.lnk.joinOf = some (l, d, c, p) →
      (∀ e ∈ s.lnk.dir, ¬ (e.devid = d ∧ e.cser = c)) → 1 ≤ a → a ≤ 2047 → s.addrFree a = true →
      (∀ b, 1 ≤ b → b < a → s.addrFree b = false) → Config.joinPlace d c.toNat = (role, seg) → ∃ t, exec (.joinFrame n f) s = .next t ∧
      t.lnk.dir = s.lnk.dir ++ [⟨a, role % 8, false, seg % 2048, p, d, c, (u.ringOf l).elim 0 (·.1)⟩] ∧ t.lnk.joinOf = none ∧
      ∃ y ∈ (t.lane l).out, y.own = true ∧ y.ty = 5 ∧ y.body = sealFrame (u.lane l).tx 5 { u.ownFrame l
        (Config.ringHops ((u.ringOf l).elim 0 (·.1))).toNat 0 0 (((u.ringOf l).map (·.2.1)).getD false) false (u.nextSeq 5)
        (Config.joinText (.accept a (role % 8) (s.fld Reg.LNK_MGRCFG Fd.LNK_MGRCFG_STBYADDR) (s.fld Reg.LNK_STAT Fd.LNK_STAT_EPOCH)))
        with ctr := BitVec.ofNat 48 (u.lane l).ctr }) ∧
    (u.lnk.joinAsk = true → u.joined = false →
      (∀ a role stby epoch x, Config.joinRead ws = some (.accept a role stby epoch) → u.e2eOf 0 0 = some x →
        (x.keyed = true → a < 2048 → role < 8 → stby < 2048 → epoch < 256 → ∃ t, exec (.joinAccept n f) s = .next t ∧
          t.devAddr = a ∧ t.joined = true ∧ t.fld Reg.LNK_CTRL Fd.LNK_CTRL_ROLE = role ∧ t.bitAt Reg.LNK_CTRL 17 = true ∧
          t.fld Reg.LNK_MGRCFG Fd.LNK_MGRCFG_STBYADDR = stby ∧ t.fld Reg.LNK_STAT Fd.LNK_STAT_EPOCH = epoch ∧
          t.bitAt Reg.LNK_EVT 7 = true ∧ t.lnk.joinAsk = false ∧ t.lnk.locked = false) ∧
        (x.keyed = false → exec (.joinAccept n f) s = .next (u.perf 23 1))) ∧
      (∃ t, exec (.joinRefuse n f) s = .next t ∧ t.bitAt Reg.LNK_EVT 8 = true ∧ u.OnlyRegs (fun a => a = Reg.LNK_EVT ∨ inGlean a) t)) ∧
    (u.lnk.joinAsk = false → ∀ i other, i = .joinAccept n f ∨ i = .joinRefuse n f → u.GoesOn n.val 5 f other →
      ∃ t, exec i s = .next t ∧ u.Passed other 5 (u.onward other { f with payload := ws } false) t ∧
        u.OnlyRegs inGlean { t with lnk := u.lnk })) ∧
  (∀ (s : State), s.lnk.joinAsk = true → s.joined = false →
    (∀ n, (List.range 8).find? (fun n => (s.ringOf n).isSome && s.ringLaneUp n && s.laneMode n == 2) = some n →
      ∃ t, exec .joinRetry s = .next t ∧ t.bitAt Reg.LNK_EVT 8 = true ∧ t.lnk.joinAsk = true ∧
        s.Handed n 5 (s.ownFrame n (Config.ringHops ((s.ringOf n).elim 0 (·.1))).toNat 0 0 (((s.ringOf n).map (·.2.1)).getD false) false
          (s.nextSeq 5) (Config.joinText (.ask 0x2160B0 deviceSerial (s.ringPos 0)))) t ∧
        (∀ a, a ≠ Reg.LNK_EVT → ¬ inGlean a → t.reg a = s.reg a) ∧ t.mem = s.mem ∧ t.eff = s.eff ∧ t.procs = s.procs) ∧
    ((List.range 8).find? (fun n => (s.ringOf n).isSome && s.ringLaneUp n && s.laneMode n == 2) = none →
      ∃ t, exec .joinRetry s = .next t ∧ t.bitAt Reg.LNK_EVT 8 = true ∧ s.OnlyRegs (· = Reg.LNK_EVT) t))
end

