-- ==== Sys2Proof/Laws/Bits.lean ====
section
/-! SUPPORT. Bits and fields of a word: what reading gives after a write. -/
namespace Sys2Proof

theorem oneBit_getLsbD (n m : Nat) : (oneBit n).getLsbD m = (decide (m < 24) && decide (m = n)) := by
  unfold oneBit wd
  simp only [BitVec.getLsbD_shiftLeft, BitVec.getLsbD_ofNat]
  by_cases h : m < 24
  · by_cases h2 : m = n
    · subst h2; simp [h]
    · by_cases h3 : m < n
      · simp [h, h2, h3]
      · have : m - n ≠ 0 := by omega
        simp only [h, h2, h3, decide_true, decide_false, Bool.not_false, Bool.and_true, Bool.and_false, Bool.true_and]
        simp [Nat.testBit_one_eq_true_iff_self_eq_zero, Bool.eq_false_iff, this]
  · simp [h]

theorem bit_or_oneBit {n : Nat} (hn : n < 24) (w : Word) (m : Nat) :
    bit (w ||| oneBit n) m = (bit w m || decide (m = n)) := by
  simp only [bit, BitVec.getLsbD_or, oneBit_getLsbD]
  by_cases h : m = n
  · subst h; simp [hn]
  · simp [h]

theorem bit_and_not_oneBit {n : Nat} (hn : n < 24) (w : Word) (m : Nat) :
    bit (w &&& ~~~ oneBit n) m = (bit w m && !decide (m = n)) := by
  simp only [bit, BitVec.getLsbD_and, BitVec.getLsbD_not, oneBit_getLsbD]
  by_cases h : m = n
  · subst h; simp [hn]
  · by_cases hm : m < 24
    · simp [h, hm]
    · simp [h, hm, BitVec.getLsbD_of_ge w m (by omega)]

/-- The mask of a field holds its bits and no other. -/
theorem maskF_getLsbD (f : Fld) (h : f.lo ≤ f.hi) (h' : f.hi < 24) (i : Nat) :
    (maskF f).getLsbD i = (decide (f.lo ≤ i) && decide (i ≤ f.hi)) := by
  unfold maskF
  simp only [BitVec.getLsbD_shiftLeft, BitVec.getLsbD_ushiftRight, BitVec.getLsbD_allOnes]
  by_cases h1 : i < f.lo
  · simp [h1, Nat.not_le.mpr h1]
  · by_cases h2 : i ≤ f.hi
    · have : 23 - (f.hi - f.lo) + (i - f.lo) < 24 := by omega
      simp [h1, h2, this, Nat.not_lt.mp h1, show i < 24 by omega]
    · have : ¬ 23 - (f.hi - f.lo) + (i - f.lo) < 24 := by omega
      simp [h2, this]

/-- A field set to `n` reads `n` modulo its width. -/
theorem getF_putF_same (w : Word) (f : Fld) (n : Nat) (h : f.lo ≤ f.hi) (h' : f.hi < 24) :
    getF (putF w f n) f = n % 2 ^ (f.hi - f.lo + 1) := by
  unfold getF putF
  apply Nat.eq_of_testBit_eq
  intro i
  rw [BitVec.testBit_toNat, Nat.testBit_mod_two_pow]
  simp only [BitVec.getLsbD_ushiftRight, BitVec.getLsbD_and, BitVec.getLsbD_or, BitVec.getLsbD_not,
    BitVec.getLsbD_shiftLeft, maskF_getLsbD f h h', BitVec.getLsbD_ofNat]
  by_cases hi : f.lo + i ≤ f.hi
  · simp [hi, show f.lo + i < 24 by omega, show i < 24 by omega, show i < f.hi - f.lo + 1 by omega]
  · simp [hi, show ¬ i < f.hi - f.lo + 1 by omega]

/-- A bit outside the field that is set reads as before. -/
theorem bit_putF_other (w : Word) (f : Fld) (n m : Nat) (hm : m < f.lo ∨ f.hi < m) (h' : f.hi < 24) (h : f.lo ≤ f.hi) :
    bit (putF w f n) m = bit w m := by
  simp only [bit, putF, BitVec.getLsbD_or, BitVec.getLsbD_and, BitVec.getLsbD_not, maskF_getLsbD f h h']
  have : (decide (f.lo ≤ m) && decide (m ≤ f.hi)) = false := by
    rcases hm with hm | hm
    · simp [Nat.not_le.mpr hm]
    · simp [Nat.not_le.mpr hm]
  by_cases h24 : m < 24
  · simp [this, h24]
  · simp [this, h24, BitVec.getLsbD_of_ge w m (by omega)]

/-- A field that shares no bit with the one set reads as before. -/
theorem getF_putF_other (w : Word) (f g : Fld) (n : Nat) (hd : g.hi < f.lo ∨ f.hi < g.lo) (h' : f.hi < 24) (h : f.lo ≤ f.hi)
    (hg : g.lo ≤ g.hi) (hg' : g.hi < 24) : getF (putF w f n) g = getF w g := by
  unfold getF
  congr 2
  apply BitVec.eq_of_getLsbD_eq
  intro i hi
  simp only [BitVec.getLsbD_and, maskF_getLsbD g hg hg']
  by_cases hm : g.lo ≤ i ∧ i ≤ g.hi
  · have := bit_putF_other w f n i (by omega) h' h
    simp only [bit] at this
    rw [this]
  · have : (decide (g.lo ≤ i) && decide (i ≤ g.hi)) = false := by
      rw [← Bool.decide_and]; simpa using hm
    simp [this]

/-- A bit of a field that was set is a bit of the number. -/
theorem bit_putF_in (w : Word) (f : Fld) (n m : Nat) (hm : f.lo ≤ m ∧ m ≤ f.hi) (h' : f.hi < 24) (h : f.lo ≤ f.hi) :
    bit (putF w f n) m = n.testBit (m - f.lo) := by
  simp only [bit, putF, BitVec.getLsbD_or, BitVec.getLsbD_and, BitVec.getLsbD_not, maskF_getLsbD f h h',
    BitVec.getLsbD_shiftLeft, BitVec.getLsbD_ofNat]
  have h1 : m < 24 := by omega
  have h2 : m - f.lo < 24 := by omega
  simp [hm.1, hm.2, h1, h2, Nat.not_lt.mpr hm.1]

end Sys2Proof
end

