-- ==== Sys2Proof/Laws/Tab.lean ====
section
/-! SUPPORT. Tables: what reading gives after a write, and that every operation keeps the canonical form. -/
namespace Sys2Proof

variable {α : Type}

@[simp] theorem Tab.get_nil (d : α) (k : Nat) : Tab.get d [] k = d := rfl

theorem Tab.get_cons (d : α) (a : Nat) (v : α) (t : Tab α) (k : Nat) :
    Tab.get d ((a, v) :: t) k = if a = k then v else Tab.get d t k := rfl

theorem Tab.get_erase (d : α) (t : Tab α) (a k : Nat) :
    Tab.get d (t.erase a) k = if k = a then d else Tab.get d t k := by
  induction t with
  | nil => simp [Tab.erase]
  | cons e t ih =>
    obtain ⟨b, v⟩ := e
    simp only [Tab.erase, List.filter_cons] at ih ⊢
    by_cases hb : b = a
    · subst hb
      by_cases hk : k = b
      · simp [hk] at ih ⊢; exact ih
      · simp [hk] at ih ⊢
        rw [ih, Tab.get_cons, if_neg (Ne.symm hk)]
    · by_cases hk : k = a
      · simp [hk, hb, Tab.get_cons] at ih ⊢; exact ih
      · simp [hk, hb, Tab.get_cons] at ih ⊢; rw [ih]

theorem Tab.get_insert (d : α) (t : Tab α) (a k : Nat) (v : α) (hn : ∀ e ∈ t, e.1 ≠ a) :
    Tab.get d (Tab.insert a v t) k = if k = a then v else Tab.get d t k := by
  induction t with
  | nil => by_cases hk : k = a
           · simp [Tab.insert, Tab.get_cons, hk]
           · simp [Tab.insert, Tab.get_cons, hk, Ne.symm hk]
  | cons e t ih =>
    obtain ⟨b, w⟩ := e
    have hb : b ≠ a := hn (b, w) (by simp)
    have ht : ∀ e ∈ t, e.1 ≠ a := fun e he => hn e (by simp [he])
    simp only [Tab.insert]
    split
    · by_cases hk : k = a
      · simp [Tab.get_cons, hk]
      · simp [Tab.get_cons, hk, Ne.symm hk]
    · simp only [Tab.get_cons, ih ht]
      by_cases hk : k = a
      · simp [hk, hb]
      · simp [hk]

theorem Tab.mem_erase {t : Tab α} {a : Nat} {e : Nat × α} (h : e ∈ t.erase a) : e.1 ≠ a := by
  simp [Tab.erase] at h; exact h.2

/-- Reading after a write: the value written at its key, everything else as before. -/
theorem Tab.get_put [DecidableEq α] (d : α) (t : Tab α) (a k : Nat) (v : α) :
    Tab.get d (Tab.put d t a v) k = if k = a then v else Tab.get d t k := by
  unfold Tab.put
  split
  · rename_i h; rw [Tab.get_erase, h]
  · rw [Tab.get_insert d _ a k v (fun e he => Tab.mem_erase he), Tab.get_erase]
    by_cases hk : k = a <;> simp [hk]

@[simp] theorem Tab.get_put_same [DecidableEq α] (d : α) (t : Tab α) (a : Nat) (v : α) :
    Tab.get d (Tab.put d t a v) a = v := by simp [Tab.get_put]

/-- Another key reads as before, whatever the two defaults. -/
theorem Tab.get_put_ne [DecidableEq α] (d d' : α) (t : Tab α) {a k : Nat} (v : α) (h : k ≠ a) :
    Tab.get d (Tab.put d' t a v) k = Tab.get d t k := by
  unfold Tab.put
  split
  · rw [Tab.get_erase, if_neg h]
  · rw [Tab.get_insert d _ a k v (fun e he => Tab.mem_erase he), if_neg h, Tab.get_erase, if_neg h]

/-! ## The canonical form -/

theorem Tab.risesFrom_filter {b : Nat} {t : Tab α} (p : Nat × α → Bool) (h : Tab.risesFrom b t = true) :
    Tab.risesFrom b (t.filter p) = true := by
  induction t generalizing b with
  | nil => rfl
  | cons e t ih =>
    obtain ⟨k, v⟩ := e
    simp only [Tab.risesFrom, Bool.and_eq_true, decide_eq_true_eq] at h
    rw [List.filter_cons]
    split
    · simp only [Tab.risesFrom, Bool.and_eq_true, decide_eq_true_eq]; exact ⟨h.1, ih h.2⟩
    · have hk := ih h.2
      revert hk
      generalize List.filter p t = u
      cases u with
      | nil => intro _; rfl
      | cons e' u' =>
        obtain ⟨k', v'⟩ := e'
        simp only [Tab.risesFrom, Bool.and_eq_true, decide_eq_true_eq]
        intro hk
        exact ⟨Nat.lt_trans h.1 hk.1, hk.2⟩

theorem Tab.wf_filter [DecidableEq α] {d : Nat → α} {t : Tab α} (p : Nat × α → Bool) (h : Tab.wf d t = true) :
    Tab.wf d (t.filter p) = true := by
  induction t with
  | nil => rfl
  | cons e t ih =>
    obtain ⟨k, v⟩ := e
    simp only [Tab.wf, Bool.and_eq_true, decide_eq_true_eq] at h
    rw [List.filter_cons]
    split
    · simp only [Tab.wf, Bool.and_eq_true, decide_eq_true_eq]
      exact ⟨⟨h.1.1, Tab.risesFrom_filter p h.1.2⟩, ih h.2⟩
    · exact ih h.2

theorem Tab.wf_keep [DecidableEq α] {d : Nat → α} {t : Tab α} (p : Nat → Bool) (h : Tab.wf d t = true) :
    Tab.wf d (t.keep p) = true := Tab.wf_filter _ h

theorem Tab.risesFrom_insert {b a : Nat} {v : α} {t : Tab α} (hb : b < a) (h : Tab.risesFrom b t = true)
    (hn : ∀ e ∈ t, e.1 ≠ a) : Tab.risesFrom b (Tab.insert a v t) = true := by
  induction t generalizing b with
  | nil => simp [Tab.insert, Tab.risesFrom, hb]
  | cons e t ih =>
    obtain ⟨k, w⟩ := e
    simp only [Tab.risesFrom, Bool.and_eq_true, decide_eq_true_eq] at h
    simp only [Tab.insert]
    split
    · rename_i hk; simp [Tab.risesFrom, hb, hk, h.2]
    · rename_i hk
      have hka : k ≠ a := hn (k, w) (by simp)
      simp only [Tab.risesFrom, Bool.and_eq_true, decide_eq_true_eq]
      exact ⟨h.1, ih (by omega) h.2 (fun e he => hn e (by simp [he]))⟩

theorem Tab.wf_insert [DecidableEq α] {d : Nat → α} {a : Nat} {v : α} {t : Tab α} (hv : v ≠ d a) (h : Tab.wf d t = true)
    (hn : ∀ e ∈ t, e.1 ≠ a) : Tab.wf d (Tab.insert a v t) = true := by
  induction t with
  | nil => simp [Tab.insert, Tab.wf, Tab.risesFrom, hv]
  | cons e t ih =>
    obtain ⟨k, w⟩ := e
    simp only [Tab.wf, Bool.and_eq_true, decide_eq_true_eq] at h
    simp only [Tab.insert]
    split
    · rename_i hk
      simp [Tab.wf, Tab.risesFrom, hv, hk, h.1.1, h.1.2, h.2]
    · rename_i hk
      have hka : k ≠ a := hn (k, w) (by simp)
      have ht : ∀ e ∈ t, e.1 ≠ a := fun e he => hn e (by simp [he])
      simp only [Tab.wf, Bool.and_eq_true, decide_eq_true_eq]
      exact ⟨⟨h.1.1, Tab.risesFrom_insert (by omega) h.1.2 ht⟩, ih h.2 ht⟩

/-- A write keeps the canonical form. -/
theorem Tab.wf_put [DecidableEq α] {d : Nat → α} {t : Tab α} (a : Nat) (v : α) (h : Tab.wf d t = true) :
    Tab.wf d (Tab.put (d a) t a v) = true := by
  unfold Tab.put
  split
  · exact Tab.wf_filter _ h
  · rename_i hv
    exact Tab.wf_insert hv (Tab.wf_filter _ h) (fun e he => Tab.mem_erase he)

end Sys2Proof
end

