-- ==== Sys2Proof/Laws/KeepSound.lean ====
section
/-! SUPPORT. The primitive updates keep a state sound; so do loops and choices over updates that do. -/
namespace Sys2Proof.Machine

variable {q : List Instr} {s : State}

/-- An update of a field that holds no table of `State.Canon` and no queue changes nothing of soundness. -/
@[simp] theorem State.sound_mk (t : State) (tb : BitVec 64) (fc : Nat) (fab : FabSt) (ih : BitVec 16) (iu : Tab Nat) (tin : TinSt)
    (tmr : TmrSt) (drl : DrlSt) (grn : List GrnJob) (pads : PadSt) (acw : AcwSt) (sec : SecSt) (pwr : PwrSt) (tyk : TykSt)
    (hrw : HrwSt) (sup : SupSt) (aud : AudSt) (lnk : LnkSt) (uc : UcSt) (dbg : DbgSt) (gln : Option (Nat × List Word)) :
    State.Sound q (State.mk t.pending t.regs t.eff t.mem t.gran tb fc t.resp fab ih iu tin tmr drl grn pads acw sec pwr t.procs
      t.work t.beams tyk hrw sup aud lnk uc dbg gln) ↔ State.Sound q t :=
  ⟨fun h => ⟨h.queue, ⟨h.canon.regs, h.canon.eff, h.canon.mem, h.canon.gran, h.canon.work, h.canon.resp, h.canon.procs,
    h.canon.beams⟩⟩,
   fun h => ⟨h.queue, ⟨h.canon.regs, h.canon.eff, h.canon.mem, h.canon.gran, h.canon.work, h.canon.resp, h.canon.procs,
    h.canon.beams⟩⟩⟩

@[simp] theorem State.setReg_sound (h : s.Sound q) (a : Nat) (v : Word) : (s.setReg a v).Sound q :=
  ⟨h.queue, { h.canon with regs := Tab.wf_put a v h.canon.regs }⟩

@[simp] theorem State.setEff_sound (h : s.Sound q) (a : Nat) (v : Word) : (s.setEff a v).Sound q :=
  ⟨h.queue, { h.canon with eff := Tab.wf_put a v h.canon.eff }⟩

@[simp] theorem State.setMem_sound (h : s.Sound q) (a : Nat) (v : Word) : (s.setMem a v).Sound q :=
  ⟨h.queue, { h.canon with mem := Tab.wf_put a v h.canon.mem }⟩

@[simp] theorem State.setGran_sound (h : s.Sound q) (a : Nat) (v : Word) : (s.setGran a v).Sound q :=
  ⟨h.queue, { h.canon with gran := Tab.wf_put a v h.canon.gran }⟩

@[simp] theorem State.answer_sound (h : s.Sound q) (r : Nat) (v : Resp) : (s.answer r v).Sound q :=
  ⟨h.queue, { h.canon with resp := Tab.wf_put r v h.canon.resp }⟩

@[simp] theorem State.setProc_sound (h : s.Sound q) (p : Nat) (x : ProcSt) : (s.setProc p x).Sound q :=
  ⟨h.queue, { h.canon with procs := Tab.wf_put p x h.canon.procs }⟩

@[simp] theorem State.setBeam_sound (h : s.Sound q) (b : Nat) (x : BeamSt) : (s.setBeam b x).Sound q :=
  ⟨h.queue, { h.canon with beams := Tab.wf_put b x h.canon.beams }⟩

@[simp] theorem State.setWork_sound (h : s.Sound q) (a : Nat) (v : Word) : (s.setWork a v).Sound q :=
  ⟨h.queue, { h.canon with work := Tab.wf_put a (some v) h.canon.work }⟩

@[simp] theorem State.dropWork_sound (h : s.Sound q) (a : Nat) : (s.dropWork a).Sound q :=
  ⟨h.queue, { h.canon with work := Tab.wf_put a none h.canon.work }⟩

@[simp] theorem State.resetRegs_sound (h : s.Sound q) (f : Nat → Bool) : (s.resetRegs f).Sound q :=
  ⟨h.queue, { h.canon with regs := Tab.wf_keep (fun a => !f a) h.canon.regs,
                           eff := Tab.wf_keep (fun a => !f a) h.canon.eff }⟩

@[simp] theorem State.keepWork_sound (h : s.Sound q) (f : Nat → Bool) :
    State.Sound q { s with work := s.work.keep f } :=
  ⟨h.queue, { h.canon with work := Tab.wf_keep _ h.canon.work }⟩

@[simp] theorem State.clearMem_sound (h : s.Sound q) : State.Sound q { s with mem := [] } :=
  ⟨h.queue, { h.canon with mem := rfl }⟩

/-- What a reset keeps of the tables is canonical. -/
@[simp] theorem State.scope_sound (h : s.Sound q) (f g : Nat → Bool) (tb : BitVec 64) (fc : Nat) (fab : FabSt)
    (ih : BitVec 16) (iu : Tab Nat) (tin : TinSt) (tmr : TmrSt) (drl : DrlSt) (grn : List GrnJob) (pads : PadSt) (acw : AcwSt) (sec : SecSt)
    (pwr : PwrSt) (tyk : TykSt) (hrw : HrwSt) (sup : SupSt) (aud : AudSt) (lnk : LnkSt) (uc : UcSt) (dbg : DbgSt)
    (gln : Option (Nat × List Word)) :
    State.Sound q (State.mk s.pending (s.regs.keep f) (s.eff.keep g) [] s.gran tb fc s.resp fab ih iu tin tmr drl grn pads acw
      sec pwr [] [] [] tyk hrw sup aud lnk uc dbg gln) :=
  ⟨h.queue, ⟨Tab.wf_keep f h.canon.regs, Tab.wf_keep g h.canon.eff, rfl, h.canon.gran, rfl, h.canon.resp, rfl, rfl⟩⟩

@[simp] theorem State.scope_sound' (h : s.Sound q) (f : Nat → Bool) (tb : BitVec 64) (fc : Nat) (fab : FabSt)
    (ih : BitVec 16) (iu : Tab Nat) (tin : TinSt) (tmr : TmrSt) (drl : DrlSt) (grn : List GrnJob) (pads : PadSt) (acw : AcwSt) (sec : SecSt)
    (pwr : PwrSt) (tyk : TykSt) (hrw : HrwSt) (sup : SupSt) (aud : AudSt) (lnk : LnkSt) (uc : UcSt) (dbg : DbgSt)
    (gln : Option (Nat × List Word)) :
    State.Sound q (State.mk s.pending (s.regs.keep f) [] [] s.gran tb fc s.resp fab ih iu tin tmr drl grn pads acw
      sec pwr [] [] [] tyk hrw sup aud lnk uc dbg gln) :=
  ⟨h.queue, ⟨Tab.wf_keep f h.canon.regs, rfl, rfl, h.canon.gran, rfl, h.canon.resp, rfl, rfl⟩⟩

/-- A loop over updates that keep soundness keeps it. -/
@[simp] theorem foldl_sound {α : Type} {f : State → α → State} (l : List α) (h : s.Sound q)
    (hf : ∀ t a, t.Sound q → (f t a).Sound q) : (l.foldl f s).Sound q := by
  induction l generalizing s with
  | nil => exact h
  | cons a l ih => exact ih (hf s a h)

/-- A loop that carries a value beside the state. -/
@[simp] theorem foldl_fst_sound {α β : Type} {f : State × β → α → State × β} (l : List α) (x : State × β) (h : x.1.Sound cq)
    (hf : ∀ x a, x.1.Sound cq → (f x a).1.Sound cq) : (l.foldl f x).1.Sound cq := by
  induction l generalizing x with
  | nil => exact h
  | cons a l ih => exact ih _ (hf x a h)

@[simp] theorem foldl_snd_sound {α β : Type} {f : β × State → α → β × State} (l : List α) (x : β × State) (h : x.2.Sound cq)
    (hf : ∀ x a, x.2.Sound cq → (f x a).2.Sound cq) : (l.foldl f x).2.Sound cq := by
  induction l generalizing x with
  | nil => exact h
  | cons a l ih => exact ih _ (hf x a h)

@[simp] theorem forN_sound {f : Nat → State → State} (n : Nat) (h : s.Sound q) (hf : ∀ i t, t.Sound q → (f i t).Sound q) :
    (forN n f s).Sound q := foldl_sound _ h (fun t i ht => hf i t ht)

@[simp] theorem ite_sound {c : Prop} [Decidable c] {a b : State} (ha : a.Sound q) (hb : b.Sound q) :
    State.Sound q (if c then a else b) := by split <;> assumption

@[simp] theorem fst_ite_sound {α : Type} {c : Prop} [Decidable c] {a b : State × α} (ha : a.1.Sound q) (hb : b.1.Sound q) :
    State.Sound q (if c then a else b).1 := by split <;> assumption

@[simp] theorem snd_ite_sound {α : Type} {c : Prop} [Decidable c] {a b : α × State} (ha : a.2.Sound q) (hb : b.2.Sound q) :
    State.Sound q (if c then a else b).2 := by split <;> assumption

/-- Every next state of an outcome is sound. -/
def OutSound (q : List Instr) (o : Out) : Prop := ∀ t, o = .next t → State.Sound q t

@[simp] theorem outSound_next : OutSound q (.next s) ↔ s.Sound q :=
  ⟨fun h => h s rfl, fun h t e => by cases e; exact h⟩

@[simp] theorem outSound_refused (r : Refusal) : OutSound q (.refused r) := fun _ e => by cases e

@[simp] theorem outSound_ite {c : Prop} [Decidable c] {a b : Out} (ha : OutSound q a) (hb : OutSound q b) :
    OutSound q (if c then a else b) := by split <;> assumption

/-- Every state that an option holds is sound. -/
def OptSound (q : List Instr) (o : Option State) : Prop := ∀ t, o = some t → State.Sound q t

@[simp] theorem optSound_none : OptSound q none := fun _ e => by cases e

@[simp] theorem optSound_some : OptSound q (some s) ↔ s.Sound q :=
  ⟨fun h => h s rfl, fun h t e => by cases e; exact h⟩

@[simp] theorem optSound_ite {c : Prop} [Decidable c] {a b : Option State} (ha : OptSound q a) (hb : OptSound q b) :
    OptSound q (if c then a else b) := by split <;> assumption

@[simp] theorem getD_sound {o : Option State} (h : s.Sound q) (ho : OptSound q o) : (o.getD s).Sound q := by
  cases o with
  | none => exact h
  | some t => exact ho t rfl

theorem optSound_of_eq {o : Option State} (h : OptSound q o) {t : State} (e : o = some t) : t.Sound q := h t e

end Sys2Proof.Machine
end

