-- ==== Sys2Proof/Laws/KeepSoundOps.lean ====
section
/-! SUPPORT. The updates of Machine/Ops.lean keep a state sound. -/
namespace Sys2Proof.Machine

variable {cq : List Instr}

@[simp] theorem State.latch_sound (s : State) (a : Nat) (hk : s.Sound cq) :
    (State.latch s a).Sound cq := by
  unfold State.latch; simp +contextual (maxDischargeDepth := 40) [hk]

@[simp] theorem State.setFld_sound (s : State) (a : Nat) (f : Fld) (n : Nat) (hk : s.Sound cq) :
    (State.setFld s a f n).Sound cq := by
  unfold State.setFld; simp +contextual (maxDischargeDepth := 40) [hk]

@[simp] theorem State.orReg_sound (s : State) (a : Nat) (m : Word) (hk : s.Sound cq) :
    (State.orReg s a m).Sound cq := by
  unfold State.orReg; simp +contextual (maxDischargeDepth := 40) [hk]

@[simp] theorem State.clrReg_sound (s : State) (a : Nat) (m : Word) (hk : s.Sound cq) :
    (State.clrReg s a m).Sound cq := by
  unfold State.clrReg; simp +contextual (maxDischargeDepth := 40) [hk]

@[simp] theorem State.setBit_sound (s : State) (a n : Nat) (hk : s.Sound cq) :
    (State.setBit s a n).Sound cq := by
  unfold State.setBit; simp +contextual (maxDischargeDepth := 40) [hk]

@[simp] theorem State.clrBit_sound (s : State) (a n : Nat) (hk : s.Sound cq) :
    (State.clrBit s a n).Sound cq := by
  unfold State.clrBit; simp +contextual (maxDischargeDepth := 40) [hk]

@[simp] theorem State.putBit_sound (s : State) (a n : Nat) (b : Bool) (hk : s.Sound cq) :
    (State.putBit s a n b).Sound cq := by
  unfold State.putBit; simp +contextual (maxDischargeDepth := 40) [hk]

@[simp] theorem State.updProc_sound (s : State) (p : Nat) (f : ProcSt → ProcSt) (hk : s.Sound cq) :
    (State.updProc s p f).Sound cq := by
  unfold State.updProc; simp +contextual (maxDischargeDepth := 40) [hk]

@[simp] theorem State.updBeam_sound (s : State) (b : Nat) (f : BeamSt → BeamSt) (hk : s.Sound cq) :
    (State.updBeam s b f).Sound cq := by
  unfold State.updBeam; simp +contextual (maxDischargeDepth := 40) [hk]

@[simp] theorem State.updFur_sound (s : State) (b : Nat) (f : FurSt → FurSt) (hk : s.Sound cq) :
    (State.updFur s b f).Sound cq := by
  unfold State.updFur; simp +contextual (maxDischargeDepth := 40) [hk]

@[simp] theorem State.bump_sound (s : State) (a : Nat) (hk : s.Sound cq) :
    (State.bump s a).Sound cq := by
  unfold State.bump; simp +contextual (maxDischargeDepth := 40) [hk]

@[simp] theorem State.bumpBy_sound (s : State) (a n : Nat) (hk : s.Sound cq) :
    (State.bumpBy s a n).Sound cq := by
  unfold State.bumpBy; simp +contextual (maxDischargeDepth := 40) [hk]

@[simp] theorem State.flag_sound (s : State) (x : Option (Nat × Nat)) (h : s.Sound cq) : (s.flag x).Sound cq := by
  cases x <;> simp [State.flag, h]

@[simp] theorem State.countAt_sound (s : State) (p : ErrPlace) (cause : Nat) (hk : s.Sound cq) :
    (State.countAt s p cause).Sound cq := by
  unfold State.countAt; split <;> simp +contextual (maxDischargeDepth := 40) [hk]

@[simp] theorem State.err_sound (s : State) (w cause : Nat) (hk : s.Sound cq) :
    (State.err s w cause).Sound cq := by
  unfold State.err; simp +contextual (maxDischargeDepth := 40) [hk]

@[simp] theorem State.freeIn_sound (s : State) (lo n : Nat) (hk : s.Sound cq) :
    (State.freeIn s lo n).2.Sound cq := by
  unfold State.freeIn; simp +contextual (maxDischargeDepth := 40) [hk]

@[simp] theorem State.useFree_sound (s : State) (hk : s.Sound cq) :
    (State.useFree s).Sound cq := by
  unfold State.useFree; simp +contextual (maxDischargeDepth := 40) [hk]

@[simp] theorem State.publish_sound (s : State) (t : Nat) (hk : s.Sound cq) :
    (State.publish s t).Sound cq := by
  unfold State.publish; simp +contextual (maxDischargeDepth := 40) [hk]

@[simp] theorem State.publishIf_sound (s : State) (en : Bool) (t : Nat) (hk : s.Sound cq) :
    (State.publishIf s en t).Sound cq := by
  unfold State.publishIf; simp +contextual (maxDischargeDepth := 40) [hk]

@[simp] theorem State.glnAdd_sound (s : State) (u fuel k n : Nat) (h : s.Sound cq) : (s.glnAdd u fuel k n).Sound cq := by
  induction fuel generalizing s k n with
  | zero => exact h
  | succ m ih =>
    unfold State.glnAdd
    simp only
    split
    · exact h
    · split
      · simp [h]
      · split
        · exact ih _ _ _ (by simp [h])
        · simp +contextual (maxDischargeDepth := 40) [h]

@[simp] theorem State.perf_sound (s : State) (u code : Nat) (n : Nat) (hk : s.Sound cq) :
    (State.perf s u code n).Sound cq := by
  unfold State.perf; simp +contextual (maxDischargeDepth := 40) [hk]

@[simp] theorem State.passTo_sound (s : State) (t : Nat) (hk : s.Sound cq) :
    (State.passTo s t).Sound cq := by
  unfold State.passTo; simp +contextual (maxDischargeDepth := 40) [hk]

@[simp] theorem State.tick_sound (s : State) (hk : s.Sound cq) :
    (State.tick s).Sound cq := by
  unfold State.tick; simp +contextual (maxDischargeDepth := 40) [hk]

end Sys2Proof.Machine
end

