-- ==== Sys2Proof/Laws/KeepSoundMemory.lean ====
section
/-! SUPPORT. The updates of Machine/Memory.lean keep a state sound. -/
namespace Sys2Proof.Machine

variable {cq : List Instr}

@[simp] theorem State.startWake_sound (s : State) (k : Nat) (hk : s.Sound cq) :
    (State.startWake s k).Sound cq := by
  unfold State.startWake; simp +contextual (maxDischargeDepth := 40) [hk]

@[simp] theorem State.wakeDone_sound (s : State) (k : Nat) (hk : s.Sound cq) :
    (State.wakeDone s k).Sound cq := by
  unfold State.wakeDone; simp +contextual (maxDischargeDepth := 40) [hk]

@[simp] theorem State.wakeFor_sound (s : State) (a : Nat) (beam : Bool) (hk : s.Sound cq) :
    (State.wakeFor s a beam).Sound cq := by
  unfold State.wakeFor; simp +contextual (maxDischargeDepth := 40) [hk]

@[simp] theorem State.putLine_sound (s : State) (ln : Nat) (ws : List Word) (hk : s.Sound cq) :
    (State.putLine s ln ws).Sound cq := by
  unfold State.putLine; simp +contextual (maxDischargeDepth := 40) [hk]

@[simp] theorem State.settleWb_sound (s : State) (ln : Nat) (hk : s.Sound cq) :
    (State.settleWb s ln).Sound cq := by
  unfold State.settleWb; simp +contextual (maxDischargeDepth := 40) [hk]

@[simp] theorem State.shareLine_sound (s : State) (ln : Nat) (hk : s.Sound cq) :
    (State.shareLine s ln).Sound cq := by
  unfold State.shareLine; grind [State.updProc_sound, State.putLine_sound, State.settleWb_sound, forN_sound, foldl_sound]

@[simp] theorem State.invalidateLine_sound (s : State) (keep ln : Nat) (hk : s.Sound cq) :
    (State.invalidateLine s keep ln).Sound cq := by
  unfold State.invalidateLine; simp +contextual (maxDischargeDepth := 40) [hk]

@[simp] theorem State.touchLine_sound (s : State) (r ln : Nat) (hk : s.Sound cq) :
    (State.touchLine s r ln).Sound cq := by
  unfold State.touchLine; simp +contextual (maxDischargeDepth := 40) [hk]

@[simp] theorem State.cohStore_sound (s : State) (r a : Nat) (v : Word) (hk : s.Sound cq) :
    (State.cohStore s r a v).Sound cq := by
  unfold State.cohStore; simp +contextual (maxDischargeDepth := 40) [hk]

@[simp] theorem State.countFail_sound (s : State) (r a : Nat) (e : AccErr) (hk : s.Sound cq) :
    (State.countFail s r a e).Sound cq := by
  unfold State.countFail; split <;> simp +contextual (maxDischargeDepth := 40) [hk]

@[simp] theorem State.noteFetches_sound (s : State) (r p : Nat) (as : List Nat) (hk : s.Sound cq) :
    (State.noteFetches s r p as).Sound cq := by
  unfold State.noteFetches; grind [State.wakeFor_sound, State.shareLine_sound, State.countFail_sound, forN_sound, foldl_sound]

end Sys2Proof.Machine
end

