-- ==== Sys2Proof/Laws/KeepSoundAccess.lean ====
section
/-! SUPPORT. The updates of Machine/Access.lean keep a state sound. -/
namespace Sys2Proof.Machine

variable {cq : List Instr}

@[simp] theorem State.refuse_sound (s : State) (r p a : Nat) (e : AccErr) (hk : s.Sound cq) :
    (State.refuse s r p a e).Sound cq := by
  unfold State.refuse; split <;> simp +contextual (maxDischargeDepth := 40) [hk]

@[simp] theorem State.countOwn_sound (s : State) (r : Nat) (e : AccErr) (hk : s.Sound cq) :
    (State.countOwn s r e).Sound cq := by
  unfold State.countOwn; grind [State.countAt_sound, forN_sound, foldl_sound]

@[simp] theorem State.regCmd_sound (s : State) (r a : Nat) (f : State → State) (hk : s.Sound cq) (hkf : ∀ t, t.Sound cq → (f t).Sound cq) :
    (State.regCmd s r a f).Sound cq := by
  unfold State.regCmd; split <;> simp +contextual (maxDischargeDepth := 40) [hk, hkf]

@[simp] theorem State.regCmdR_sound (s : State) (r a : Nat) (f : State → State × BusResp) (hk : s.Sound cq) (hkf : ∀ t, t.Sound cq → (f t).1.Sound cq) :
    (State.regCmdR s r a f).Sound cq := by
  unfold State.regCmdR; split <;> simp +contextual (maxDischargeDepth := 40) [hk, hkf]

@[simp] theorem State.dropPlace_sound (s : State) (w o : Nat) (hk : s.Sound cq) :
    (State.dropPlace s w o).Sound cq := by
  unfold State.dropPlace; split <;> simp +contextual (maxDischargeDepth := 40) [hk]

@[simp] theorem State.dropWrite_sound (s : State) (w o : Nat) (hk : s.Sound cq) :
    (State.dropWrite s w o).Sound cq := by
  unfold State.dropWrite; simp +contextual (maxDischargeDepth := 40) [hk]

@[simp] theorem State.plainWrite_sound (s : State) (a : Nat) (v : Word) (hk : s.Sound cq) :
    (State.plainWrite s a v).Sound cq := by
  unfold State.plainWrite; repeat' split
  all_goals simp +contextual (maxDischargeDepth := 40) [hk]

end Sys2Proof.Machine
end

