-- ==== Sys2Proof/Laws/KeepSoundLinkFrames.lean ====
section
/-! SUPPORT. The updates of Machine/LinkFrames.lean keep a state sound. -/
namespace Sys2Proof.Machine

variable {cq : List Instr}

@[simp] theorem State.updLane_sound (s : State) (n : Nat) (f : LaneSt → LaneSt) (hk : s.Sound cq) :
    (State.updLane s n f).Sound cq := by
  unfold State.updLane; simp +contextual (maxDischargeDepth := 40) [hk]

@[simp] theorem State.updLnk_sound (s : State) (f : LnkSt → LnkSt) (hk : s.Sound cq) :
    (State.updLnk s f).Sound cq := by
  unfold State.updLnk; simp +contextual (maxDischargeDepth := 40) [hk]

@[simp] theorem State.laneSend_sound (s : State) (n ty : Nat) (f : LinkFrame) (own : Bool) (hk : s.Sound cq) :
    (State.laneSend s n ty f own).Sound cq := by
  unfold State.laneSend; simp +contextual (maxDischargeDepth := 40) [hk]

@[simp] theorem State.stepSeq_sound (s : State) (ty : Nat) (hk : s.Sound cq) :
    (State.stepSeq s ty).Sound cq := by
  unfold State.stepSeq; simp +contextual (maxDischargeDepth := 40) [hk]

@[simp] theorem State.sendOwn_sound (s : State) (n ty hops dest : Nat) (dir bc : Bool) (payload : List Word) (hk : s.Sound cq) :
    (State.sendOwn s n ty hops dest dir bc payload).Sound cq := by
  unfold State.sendOwn; simp +contextual (maxDischargeDepth := 40) [hk]

@[simp] theorem State.send_sound (s : State) (t : Transport) (f : List Word) (hk : s.Sound cq) :
    (State.send s t f).Sound cq := by
  unfold State.send; simp +contextual (maxDischargeDepth := 40) [hk]

@[simp] theorem State.sendAround_sound (s : State) (ty src dest : Nat) (ws : List Word) (hk : s.Sound cq) :
    (State.sendAround s ty src dest ws).Sound cq := by
  unfold State.sendAround; grind [State.laneSend_sound, State.stepSeq_sound, forN_sound, foldl_sound]

end Sys2Proof.Machine
end

