-- ==== Sys2Proof/Laws/KeepSoundLinkAuth.lean ====
section
/-! SUPPORT. The updates of Machine/LinkAuth.lean keep a state sound. -/
namespace Sys2Proof.Machine

variable {cq : List Instr}

@[simp] theorem State.authNew_sound (s : State) (e2e : Bool) (hk : s.Sound cq) :
    (State.authNew s e2e).2.Sound cq := by
  unfold State.authNew; simp +contextual (maxDischargeDepth := 40) [hk]

@[simp] theorem State.authSign_sound (s : State) (a : AuthSt) (hk : s.Sound cq) :
    (State.authSign s a).2.Sound cq := by
  unfold State.authSign; simp +contextual (maxDischargeDepth := 40) [hk]

@[simp] theorem State.putE2e_sound (s : State) (x : E2eSt) (hk : s.Sound cq) :
    (State.putE2e s x).Sound cq := by
  unfold State.putE2e; simp +contextual (maxDischargeDepth := 40) [hk]

@[simp] theorem State.joinSend_sound (s : State) (n : Nat) (ws : List Word) (hk : s.Sound cq) :
    (State.joinSend s n ws).Sound cq := by
  unfold State.joinSend; simp +contextual (maxDischargeDepth := 40) [hk]

@[simp] theorem State.e2eSend_sound (s : State) (x : E2eSt) (ws : List Word) (hk : s.Sound cq) :
    (State.e2eSend s x ws).Sound cq := by
  unfold State.e2eSend; split <;> simp +contextual (maxDischargeDepth := 40) [hk]

@[simp] theorem State.e2eBegin_sound (s : State) (x : E2eSt) (hk : s.Sound cq) :
    (State.e2eBegin s x).Sound cq := by
  unfold State.e2eBegin; simp +contextual (maxDischargeDepth := 40) [hk]

@[simp] theorem State.ctrlSealed_sound (s : State) (x : E2eSt) (ws : List Word) (hk : s.Sound cq) :
    (State.ctrlSealed s x ws).Sound cq := by
  unfold State.ctrlSealed; simp +contextual (maxDischargeDepth := 40) [hk]

@[simp] theorem State.ctrlSend_sound (s : State) (dest : Nat) (ws : List Word) (hk : s.Sound cq) :
    (State.ctrlSend s dest ws).Sound cq := by
  unfold State.ctrlSend; split <;> simp +contextual (maxDischargeDepth := 40) [hk]

@[simp] theorem State.linkDeliver_sound (s : State) (dest : Nat) (ws : List Word) (hk : s.Sound cq) :
    (State.linkDeliver s dest ws).Sound cq := by
  unfold State.linkDeliver; simp +contextual (maxDischargeDepth := 40) [hk]

@[simp] theorem State.e2eKeyed_sound (s : State) (x : E2eSt) (k : HopKey × HopKey) (hk : s.Sound cq) :
    (State.e2eKeyed s x k).Sound cq := by
  unfold State.e2eKeyed; grind [State.putE2e_sound, State.ctrlSealed_sound, forN_sound, foldl_sound]

end Sys2Proof.Machine
end

