-- ==== Sys2Proof/Laws/KeepSoundReports.lean ====
section
/-! SUPPORT. The updates of Machine/Reports.lean keep a state sound. -/
namespace Sys2Proof.Machine

variable {cq : List Instr}

@[simp] theorem State.putWords_sound (s : State) (r a : Nat) (ws : List Word) (hk : s.Sound cq) :
    (State.putWords s r a ws).Sound cq := by
  unfold State.putWords; simp +contextual (maxDischargeDepth := 40) [hk]

@[simp] theorem State.mbPut_sound (s : State) (p : Nat) (ws : List Word) (hk : s.Sound cq) :
    OptSound cq (State.mbPut s p ws) := by
  unfold State.mbPut; simp +contextual (maxDischargeDepth := 40) [hk]

@[simp] theorem State.sendReport_sound (s : State) (p : Nat) (r : Report) (hk : s.Sound cq) :
    (State.sendReport s p r).Sound cq := by
  unfold State.sendReport; simp +contextual (maxDischargeDepth := 40) [hk]

@[simp] theorem State.setReports_sound (s : State) (p : Nat) (rs : List Report) (hk : s.Sound cq) :
    (State.setReports s p rs).Sound cq := by
  unfold State.setReports; simp +contextual (maxDischargeDepth := 40) [hk]

@[simp] theorem State.report_sound (s : State) (p code : Nat) (ws : List Word) (hk : s.Sound cq) :
    (State.report s p code ws).Sound cq := by
  unfold State.report; simp +contextual (maxDischargeDepth := 40) [hk]

@[simp] theorem State.safety_sound (s : State) (p cause detail frame : Nat) (hk : s.Sound cq) :
    (State.safety s p cause detail frame).Sound cq := by
  unfold State.safety; simp +contextual (maxDischargeDepth := 40) [hk]

@[simp] theorem State.linkReport_sound (s : State) (event lane : Nat) (hk : s.Sound cq) :
    (State.linkReport s event lane).Sound cq := by
  unfold State.linkReport; simp +contextual (maxDischargeDepth := 40) [hk]

@[simp] theorem State.dirReport_sound (s : State) (event addr : Nat) (devid : Word) (hk : s.Sound cq) :
    (State.dirReport s event addr devid).Sound cq := by
  unfold State.dirReport; simp +contextual (maxDischargeDepth := 40) [hk]

end Sys2Proof.Machine
end

