-- ==== Sys2Proof/Laws/KeepSoundFabric.lean ====
section
/-! SUPPORT. The updates of Machine/Fabric.lean keep a state sound. -/
namespace Sys2Proof.Machine

variable {cq : List Instr}

@[simp] theorem State.fabErr_sound (s : State) (hk : s.Sound cq) :
    (State.fabErr s).Sound cq := by
  unfold State.fabErr; simp +contextual (maxDischargeDepth := 40) [hk]

@[simp] theorem execPaceWindow_sound (cycles : BitVec 16) (s : State) (hk : s.Sound cq) :
    OutSound cq (execPaceWindow cycles s) := by
  unfold execPaceWindow; simp +contextual (maxDischargeDepth := 40) [hk]

@[simp] theorem execRefreshCycle_sound (_q : Fin 4) (s : State) (hk : s.Sound cq) :
    OutSound cq (execRefreshCycle _q s) := by
  unfold execRefreshCycle; simp +contextual (maxDischargeDepth := 40) [hk]

@[simp] theorem execRefreshRateChange_sound (q : Fin 4) (temp : Int) (s : State) (hk : s.Sound cq) :
    OutSound cq (execRefreshRateChange q temp s) := by
  unfold execRefreshRateChange; simp +contextual (maxDischargeDepth := 40) [hk]

@[simp] theorem State.setFmen_sound (s : State) (hk : s.Sound cq) :
    (State.setFmen s).Sound cq := by
  unfold State.setFmen; simp +contextual (maxDischargeDepth := 40) [hk]

@[simp] theorem execFmenSet_sound (req : Req) (s : State) (hk : s.Sound cq) :
    OutSound cq (execFmenSet req s) := by
  unfold execFmenSet; simp +contextual (maxDischargeDepth := 40) [hk]

@[simp] theorem execFieldMemoryInitDone_sound (s : State) (hk : s.Sound cq) :
    OutSound cq (execFieldMemoryInitDone s) := by
  unfold execFieldMemoryInitDone; simp +contextual (maxDischargeDepth := 40) [hk]

@[simp] theorem State.notePeak_sound (s : State) (n : Nat) (hk : s.Sound cq) :
    (State.notePeak s n).Sound cq := by
  unfold State.notePeak; simp +contextual (maxDischargeDepth := 40) [hk]

@[simp] theorem State.countTags_sound (s : State) (hk : s.Sound cq) :
    (State.countTags s).Sound cq := by
  unfold State.countTags; simp +contextual (maxDischargeDepth := 40) [hk]

@[simp] theorem State.passTag_sound (s : State) (hk : s.Sound cq) :
    (State.passTag s).Sound cq := by
  unfold State.passTag; simp +contextual (maxDischargeDepth := 40) [hk]

@[simp] theorem State.clrPeak_sound (s : State) (hk : s.Sound cq) :
    (State.clrPeak s).Sound cq := by
  unfold State.clrPeak; simp +contextual (maxDischargeDepth := 40) [hk]

@[simp] theorem execTagpeakClr_sound (req : Req) (s : State) (hk : s.Sound cq) :
    OutSound cq (execTagpeakClr req s) := by
  unfold execTagpeakClr; simp +contextual (maxDischargeDepth := 40) [hk]

@[simp] theorem State.writeCrd_sound (s : State) (n : Nat) (v : Word) (hk : s.Sound cq) :
    (State.writeCrd s n v).Sound cq := by
  unfold State.writeCrd; simp +contextual (maxDischargeDepth := 40) [hk]

@[simp] theorem execCreditWrite_sound (req : Req) (n : Fin 26) (v : Word) (s : State) (hk : s.Sound cq) :
    OutSound cq (execCreditWrite req n v s) := by
  unfold execCreditWrite; simp +contextual (maxDischargeDepth := 40) [hk]

@[simp] theorem State.wakeAll_sound (s : State) (hk : s.Sound cq) :
    (State.wakeAll s).Sound cq := by
  unfold State.wakeAll; simp +contextual (maxDischargeDepth := 40) [hk]

@[simp] theorem State.settleTol_sound (s : State) (hk : s.Sound cq) :
    (State.settleTol s).Sound cq := by
  unfold State.settleTol; simp +contextual (maxDischargeDepth := 40) [hk]

@[simp] theorem State.declare_sound (s : State) (b : Nat) (t : Nat) (hk : s.Sound cq) :
    (State.declare s b t).Sound cq := by
  unfold State.declare; simp +contextual (maxDischargeDepth := 40) [hk]

@[simp] theorem execBankWakeStart_sound (bank : Option (BitVec 5)) (beamWaits : Bool) (s : State) (hk : s.Sound cq) :
    OutSound cq (execBankWakeStart bank beamWaits s) := by
  unfold execBankWakeStart; simp +contextual (maxDischargeDepth := 40) [hk]

@[simp] theorem execBankWakeDone_sound (bank : BitVec 5) (s : State) (hk : s.Sound cq) :
    OutSound cq (execBankWakeDone bank s) := by
  unfold execBankWakeDone; simp +contextual (maxDischargeDepth := 40) [hk]

@[simp] theorem State.dropSnoop_sound (s : State) (c ln : Nat) (hk : s.Sound cq) :
    (State.dropSnoop s c ln).Sound cq := by
  unfold State.dropSnoop; simp +contextual (maxDischargeDepth := 40) [hk]

@[simp] theorem State.answerSnoop_sound (s : State) (c ln : Nat) (hk : s.Sound cq) :
    (State.answerSnoop s c ln).Sound cq := by
  unfold State.answerSnoop; grind [State.updProc_sound, State.perf_sound, State.putLine_sound, State.dropSnoop_sound, forN_sound, foldl_sound]

@[simp] theorem execSnoop_sound (c : Fin 16) (line : BitVec 21) (s : State) (hk : s.Sound cq) :
    OutSound cq (execSnoop c line s) := by
  unfold execSnoop; simp +contextual (maxDischargeDepth := 40) [hk]

@[simp] theorem State.takeWriteback_sound (s : State) (c ln : Nat) (hk : s.Sound cq) :
    (State.takeWriteback s c ln).Sound cq := by
  unfold State.takeWriteback; split <;> simp +contextual (maxDischargeDepth := 40) [hk]

@[simp] theorem execWriteback_sound (c : Fin 16) (line : BitVec 21) (s : State) (hk : s.Sound cq) :
    OutSound cq (execWriteback c line s) := by
  unfold execWriteback; simp +contextual (maxDischargeDepth := 40) [hk]

@[simp] theorem State.setHolder_sound (s : State) (n : Nat) (h : Option (Nat × Nat)) (hk : s.Sound cq) :
    (State.setHolder s n h).Sound cq := by
  unfold State.setHolder; simp +contextual (maxDischargeDepth := 40) [hk]

@[simp] theorem State.semNote_sound (s : State) (p n : Nat) (hk : s.Sound cq) :
    (State.semNote s p n).Sound cq := by
  unfold State.semNote; simp +contextual (maxDischargeDepth := 40) [hk]

@[simp] theorem State.semNotify_sound (s : State) (n : Nat) (hk : s.Sound cq) :
    (State.semNotify s n).Sound cq := by
  unfold State.semNotify; simp +contextual (maxDischargeDepth := 40) [hk]

@[simp] theorem State.semAcquire_sound (s : State) (r p n : Nat) (hk : s.Sound cq) :
    (State.semAcquire s r p n).1.Sound cq := by
  unfold State.semAcquire; repeat' split
  all_goals simp +contextual (maxDischargeDepth := 40) [hk]

@[simp] theorem execSemaphoreAcquire_sound (req : Req) (p : Fin 8) (n : BitVec 8) (s : State) (hk : s.Sound cq) :
    OutSound cq (execSemaphoreAcquire req p n s) := by
  unfold execSemaphoreAcquire; grind [State.answer_sound, State.refuse_sound, State.semAcquire_sound, forN_sound, foldl_sound, outSound_next, outSound_refused]

@[simp] theorem State.semClrbrk_sound (s : State) (r p n : Nat) (hk : s.Sound cq) :
    (State.semClrbrk s r p n).Sound cq := by
  unfold State.semClrbrk; simp +contextual (maxDischargeDepth := 40) [hk]

@[simp] theorem State.semRel_sound (s : State) (r p n : Nat) (hk : s.Sound cq) :
    (State.semRel s r p n).Sound cq := by
  unfold State.semRel; simp +contextual (maxDischargeDepth := 40) [hk]

@[simp] theorem State.semWait_sound (s : State) (p n : Nat) (hk : s.Sound cq) :
    (State.semWait s p n).1.Sound cq := by
  unfold State.semWait; simp +contextual (maxDischargeDepth := 40) [hk]

@[simp] theorem State.semWrite_sound (s : State) (r p n : Nat) (v : Word) (hk : s.Sound cq) :
    (State.semWrite s r p n v).1.Sound cq := by
  unfold State.semWrite; simp +contextual (maxDischargeDepth := 40) [hk]

@[simp] theorem execSemaphoreClrbrk_sound (req : Req) (p : Fin 8) (n : BitVec 8) (s : State) (hk : s.Sound cq) :
    OutSound cq (execSemaphoreClrbrk req p n s) := by
  unfold execSemaphoreClrbrk; simp +contextual (maxDischargeDepth := 40) [hk]

@[simp] theorem execSemaphoreRel_sound (req : Req) (p : Fin 8) (n : BitVec 8) (s : State) (hk : s.Sound cq) :
    OutSound cq (execSemaphoreRel req p n s) := by
  unfold execSemaphoreRel; simp +contextual (maxDischargeDepth := 40) [hk]

@[simp] theorem execSemaphoreWait_sound (req : Req) (p : Fin 8) (n : BitVec 8) (s : State) (hk : s.Sound cq) :
    OutSound cq (execSemaphoreWait req p n s) := by
  unfold execSemaphoreWait; simp +contextual (maxDischargeDepth := 40) [hk]

@[simp] theorem State.writeSemacl_sound (s : State) (n : Nat) (v : Word) (hk : s.Sound cq) :
    (State.writeSemacl s n v).Sound cq := by
  unfold State.writeSemacl; simp +contextual (maxDischargeDepth := 40) [hk]

@[simp] theorem execSemaclWrite_sound (req : Req) (n : BitVec 8) (v : Word) (s : State) (hk : s.Sound cq) :
    OutSound cq (execSemaclWrite req n v s) := by
  unfold execSemaclWrite; simp +contextual (maxDischargeDepth := 40) [hk]

@[simp] theorem State.semBreak_sound (s : State) (mine : Nat × Nat → Bool) (hk : s.Sound cq) :
    (State.semBreak s mine).Sound cq := by
  unfold State.semBreak; simp +contextual (maxDischargeDepth := 40) [hk]

@[simp] theorem State.settleFencing_sound (s : State) (hk : s.Sound cq) :
    (State.settleFencing s).Sound cq := by
  unfold State.settleFencing; simp +contextual (maxDischargeDepth := 40) [hk]

@[simp] theorem State.refuseWaiters_sound (s : State) (p : Nat) (hk : s.Sound cq) :
    (State.refuseWaiters s p).Sound cq := by
  unfold State.refuseWaiters; simp +contextual (maxDischargeDepth := 40) [hk]

@[simp] theorem State.fenceStart_sound (s : State) (p : Nat) (hk : s.Sound cq) :
    (State.fenceStart s p).Sound cq := by
  unfold State.fenceStart; simp +contextual (maxDischargeDepth := 40) [hk]

@[simp] theorem State.poisonWrite_sound (s : State) (t : Txn) (hk : s.Sound cq) :
    (State.poisonWrite s t).Sound cq := by
  unfold State.poisonWrite; split <;> simp +contextual (maxDischargeDepth := 40) [hk]

@[simp] theorem State.fenceExpire_sound (s : State) (p : Nat) (hk : s.Sound cq) :
    (State.fenceExpire s p).Sound cq := by
  unfold State.fenceExpire; simp +contextual (maxDischargeDepth := 40) [hk]

@[simp] theorem State.fenceFinish_sound (s : State) (p : Nat) (hk : s.Sound cq) :
    (State.fenceFinish s p).Sound cq := by
  unfold State.fenceFinish; simp +contextual (maxDischargeDepth := 40) [hk]

@[simp] theorem execFenceDone_sound (p : Fin 8) (s : State) (hk : s.Sound cq) :
    OutSound cq (execFenceDone p s) := by
  unfold execFenceDone; simp +contextual (maxDischargeDepth := 40) [hk]

@[simp] theorem State.fenceLift_sound (s : State) (p : Nat) (hk : s.Sound cq) :
    (State.fenceLift s p).Sound cq := by
  unfold State.fenceLift; simp +contextual (maxDischargeDepth := 40) [hk]

@[simp] theorem execFenceRel_sound (req : Req) (p : Fin 8) (s : State) (hk : s.Sound cq) :
    OutSound cq (execFenceRel req p s) := by
  unfold execFenceRel; simp +contextual (maxDischargeDepth := 40) [hk]

@[simp] theorem State.countTimeout_sound (s : State) (port r : Nat) (hk : s.Sound cq) :
    (State.countTimeout s port r).Sound cq := by
  unfold State.countTimeout; simp +contextual (maxDischargeDepth := 40) [hk]

@[simp] theorem State.dropAtPort_sound (s : State) (port r : Nat) (hk : s.Sound cq) :
    (State.dropAtPort s port r).Sound cq := by
  unfold State.dropAtPort; split <;> simp +contextual (maxDischargeDepth := 40) [hk]

@[simp] theorem execLateAcknowledge_sound (_port : BitVec 6) (s : State) (hk : s.Sound cq) :
    OutSound cq (execLateAcknowledge _port s) := by
  unfold execLateAcknowledge; simp +contextual (maxDischargeDepth := 40) [hk]

@[simp] theorem State.writeFabCtrl_sound (s : State) (v : Word) (hk : s.Sound cq) :
    (State.writeFabCtrl s v).Sound cq := by
  unfold State.writeFabCtrl; simp +contextual (maxDischargeDepth := 40) [hk]

end Sys2Proof.Machine
end

