-- ==== Sys2Proof/Laws/KeepSoundTolerance.lean ====
section
/-! SUPPORT. The updates of Machine/Tolerance.lean keep a state sound. -/
namespace Sys2Proof.Machine

variable {cq : List Instr}

@[simp] theorem State.declareAll_sound (s : State) (hk : s.Sound cq) :
    (State.declareAll s).Sound cq := by
  unfold State.declareAll; simp +contextual (maxDischargeDepth := 40) [hk]

@[simp] theorem State.declaring_sound (s : State) (f : State → State) (hk : s.Sound cq) (hkf : ∀ t, t.Sound cq → (f t).Sound cq) :
    (State.declaring s f).Sound cq := by
  unfold State.declaring; simp +contextual (maxDischargeDepth := 40) [hk, hkf]

@[simp] theorem State.idle_sound (s : State) (hk : s.Sound cq) :
    (State.idle s).Sound cq := by
  unfold State.idle; simp +contextual (maxDischargeDepth := 40) [hk]

@[simp] theorem execBankSleep_sound (bank : BitVec 5) (s : State) (hk : s.Sound cq) :
    OutSound cq (execBankSleep bank s) := by
  unfold execBankSleep; simp +contextual (maxDischargeDepth := 40) [hk]

end Sys2Proof.Machine
end

