-- ==== Sys2Proof/Laws/KeepSoundIrq.lean ====
section
/-! SUPPORT. The updates of Machine/Irq.lean keep a state sound. -/
namespace Sys2Proof.Machine

variable {cq : List Instr}

@[simp] theorem State.irqErr_sound (s : State) (cause src : Nat) (hk : s.Sound cq) :
    (State.irqErr s cause src).Sound cq := by
  unfold State.irqErr; simp +contextual (maxDischargeDepth := 40) [hk]

@[simp] theorem State.settlePend_sound (s : State) (a : Nat) (hk : s.Sound cq) :
    (State.settlePend s a).Sound cq := by
  unfold State.settlePend; simp +contextual (maxDischargeDepth := 40) [hk]

@[simp] theorem State.irqLine_sound (s : State) (n p : Nat) (hk : s.Sound cq) :
    (State.irqLine s n p).Sound cq := by
  unfold State.irqLine; simp +contextual (maxDischargeDepth := 40) [hk]

@[simp] theorem execIrqLineChange_sound (n : BitVec 8) (p : Fin 8) (s : State) (hk : s.Sound cq) :
    OutSound cq (execIrqLineChange n p s) := by
  unfold execIrqLineChange; simp +contextual (maxDischargeDepth := 40) [hk]

@[simp] theorem State.writeSrc_sound (s : State) (r n p : Nat) (v : Word) (hk : s.Sound cq) :
    (State.writeSrc s r n p v).Sound cq := by
  unfold State.writeSrc; grind [State.plainWrite_sound, State.irqErr_sound, State.settlePend_sound, forN_sound, foldl_sound]

@[simp] theorem execIrqSrcWrite_sound (req : Req) (n : BitVec 8) (v : Word) (s : State) (hk : s.Sound cq) :
    OutSound cq (execIrqSrcWrite req n v s) := by
  unfold execIrqSrcWrite; simp +contextual (maxDischargeDepth := 40) [hk]

@[simp] theorem State.setActive_sound (s : State) (t : Nat) (w : Word) (hk : s.Sound cq) :
    (State.setActive s t w).Sound cq := by
  unfold State.setActive; simp +contextual (maxDischargeDepth := 40) [hk]

@[simp] theorem State.irqAck_sound (s : State) (t : Nat) (hk : s.Sound cq) :
    (State.irqAck s t).1.Sound cq := by
  unfold State.irqAck; simp +contextual (maxDischargeDepth := 40) [hk]

@[simp] theorem State.completeLine_sound (s : State) (n p : Nat) (hk : s.Sound cq) :
    (State.completeLine s n p).Sound cq := by
  unfold State.completeLine; simp +contextual (maxDischargeDepth := 40) [hk]

@[simp] theorem State.startHold_sound (s : State) (n : Nat) (hk : s.Sound cq) :
    (State.startHold s n).Sound cq := by
  unfold State.startHold; simp +contextual (maxDischargeDepth := 40) [hk]

@[simp] theorem State.irqComplete_sound (s : State) (t n : Nat) (hk : s.Sound cq) :
    (State.irqComplete s t n).Sound cq := by
  unfold State.irqComplete; simp +contextual (maxDischargeDepth := 40) [hk]

@[simp] theorem State.irqEndLevel_sound (s : State) (t : Nat) (hk : s.Sound cq) :
    (State.irqEndLevel s t).Sound cq := by
  unfold State.irqEndLevel; simp +contextual (maxDischargeDepth := 40) [hk]

@[simp] theorem State.writeDone_sound (s : State) (t : Nat) (v : Word) (hk : s.Sound cq) :
    (State.writeDone s t v).Sound cq := by
  unfold State.writeDone; simp +contextual (maxDischargeDepth := 40) [hk]

@[simp] theorem execIrqCmp_sound (req : Req) (t : Proc) (src : BitVec 8) (s : State) (hk : s.Sound cq) :
    OutSound cq (execIrqCmp req t src s) := by
  unfold execIrqCmp; simp +contextual (maxDischargeDepth := 40) [hk]

@[simp] theorem execIrqEnd_sound (req : Req) (t : Proc) (s : State) (hk : s.Sound cq) :
    OutSound cq (execIrqEnd req t s) := by
  unfold execIrqEnd; simp +contextual (maxDischargeDepth := 40) [hk]

@[simp] theorem execHoldoffEnd_sound (g : Fin 16) (s : State) (hk : s.Sound cq) :
    OutSound cq (execHoldoffEnd g s) := by
  unfold execHoldoffEnd; split <;> simp +contextual (maxDischargeDepth := 40) [hk]

@[simp] theorem State.writeBell_sound (s : State) (c : Nat) (v : Word) (hk : s.Sound cq) :
    (State.writeBell s c v).Sound cq := by
  unfold State.writeBell; simp +contextual (maxDischargeDepth := 40) [hk]

@[simp] theorem execBellRing_sound (req : Req) (c : Fin 16) (s : State) (hk : s.Sound cq) :
    OutSound cq (execBellRing req c s) := by
  unfold execBellRing; simp +contextual (maxDischargeDepth := 40) [hk]

@[simp] theorem execBellClr_sound (req : Req) (c : Fin 16) (s : State) (hk : s.Sound cq) :
    OutSound cq (execBellClr req c s) := by
  unfold execBellClr; simp +contextual (maxDischargeDepth := 40) [hk]

end Sys2Proof.Machine
end

