-- ==== Sys2Proof/Laws/KeepSoundTines.lean ====
section
/-! SUPPORT. The updates of Machine/Tines.lean keep a state sound. -/
namespace Sys2Proof.Machine

variable {cq : List Instr}

@[simp] theorem State.tinPubWrite_sound (s : State) (p t : Nat) (hk : s.Sound cq) :
    (State.tinPubWrite s p t).Sound cq := by
  unfold State.tinPubWrite; simp +contextual (maxDischargeDepth := 40) [hk]

@[simp] theorem execTinPub_sound (req : Req) (p : Fin 8) (tine : Tine) (s : State) (hk : s.Sound cq) :
    OutSound cq (execTinPub req p tine s) := by
  unfold execTinPub; simp +contextual (maxDischargeDepth := 40) [hk]

@[simp] theorem State.tineEnter_sound (s : State) (t : Nat) (hk : s.Sound cq) :
    (State.tineEnter s t).Sound cq := by
  unfold State.tineEnter; simp +contextual (maxDischargeDepth := 40) [hk]

@[simp] theorem execTineEntry_sound (tine : Tine) (s : State) (hk : s.Sound cq) :
    OutSound cq (execTineEntry tine s) := by
  unfold execTineEntry; simp +contextual (maxDischargeDepth := 40) [hk]

end Sys2Proof.Machine
end

