-- ==== Sys2Proof/Laws/KeepSoundTimers.lean ====
section
/-! SUPPORT. The updates of Machine/Timers.lean keep a state sound. -/
namespace Sys2Proof.Machine

variable {cq : List Instr}

@[simp] theorem execTimebaseWrap_sound (s : State) (hk : s.Sound cq) :
    OutSound cq (execTimebaseWrap s) := by
  unfold execTimebaseWrap; simp +contextual (maxDischargeDepth := 40) [hk]

@[simp] theorem State.tbCapture_sound (s : State) (p : Nat) (hk : s.Sound cq) :
    (State.tbCapture s p).Sound cq := by
  unfold State.tbCapture; simp +contextual (maxDischargeDepth := 40) [hk]

@[simp] theorem execTbCapture_sound (req : Req) (p : Fin 8) (s : State) (hk : s.Sound cq) :
    OutSound cq (execTbCapture req p s) := by
  unfold execTbCapture; simp +contextual (maxDischargeDepth := 40) [hk]

@[simp] theorem State.tmrErr_sound (s : State) (cause t : Nat) (hk : s.Sound cq) :
    (State.tmrErr s cause t).Sound cq := by
  unfold State.tmrErr; simp +contextual (maxDischargeDepth := 40) [hk]

@[simp] theorem State.setTmr_sound (s : State) (t : Nat) (v : BitVec 48) (hk : s.Sound cq) :
    (State.setTmr s t v).Sound cq := by
  unfold State.setTmr; simp +contextual (maxDischargeDepth := 40) [hk]

@[simp] theorem State.latchMatch_sound (s : State) (t : Nat) (hk : s.Sound cq) :
    (State.latchMatch s t).Sound cq := by
  unfold State.latchMatch; simp +contextual (maxDischargeDepth := 40) [hk]

@[simp] theorem State.tmrRaise_sound (s : State) (t : Nat) (hit ovf : Bool) (hk : s.Sound cq) :
    (State.tmrRaise s t hit ovf).Sound cq := by
  unfold State.tmrRaise; simp +contextual (maxDischargeDepth := 40) [hk]

@[simp] theorem State.tmrStep_sound (s : State) (t : Nat) (hk : s.Sound cq) :
    (State.tmrStep s t).Sound cq := by
  unfold State.tmrStep; simp +contextual (maxDischargeDepth := 40) [hk]

@[simp] theorem State.tmrLoadPhase_sound (s : State) (t : Nat) (hk : s.Sound cq) :
    (State.tmrLoadPhase s t).Sound cq := by
  unfold State.tmrLoadPhase; simp +contextual (maxDischargeDepth := 40) [hk]

@[simp] theorem State.tmrCapture_sound (s : State) (t : Nat) (hk : s.Sound cq) :
    (State.tmrCapture s t).Sound cq := by
  unfold State.tmrCapture; simp +contextual (maxDischargeDepth := 40) [hk]

@[simp] theorem State.tmrSetLd_sound (s : State) (t : Nat) (hk : s.Sound cq) :
    (State.tmrSetLd s t).Sound cq := by
  unfold State.tmrSetLd; simp +contextual (maxDischargeDepth := 40) [hk]

@[simp] theorem State.countEvent_sound (s : State) (t : Nat) (hk : s.Sound cq) :
    (State.countEvent s t).Sound cq := by
  unfold State.countEvent; simp +contextual (maxDischargeDepth := 40) [hk]

@[simp] theorem State.askStart_sound (s : State) (t : Nat) (hk : s.Sound cq) :
    (State.askStart s t).Sound cq := by
  unfold State.askStart; simp +contextual (maxDischargeDepth := 40) [hk]

@[simp] theorem State.askCap_sound (s : State) (t : Nat) (hk : s.Sound cq) :
    (State.askCap s t).Sound cq := by
  unfold State.askCap; simp +contextual (maxDischargeDepth := 40) [hk]

@[simp] theorem State.askLoad_sound (s : State) (t : Nat) (hk : s.Sound cq) :
    (State.askLoad s t).Sound cq := by
  unfold State.askLoad; simp +contextual (maxDischargeDepth := 40) [hk]

@[simp] theorem State.tmrStop_sound (s : State) (t : Nat) (hk : s.Sound cq) :
    (State.tmrStop s t).Sound cq := by
  unfold State.tmrStop; simp +contextual (maxDischargeDepth := 40) [hk]

@[simp] theorem State.writeTmrCtrl_sound (s : State) (t : Nat) (v : Word) (hk : s.Sound cq) :
    (State.writeTmrCtrl s t v).Sound cq := by
  unfold State.writeTmrCtrl; simp +contextual (maxDischargeDepth := 40) [hk]

@[simp] theorem execTimerStart_sound (req : Req) (t : Fin 16) (s : State) (hk : s.Sound cq) :
    OutSound cq (execTimerStart req t s) := by
  unfold execTimerStart; simp +contextual (maxDischargeDepth := 40) [hk]

@[simp] theorem execTimerStop_sound (req : Req) (t : Fin 16) (s : State) (hk : s.Sound cq) :
    OutSound cq (execTimerStop req t s) := by
  unfold execTimerStop; simp +contextual (maxDischargeDepth := 40) [hk]

@[simp] theorem execTimerCap_sound (req : Req) (t : Fin 16) (s : State) (hk : s.Sound cq) :
    OutSound cq (execTimerCap req t s) := by
  unfold execTimerCap; simp +contextual (maxDischargeDepth := 40) [hk]

@[simp] theorem execTimerLoad_sound (req : Req) (t : Fin 16) (s : State) (hk : s.Sound cq) :
    OutSound cq (execTimerLoad req t s) := by
  unfold execTimerLoad; simp +contextual (maxDischargeDepth := 40) [hk]

@[simp] theorem execTimerAdvance_sound (t : Fin 16) (s : State) (hk : s.Sound cq) :
    OutSound cq (execTimerAdvance t s) := by
  unfold execTimerAdvance; simp +contextual (maxDischargeDepth := 40) [hk]

@[simp] theorem State.gstart_sound (s : State) (p mask : Nat) (hk : s.Sound cq) :
    (State.gstart s p mask).Sound cq := by
  unfold State.gstart; split <;> simp +contextual (maxDischargeDepth := 40) [hk]

@[simp] theorem execGstart_sound (req : Req) (p : Fin 8) (mask : BitVec 16) (s : State) (hk : s.Sound cq) :
    OutSound cq (execGstart req p mask s) := by
  unfold execGstart; simp +contextual (maxDischargeDepth := 40) [hk]

@[simp] theorem State.tmrStartTine_sound (s : State) (t c : Nat) (hk : s.Sound cq) :
    (State.tmrStartTine s t c).Sound cq := by
  unfold State.tmrStartTine; simp +contextual (maxDischargeDepth := 40) [hk]

@[simp] theorem State.tmrCountTine_sound (s : State) (t : Nat) (hk : s.Sound cq) :
    (State.tmrCountTine s t).Sound cq := by
  unfold State.tmrCountTine; simp +contextual (maxDischargeDepth := 40) [hk]

@[simp] theorem State.tmrTineEvent_sound (s : State) (c : Nat) (hk : s.Sound cq) :
    (State.tmrTineEvent s c).Sound cq := by
  unfold State.tmrTineEvent; simp +contextual (maxDischargeDepth := 40) [hk]

end Sys2Proof.Machine
end

