-- ==== Sys2Proof/Laws/KeepSoundDrill.lean ====
section
/-! SUPPORT. The updates of Machine/Drill.lean keep a state sound. -/
namespace Sys2Proof.Machine

variable {cq : List Instr}

@[simp] theorem State.drlErr_sound (s : State) (cause c : Nat) (hk : s.Sound cq) :
    (State.drlErr s cause c).Sound cq := by
  unfold State.drlErr; simp +contextual (maxDischargeDepth := 40) [hk]

@[simp] theorem State.drlPast_sound (s : State) (c : Nat) (src dst : Bool) (hk : s.Sound cq) :
    (State.drlPast s c src dst).Sound cq := by
  unfold State.drlPast; simp +contextual (maxDischargeDepth := 40) [hk]

@[simp] theorem State.drlLatch_sound (s : State) (c : Nat) (hk : s.Sound cq) :
    (State.drlLatch s c).Sound cq := by
  unfold State.drlLatch; simp +contextual (maxDischargeDepth := 40) [hk]

@[simp] theorem State.drlGo_sound (s : State) (c : Nat) (hk : s.Sound cq) :
    (State.drlGo s c).Sound cq := by
  unfold State.drlGo; simp +contextual (maxDischargeDepth := 40) [hk]

@[simp] theorem execDrillGo_sound (req : Req) (c : Fin 32) (s : State) (hk : s.Sound cq) :
    OutSound cq (execDrillGo req c s) := by
  unfold execDrillGo; simp +contextual (maxDischargeDepth := 40) [hk]

@[simp] theorem State.drlGrant_sound (s : State) (c : Nat) (on : Bool) (hk : s.Sound cq) :
    (State.drlGrant s c on).Sound cq := by
  unfold State.drlGrant; simp +contextual (maxDischargeDepth := 40) [hk]

@[simp] theorem State.drlStop_sound (s : State) (c : Nat) (hk : s.Sound cq) :
    (State.drlStop s c).Sound cq := by
  unfold State.drlStop; simp +contextual (maxDischargeDepth := 40) [hk]

@[simp] theorem execDrillDisable_sound (req : Req) (c : Fin 32) (s : State) (hk : s.Sound cq) :
    OutSound cq (execDrillDisable req c s) := by
  unfold execDrillDisable; simp +contextual (maxDischargeDepth := 40) [hk]

@[simp] theorem State.writeDrlCtrl_sound (s : State) (c : Nat) (v : Word) (hk : s.Sound cq) :
    (State.writeDrlCtrl s c v).Sound cq := by
  unfold State.writeDrlCtrl; simp +contextual (maxDischargeDepth := 40) [hk]

@[simp] theorem State.drlBlockDone_sound (s : State) (c : Nat) (hk : s.Sound cq) :
    (State.drlBlockDone s c).Sound cq := by
  unfold State.drlBlockDone; simp +contextual (maxDischargeDepth := 40) [hk]

@[simp] theorem execDrillBlockDone_sound (c : Fin 32) (s : State) (hk : s.Sound cq) :
    OutSound cq (execDrillBlockDone c s) := by
  unfold execDrillBlockDone; simp +contextual (maxDischargeDepth := 40) [hk]

@[simp] theorem State.drlTineEvent_sound (s : State) (t : Nat) (hk : s.Sound cq) :
    (State.drlTineEvent s t).Sound cq := by
  unfold State.drlTineEvent; simp +contextual (maxDischargeDepth := 40) [hk]

end Sys2Proof.Machine
end

