-- ==== Sys2Proof/Laws/KeepSoundReset.lean ====
section
/-! SUPPORT. The updates of Machine/Reset.lean keep a state sound. -/
namespace Sys2Proof.Machine

variable {cq : List Instr}

@[simp] theorem State.cutGranary_sound (s : State) (hk : s.Sound cq) :
    (State.cutGranary s).Sound cq := by
  unfold State.cutGranary; split <;> simp +contextual (maxDischargeDepth := 40) [hk]

@[simp] theorem State.externalScope_sound (s0 : State) (k : Nat) (hks0 : s0.Sound cq) :
    (State.externalScope s0 k).Sound cq := by
  unfold State.externalScope; simp +contextual (maxDischargeDepth := 40) [hks0]

@[simp] theorem State.powerOnScope_sound (s0 : State) (hks0 : s0.Sound cq) :
    (State.powerOnScope s0).Sound cq := by
  unfold State.powerOnScope; simp +contextual (maxDischargeDepth := 40) [hks0]

@[simp] theorem State.loseRegs_sound (s : State) (d : Nat) (hk : s.Sound cq) :
    (State.loseRegs s d).Sound cq := by
  unfold State.loseRegs; simp +contextual (maxDischargeDepth := 40) [hk]

@[simp] theorem State.wakeFire_sound (s : State) (cause : Nat) (hk : s.Sound cq) : (s.wakeFire cause).Sound cq := by
  unfold State.wakeFire
  split
  · simp only [State.sound_mk]
    apply State.externalScope_sound
    simp [hk]
  · simp only
    split <;> simp [hk]

end Sys2Proof.Machine
end

