-- ==== Sys2Proof/Laws/KeepSoundPins.lean ====
section
/-! SUPPORT. The updates of Machine/Pins.lean keep a state sound. -/
namespace Sys2Proof.Machine

variable {cq : List Instr}

@[simp] theorem State.gpoErr_sound (s : State) (cause n : Nat) (hk : s.Sound cq) :
    (State.gpoErr s cause n).Sound cq := by
  unfold State.gpoErr; simp +contextual (maxDischargeDepth := 40) [hk]

@[simp] theorem State.sharedBits_sound (s : State) (r k : Nat) (bits : Word) (f : State → Word → State) (hk : s.Sound cq) (hkf : ∀ t i, t.Sound cq → (f t i).Sound cq) :
    (State.sharedBits s r k bits f).Sound cq := by
  unfold State.sharedBits; simp +contextual (maxDischargeDepth := 40) [hk, hkf]

@[simp] theorem State.writeOut_sound (s : State) (r k : Nat) (v : Word) (hk : s.Sound cq) :
    (State.writeOut s r k v).Sound cq := by
  unfold State.writeOut; simp +contextual (maxDischargeDepth := 40) [hk]

@[simp] theorem State.writeOutset_sound (s : State) (r k : Nat) (v : Word) (hk : s.Sound cq) :
    (State.writeOutset s r k v).Sound cq := by
  unfold State.writeOutset; simp +contextual (maxDischargeDepth := 40) [hk]

@[simp] theorem State.writeOutclr_sound (s : State) (r k : Nat) (v : Word) (hk : s.Sound cq) :
    (State.writeOutclr s r k v).Sound cq := by
  unfold State.writeOutclr; simp +contextual (maxDischargeDepth := 40) [hk]

@[simp] theorem State.writePinEvt_sound (s : State) (r k : Nat) (v : Word) (hk : s.Sound cq) :
    (State.writePinEvt s r k v).Sound cq := by
  unfold State.writePinEvt; simp +contextual (maxDischargeDepth := 40) [hk]

@[simp] theorem execGpoOutset_sound (req : Req) (k : Fin 2) (v : Word) (s : State) (hk : s.Sound cq) :
    OutSound cq (execGpoOutset req k v s) := by
  unfold execGpoOutset; simp +contextual (maxDischargeDepth := 40) [hk]

@[simp] theorem execGpoOutclr_sound (req : Req) (k : Fin 2) (v : Word) (s : State) (hk : s.Sound cq) :
    OutSound cq (execGpoOutclr req k v s) := by
  unfold execGpoOutclr; simp +contextual (maxDischargeDepth := 40) [hk]

@[simp] theorem State.writePinCfg_sound (s : State) (n : Nat) (v : Word) (hk : s.Sound cq) :
    (State.writePinCfg s n v).Sound cq := by
  unfold State.writePinCfg; simp +contextual (maxDischargeDepth := 40) [hk]

@[simp] theorem State.pinFiltered_sound (s : State) (n : Nat) (level : Bool) (hk : s.Sound cq) :
    (State.pinFiltered s n level).Sound cq := by
  unfold State.pinFiltered; simp +contextual (maxDischargeDepth := 40) [hk]

@[simp] theorem execPinFilter_sound (n : Fin 48) (level : Bool) (s : State) (hk : s.Sound cq) :
    OutSound cq (execPinFilter n level s) := by
  unfold execPinFilter; simp +contextual (maxDischargeDepth := 40) [hk]

end Sys2Proof.Machine
end

