-- ==== Sys2Proof/Laws/KeepSoundGranary.lean ====
section
/-! SUPPORT. The updates of Machine/Granary.lean keep a state sound. -/
namespace Sys2Proof.Machine

variable {cq : List Instr}

@[simp] theorem State.settleGrn_sound (s : State) (hk : s.Sound cq) :
    (State.settleGrn s).Sound cq := by
  unfold State.settleGrn; simp +contextual (maxDischargeDepth := 40) [hk]

@[simp] theorem State.writeGrnBuf_sound (s : State) (i : Nat) (v : Word) (hk : s.Sound cq) :
    (State.writeGrnBuf s i v).Sound cq := by
  unfold State.writeGrnBuf; simp +contextual (maxDischargeDepth := 40) [hk]

@[simp] theorem execGrnBufWrite_sound (req : Req) (i : BitVec 8) (v : Word) (s : State) (hk : s.Sound cq) :
    OutSound cq (execGrnBufWrite req i v s) := by
  unfold execGrnBufWrite; simp +contextual (maxDischargeDepth := 40) [hk]

@[simp] theorem State.grnGo_sound (s : State) (page : Nat) (hk : s.Sound cq) :
    (State.grnGo s page).Sound cq := by
  unfold State.grnGo; simp +contextual (maxDischargeDepth := 40) [hk]

@[simp] theorem State.writeGrnCmd_sound (s : State) (v : Word) (hk : s.Sound cq) :
    (State.writeGrnCmd s v).Sound cq := by
  unfold State.writeGrnCmd; simp +contextual (maxDischargeDepth := 40) [hk]

@[simp] theorem execGrnGo_sound (req : Req) (v : Word) (s : State) (hk : s.Sound cq) :
    OutSound cq (execGrnGo req v s) := by
  unfold execGrnGo; simp +contextual (maxDischargeDepth := 40) [hk]

@[simp] theorem State.programPage_sound (s : State) (j : GrnJob) (hk : s.Sound cq) :
    (State.programPage s j).Sound cq := by
  unfold State.programPage; simp +contextual (maxDischargeDepth := 40) [hk]

@[simp] theorem State.endProgram_sound (s : State) (sup ok : Bool) (hk : s.Sound cq) :
    (State.endProgram s sup ok).Sound cq := by
  unfold State.endProgram; split <;> simp +contextual (maxDischargeDepth := 40) [hk]

@[simp] theorem State.grnProgrammed_sound (s : State) (ok : Bool) (hk : s.Sound cq) :
    (State.grnProgrammed s ok).Sound cq := by
  unfold State.grnProgrammed; simp +contextual (maxDischargeDepth := 40) [hk]

end Sys2Proof.Machine
end

