-- ==== Sys2Proof/Laws/KeepSoundNightRound.lean ====
section
/-! SUPPORT. The updates of Machine/NightRound.lean keep a state sound. -/
namespace Sys2Proof.Machine

variable {cq : List Instr}

@[simp] theorem State.supErr_sound (s : State) (cause ofs : Nat) (hk : s.Sound cq) :
    (State.supErr s cause ofs).Sound cq := by
  unfold State.supErr; simp +contextual (maxDischargeDepth := 40) [hk]

@[simp] theorem State.setNrState_sound (s : State) (n : Nat) (hk : s.Sound cq) :
    (State.setNrState s n).Sound cq := by
  unfold State.setNrState; simp +contextual (maxDischargeDepth := 40) [hk]

@[simp] theorem State.updNr_sound (s : State) (f : NrSt → NrSt) (hk : s.Sound cq) :
    (State.updNr s f).Sound cq := by
  unfold State.updNr; simp +contextual (maxDischargeDepth := 40) [hk]

@[simp] theorem State.chFail_sound (s : State) (c : Nat) (hk : s.Sound cq) :
    (State.chFail s c).Sound cq := by
  unfold State.chFail; simp +contextual (maxDischargeDepth := 40) [hk]

@[simp] theorem State.nrEnd_sound (s : State) (aborted : Bool) (hk : s.Sound cq) :
    (State.nrEnd s aborted).Sound cq := by
  unfold State.nrEnd; simp +contextual (maxDischargeDepth := 40) [hk]

@[simp] theorem State.toneSample_sound (s : State) (t : NrTone) (k : Nat) (hk : s.Sound cq) :
    (State.toneSample s t k).2.Sound cq := by
  unfold State.toneSample; simp +contextual (maxDischargeDepth := 40) [hk]

@[simp] theorem State.nrTake_sound (s : State) (k : Nat) (xs sns : List Int) (hk : s.Sound cq) :
    (State.nrTake s k xs sns).Sound cq := by
  unfold State.nrTake; simp +contextual (maxDischargeDepth := 40) [hk]

@[simp] theorem State.levelOf_sound (s : State) (p full : Nat) (hk : s.Sound cq) :
    (State.levelOf s p full).2.Sound cq := by
  unfold State.levelOf; simp +contextual (maxDischargeDepth := 40) [hk]

@[simp] theorem State.nrStep_sound (s : State) (st c : Nat) (hk : s.Sound cq) :
    (State.nrStep s st c).Sound cq := by
  unfold State.nrStep; simp +contextual (maxDischargeDepth := 40) [hk]

@[simp] theorem State.nrNext_sound (s : State) (hk : s.Sound cq) :
    (State.nrNext s).Sound cq := by
  unfold State.nrNext; grind [State.updNr_sound, State.nrEnd_sound, State.nrStep_sound, forN_sound, foldl_sound]

@[simp] theorem State.toneFalls_sound (s : State) (hk : s.Sound cq) :
    (State.toneFalls s).Sound cq := by
  unfold State.toneFalls; split <;> simp +contextual (maxDischargeDepth := 40) [hk]

@[simp] theorem State.nrAbort_sound (s : State) (hk : s.Sound cq) :
    (State.nrAbort s).Sound cq := by
  unfold State.nrAbort; simp +contextual (maxDischargeDepth := 40) [hk]

@[simp] theorem State.nrStart_sound (s : State) (hk : s.Sound cq) :
    (State.nrStart s).Sound cq := by
  unfold State.nrStart; simp +contextual (maxDischargeDepth := 40) [hk]

@[simp] theorem State.nrTine_sound (s : State) (t : Nat) (hk : s.Sound cq) :
    (State.nrTine s t).Sound cq := by
  unfold State.nrTine; simp +contextual (maxDischargeDepth := 40) [hk]

@[simp] theorem execNightRoundStart_sound (tine : Option Tine) (req : Req) (s : State) (hk : s.Sound cq) :
    OutSound cq (execNightRoundStart tine req s) := by
  unfold execNightRoundStart; split <;> simp +contextual (maxDischargeDepth := 40) [hk]

@[simp] theorem execNightRoundAbort_sound (req : Req) (s : State) (hk : s.Sound cq) :
    OutSound cq (execNightRoundAbort req s) := by
  unfold execNightRoundAbort; simp +contextual (maxDischargeDepth := 40) [hk]

@[simp] theorem State.zValues_sound (s : State) (kz n : Nat) (hk : s.Sound cq) :
    (State.zValues s kz n).2.Sound cq := by
  unfold State.zValues; simp +contextual (maxDischargeDepth := 40) [hk]

@[simp] theorem State.zWrite_sound (s : State) (c : Nat) (fast : Bool) (st z : Nat) (ph : Int) (hk : s.Sound cq) :
    (State.zWrite s c fast st z ph).Sound cq := by
  unfold State.zWrite; simp +contextual (maxDischargeDepth := 40) [hk]

@[simp] theorem State.zResult_sound (s : State) (c : Nat) (hk : s.Sound cq) : (s.zResult c).Sound cq := by
  unfold State.zResult
  generalize s.sup.nr.acc = a
  obtain ⟨vr, vi, ir, ii⟩ := a
  dsimp only
  exact State.zWrite_sound _ _ _ _ _ _ (State.zValues_sound _ _ _ hk)

@[simp] theorem State.impedancePhase_sound (s : State) (hk : s.Sound cq) :
    (State.impedancePhase s).Sound cq := by
  unfold State.impedancePhase; repeat' split
  all_goals simp +contextual (maxDischargeDepth := 40) [hk]

@[simp] theorem execImpedancePhaseEnd_sound (s : State) (hk : s.Sound cq) :
    OutSound cq (execImpedancePhaseEnd s) := by
  unfold execImpedancePhaseEnd; repeat' split
  all_goals simp +contextual (maxDischargeDepth := 40) [hk]

@[simp] theorem State.acResult_sound (s : State) (c : Nat) (l : Int) (hk : s.Sound cq) :
    (State.acResult s c l).Sound cq := by
  unfold State.acResult; simp +contextual (maxDischargeDepth := 40) [hk]

@[simp] theorem State.acLevel_sound (s : State) (tone : Bool) (hk : s.Sound cq) :
    (State.acLevel s tone).2.Sound cq := by
  unfold State.acLevel; simp +contextual (maxDischargeDepth := 40) [hk]

@[simp] theorem State.acousticPhase_sound (s : State) (hk : s.Sound cq) :
    (State.acousticPhase s).Sound cq := by
  unfold State.acousticPhase; grind [State.updNr_sound, State.nrNext_sound, State.acResult_sound, State.acLevel_sound, forN_sound, foldl_sound]

@[simp] theorem execAcousticPhaseEnd_sound (s : State) (hk : s.Sound cq) :
    OutSound cq (execAcousticPhaseEnd s) := by
  unfold execAcousticPhaseEnd; repeat' split
  all_goals simp +contextual (maxDischargeDepth := 40) [hk]

@[simp] theorem execLogWriteDone_sound (ok : Bool) (s : State) (hk : s.Sound cq) :
    OutSound cq (execLogWriteDone ok s) := by
  unfold execLogWriteDone; split <;> simp +contextual (maxDischargeDepth := 40) [hk]

@[simp] theorem State.writeNrCtrl_sound (s : State) (v : Word) (hk : s.Sound cq) :
    (State.writeNrCtrl s v).Sound cq := by
  unfold State.writeNrCtrl; simp +contextual (maxDischargeDepth := 40) [hk]

end Sys2Proof.Machine
end

