-- ==== Sys2Proof/Laws/KeepSoundProc.lean ====
section
/-! SUPPORT. The updates of Machine/Proc.lean keep a state sound. -/
namespace Sys2Proof.Machine

variable {cq : List Instr}

@[simp] theorem State.settleFreeze_sound (s : State) (hk : s.Sound cq) :
    (State.settleFreeze s).Sound cq := by
  unfold State.settleFreeze; simp +contextual (maxDischargeDepth := 40) [hk]

@[simp] theorem State.halt_sound (s : State) (p why cmp : Nat) (ds : Bool) (hk : s.Sound cq) :
    (State.halt s p why cmp ds).Sound cq := by
  unfold State.halt; simp +contextual (maxDischargeDepth := 40) [hk]

@[simp] theorem State.unhalt_sound (s : State) (p : Nat) (hk : s.Sound cq) :
    (State.unhalt s p).Sound cq := by
  unfold State.unhalt; simp +contextual (maxDischargeDepth := 40) [hk]

@[simp] theorem State.cmpHit_sound (s : State) (p kind a : Nat) (sup : Bool) (hk : s.Sound cq) : (s.cmpHit p kind a sup).1.Sound cq := by
  unfold State.cmpHit
  split
  · exact hk
  · apply foldl_fst_sound _ _ hk
    intro x k hx
    obtain ⟨t, h⟩ := x
    simp only at hx ⊢
    split
    · exact hx
    · split <;> simp [hx]

end Sys2Proof.Machine
end

