-- ==== Sys2Proof/Laws/KeepSoundSecurity.lean ====
section
/-! SUPPORT. The updates of Machine/Security.lean keep a state sound. -/
namespace Sys2Proof.Machine

variable {cq : List Instr}

@[simp] theorem State.secErr_sound (s : State) (hk : s.Sound cq) :
    (State.secErr s).Sound cq := by
  unfold State.secErr; simp +contextual (maxDischargeDepth := 40) [hk]

@[simp] theorem State.secGo_sound (s : State) (p op : Nat) (hk : s.Sound cq) :
    (State.secGo s p op).Sound cq := by
  unfold State.secGo; simp +contextual (maxDischargeDepth := 40) [hk]

@[simp] theorem State.writeSecCtrl_sound (s : State) (p : Nat) (v : Word) (hk : s.Sound cq) :
    (State.writeSecCtrl s p v).Sound cq := by
  unfold State.writeSecCtrl; simp +contextual (maxDischargeDepth := 40) [hk]

@[simp] theorem execSecSeal_sound (req : Req) (p : Fin 8) (s : State) (hk : s.Sound cq) :
    OutSound cq (execSecSeal req p s) := by
  unfold execSecSeal; simp +contextual (maxDischargeDepth := 40) [hk]

@[simp] theorem execSecOpen_sound (req : Req) (p : Fin 8) (s : State) (hk : s.Sound cq) :
    OutSound cq (execSecOpen req p s) := by
  unfold execSecOpen; simp +contextual (maxDischargeDepth := 40) [hk]

@[simp] theorem execSecSign_sound (req : Req) (p : Fin 8) (s : State) (hk : s.Sound cq) :
    OutSound cq (execSecSign req p s) := by
  unfold execSecSign; simp +contextual (maxDischargeDepth := 40) [hk]

@[simp] theorem State.secAbandon_sound (s : State) (p : Nat) (hk : s.Sound cq) :
    (State.secAbandon s p).Sound cq := by
  unfold State.secAbandon; simp +contextual (maxDischargeDepth := 40) [hk]

@[simp] theorem State.secCompute_sound (s : State) (p op : Nat) (bs : List (BitVec 8)) (hk : s.Sound cq) :
    (State.secCompute s p op bs).1.Sound cq := by
  unfold State.secCompute; simp +contextual (maxDischargeDepth := 40) [hk]

@[simp] theorem State.pkgenInc_sound (s : State) (p : Nat) (hk : s.Sound cq) :
    (State.pkgenInc s p).Sound cq := by
  unfold State.pkgenInc; simp +contextual (maxDischargeDepth := 40) [hk]

@[simp] theorem execPkgenInc_sound (req : Req) (p : Fin 8) (s : State) (hk : s.Sound cq) :
    OutSound cq (execPkgenInc req p s) := by
  unfold execPkgenInc; simp +contextual (maxDischargeDepth := 40) [hk]

@[simp] theorem execOpfwSet_sound (req : Req) (s : State) (hk : s.Sound cq) :
    OutSound cq (execOpfwSet req s) := by
  unfold execOpfwSet; simp +contextual (maxDischargeDepth := 40) [hk]

end Sys2Proof.Machine
end

