-- ==== Sys2Proof/Laws/KeepSoundStew.lean ====
section
/-! SUPPORT. The updates of Machine/Stew.lean keep a state sound. -/
namespace Sys2Proof.Machine

variable {cq : List Instr}

@[simp] theorem State.updUc_sound (s : State) (f : UcSt → UcSt) (hk : s.Sound cq) :
    (State.updUc s f).Sound cq := by
  unfold State.updUc; simp +contextual (maxDischargeDepth := 40) [hk]

@[simp] theorem State.ucLoad_sound (s : State) (a : Nat) (v : Option Word) (bad : Bool) (hk : s.Sound cq) :
    (State.ucLoad s a v bad).Sound cq := by
  unfold State.ucLoad; simp +contextual (maxDischargeDepth := 40) [hk]

@[simp] theorem State.ucPut_sound (s : State) (a : Nat) (v : Word) (bad : Bool) (hk : s.Sound cq) :
    (State.ucPut s a v bad).Sound cq := by
  unfold State.ucPut; simp +contextual (maxDischargeDepth := 40) [hk]

@[simp] theorem State.stwErr_sound (s : State) (hk : s.Sound cq) :
    (State.stwErr s).Sound cq := by
  unfold State.stwErr; simp +contextual (maxDischargeDepth := 40) [hk]

@[simp] theorem State.ucTouched_sound (s : State) (hk : s.Sound cq) :
    (State.ucTouched s).Sound cq := by
  unfold State.ucTouched; simp +contextual (maxDischargeDepth := 40) [hk]

@[simp] theorem State.ucNext_sound (s : State) (hk : s.Sound cq) :
    (State.ucNext s).Sound cq := by
  unfold State.ucNext; simp +contextual (maxDischargeDepth := 40) [hk]

@[simp] theorem State.writeUcdata_sound (s : State) (v : Word) (hk : s.Sound cq) :
    (State.writeUcdata s v).Sound cq := by
  unfold State.writeUcdata; simp +contextual (maxDischargeDepth := 40) [hk]

@[simp] theorem State.readUcdata_sound (s : State) (hk : s.Sound cq) :
    (State.readUcdata s).1.Sound cq := by
  unfold State.readUcdata; simp +contextual (maxDischargeDepth := 40) [hk]

@[simp] theorem State.ucCopy_sound (s : State) (hk : s.Sound cq) :
    (State.ucCopy s).Sound cq := by
  unfold State.ucCopy; simp +contextual (maxDischargeDepth := 40) [hk]

@[simp] theorem State.ucSeal_sound (s : State) (hk : s.Sound cq) :
    (State.ucSeal s).Sound cq := by
  unfold State.ucSeal; simp +contextual (maxDischargeDepth := 40) [hk]

@[simp] theorem State.writeUcctrl_sound (s : State) (v : Word) (hk : s.Sound cq) :
    (State.writeUcctrl s v).Sound cq := by
  unfold State.writeUcctrl; simp +contextual (maxDischargeDepth := 40) [hk]

@[simp] theorem execUcCopy_sound (req : Req) (s : State) (hk : s.Sound cq) :
    OutSound cq (execUcCopy req s) := by
  unfold execUcCopy; simp +contextual (maxDischargeDepth := 40) [hk]

@[simp] theorem execUcSeal_sound (req : Req) (s : State) (hk : s.Sound cq) :
    OutSound cq (execUcSeal req s) := by
  unfold execUcSeal; simp +contextual (maxDischargeDepth := 40) [hk]

@[simp] theorem execUcdataWrite_sound (req : Req) (v : Word) (s : State) (hk : s.Sound cq) :
    OutSound cq (execUcdataWrite req v s) := by
  unfold execUcdataWrite; simp +contextual (maxDischargeDepth := 40) [hk]

@[simp] theorem execUcdataRead_sound (req : Req) (s : State) (hk : s.Sound cq) :
    OutSound cq (execUcdataRead req s) := by
  unfold execUcdataRead; grind [State.answer_sound, State.refuse_sound, State.readUcdata_sound, forN_sound, foldl_sound, outSound_next, outSound_refused]

@[simp] theorem execUcCopyDone_sound (s : State) (hk : s.Sound cq) :
    OutSound cq (execUcCopyDone s) := by
  unfold execUcCopyDone; simp +contextual (maxDischargeDepth := 40) [hk]

@[simp] theorem execUcScanDone_sound (s : State) (hk : s.Sound cq) :
    OutSound cq (execUcScanDone s) := by
  unfold execUcScanDone; simp +contextual (maxDischargeDepth := 40) [hk]

@[simp] theorem State.ucExchange_sound (s : State) (hk : s.Sound cq) :
    (State.ucExchange s).Sound cq := by
  unfold State.ucExchange; simp +contextual (maxDischargeDepth := 40) [hk]

@[simp] theorem State.machineCheck_sound (s : State) (cause a : Nat) (hk : s.Sound cq) :
    (State.machineCheck s cause a).Sound cq := by
  unfold State.machineCheck; simp +contextual (maxDischargeDepth := 40) [hk]

@[simp] theorem State.endStewardPages_sound (s : State) (hk : s.Sound cq) :
    (State.endStewardPages s).Sound cq := by
  unfold State.endStewardPages; simp +contextual (maxDischargeDepth := 40) [hk]

@[simp] theorem State.stewReset_sound (s : State) (hk : s.Sound cq) :
    (State.stewReset s).Sound cq := by
  unfold State.stewReset; simp +contextual (maxDischargeDepth := 40) [hk]

@[simp] theorem State.wdRestart_sound (s : State) (hk : s.Sound cq) :
    (State.wdRestart s).Sound cq := by
  unfold State.wdRestart; simp +contextual (maxDischargeDepth := 40) [hk]

@[simp] theorem State.wdRelease_sound (s : State) (hk : s.Sound cq) :
    (State.wdRelease s).Sound cq := by
  unfold State.wdRelease; simp +contextual (maxDischargeDepth := 40) [hk]

@[simp] theorem execWatchdogExpiry_sound (s : State) (hk : s.Sound cq) :
    OutSound cq (execWatchdogExpiry s) := by
  unfold execWatchdogExpiry; simp +contextual (maxDischargeDepth := 40) [hk]

@[simp] theorem execScrubberRead_sound (a : BitVec 14) (upset : Bool) (s : State) (hk : s.Sound cq) :
    OutSound cq (execScrubberRead a upset s) := by
  unfold execScrubberRead; simp +contextual (maxDischargeDepth := 40) [hk]

@[simp] theorem State.writeWdog_sound (s : State) (v : Word) (hk : s.Sound cq) :
    (State.writeWdog s v).Sound cq := by
  unfold State.writeWdog; simp +contextual (maxDischargeDepth := 40) [hk]

@[simp] theorem execWdogWrite_sound (req : Req) (v : Word) (s : State) (hk : s.Sound cq) :
    OutSound cq (execWdogWrite req v s) := by
  unfold execWdogWrite; simp +contextual (maxDischargeDepth := 40) [hk]

@[simp] theorem State.loadSection_sound (s : State) (k ofs : Nat) (hk : s.Sound cq) :
    (State.loadSection s k ofs).Sound cq := by
  unfold State.loadSection; simp +contextual (maxDischargeDepth := 40) [hk]

@[simp] theorem State.bootFrom_sound (s : State) (k : Nat) (hk : s.Sound cq) :
    (State.bootFrom s k).Sound cq := by
  unfold State.bootFrom; simp +contextual (maxDischargeDepth := 40) [hk]

@[simp] theorem State.jumpTo_sound (s : State) (k : Nat) (hk : s.Sound cq) :
    (State.jumpTo s k).Sound cq := by
  unfold State.jumpTo; split <;> simp +contextual (maxDischargeDepth := 40) [hk]

@[simp] theorem State.bootChain_sound (s : State) (hk : s.Sound cq) :
    (State.bootChain s).Sound cq := by
  unfold State.bootChain; simp +contextual (maxDischargeDepth := 40) [hk]

@[simp] theorem State.stewStart_sound (s : State) (hk : s.Sound cq) :
    (State.stewStart s).Sound cq := by
  unfold State.stewStart; simp +contextual (maxDischargeDepth := 40) [hk]

@[simp] theorem execBaseMicrocodeLoaded_sound (s : State) (hk : s.Sound cq) :
    OutSound cq (execBaseMicrocodeLoaded s) := by
  unfold execBaseMicrocodeLoaded; simp +contextual (maxDischargeDepth := 40) [hk]

@[simp] theorem State.writeMbCfg_sound (s : State) (m : Nat) (v : Word) (hk : s.Sound cq) :
    (State.writeMbCfg s m v).Sound cq := by
  unfold State.writeMbCfg; simp +contextual (maxDischargeDepth := 40) [hk]

@[simp] theorem State.writeMbTail_sound (s : State) (m : Nat) (v : Word) (hk : s.Sound cq) :
    (State.writeMbTail s m v).Sound cq := by
  unfold State.writeMbTail; simp +contextual (maxDischargeDepth := 40) [hk]

@[simp] theorem State.writeMbHead_sound (s : State) (m : Nat) (v : Word) (hk : s.Sound cq) :
    (State.writeMbHead s m v).Sound cq := by
  unfold State.writeMbHead; simp +contextual (maxDischargeDepth := 40) [hk]

@[simp] theorem execMailboxTailWrite_sound (req : Req) (m : Fin 16) (v : Word) (s : State) (hk : s.Sound cq) :
    OutSound cq (execMailboxTailWrite req m v s) := by
  unfold execMailboxTailWrite; simp +contextual (maxDischargeDepth := 40) [hk]

@[simp] theorem execMailboxHeadWrite_sound (req : Req) (m : Fin 16) (v : Word) (s : State) (hk : s.Sound cq) :
    OutSound cq (execMailboxHeadWrite req m v s) := by
  unfold execMailboxHeadWrite; simp +contextual (maxDischargeDepth := 40) [hk]

@[simp] theorem State.writeStw_sound (s : State) (o : Nat) (v : Word) (hk : s.Sound cq) :
    (State.writeStw s o v).Sound cq := by
  unfold State.writeStw; repeat' split
  all_goals simp +contextual (maxDischargeDepth := 40) [hk]

end Sys2Proof.Machine
end

