-- ==== Sys2Proof/Laws/KeepSoundBeamRegs.lean ====
section
/-! SUPPORT. The updates of Machine/BeamRegs.lean keep a state sound. -/
namespace Sys2Proof.Machine

variable {cq : List Instr}

@[simp] theorem State.bmErr_sound (s : State) (b : Nat) (hk : s.Sound cq) :
    (State.bmErr s b).Sound cq := by
  unfold State.bmErr; simp +contextual (maxDischargeDepth := 40) [hk]

@[simp] theorem State.setGenState_sound (s : State) (b n : Nat) (hk : s.Sound cq) :
    (State.setGenState s b n).Sound cq := by
  unfold State.setGenState; simp +contextual (maxDischargeDepth := 40) [hk]

@[simp] theorem State.updGen_sound (s : State) (b : Nat) (f : GenSt → GenSt) (hk : s.Sound cq) :
    (State.updGen s b f).Sound cq := by
  unfold State.updGen; simp +contextual (maxDischargeDepth := 40) [hk]

@[simp] theorem State.updComp_sound (s : State) (b : Nat) (f : CompSt → CompSt) (hk : s.Sound cq) :
    (State.updComp s b f).Sound cq := by
  unfold State.updComp; simp +contextual (maxDischargeDepth := 40) [hk]

@[simp] theorem State.updOut_sound (s : State) (b : Nat) (f : IslandSt → IslandSt) (hk : s.Sound cq) :
    (State.updOut s b f).Sound cq := by
  unfold State.updOut; simp +contextual (maxDischargeDepth := 40) [hk]

@[simp] theorem State.updFlat_sound (s : State) (b : Nat) (f : FlatSt → FlatSt) (hk : s.Sound cq) :
    (State.updFlat s b f).Sound cq := by
  unfold State.updFlat; simp +contextual (maxDischargeDepth := 40) [hk]

@[simp] theorem State.applySet_sound (s : State) (b : Nat) (ws : List Word) (hk : s.Sound cq) :
    (State.applySet s b ws).Sound cq := by
  unfold State.applySet; simp +contextual (maxDischargeDepth := 40) [hk]

@[simp] theorem State.rejectSet_sound (s : State) (b : Nat) (hk : s.Sound cq) :
    (State.rejectSet s b).Sound cq := by
  unfold State.rejectSet; simp +contextual (maxDischargeDepth := 40) [hk]

@[simp] theorem State.furStop_sound (s : State) (b : Nat) (hk : s.Sound cq) :
    (State.furStop s b).Sound cq := by
  unfold State.furStop; simp +contextual (maxDischargeDepth := 40) [hk]

@[simp] theorem State.furHalt_sound (s : State) (b : Nat) (hk : s.Sound cq) :
    (State.furHalt s b).Sound cq := by
  unfold State.furHalt; simp +contextual (maxDischargeDepth := 40) [hk]

@[simp] theorem State.compStop_sound (s : State) (b : Nat) (hk : s.Sound cq) :
    (State.compStop s b).Sound cq := by
  unfold State.compStop; simp +contextual (maxDischargeDepth := 40) [hk]

@[simp] theorem State.tenOn_sound (s : State) (b : Nat) (hk : s.Sound cq) :
    (State.tenOn s b).Sound cq := by
  unfold State.tenOn; simp +contextual (maxDischargeDepth := 40) [hk]

@[simp] theorem State.tenOff_sound (s : State) (b : Nat) (hk : s.Sound cq) :
    (State.tenOff s b).Sound cq := by
  unfold State.tenOff; simp +contextual (maxDischargeDepth := 40) [hk]

@[simp] theorem State.tgoWrite_sound (s : State) (b : Nat) (hk : s.Sound cq) :
    (State.tgoWrite s b).Sound cq := by
  unfold State.tgoWrite; simp +contextual (maxDischargeDepth := 40) [hk]

@[simp] theorem State.writeTctrl_sound (s : State) (b : Nat) (v : Word) (hk : s.Sound cq) :
    (State.writeTctrl s b v).Sound cq := by
  unfold State.writeTctrl; simp +contextual (maxDischargeDepth := 40) [hk]

@[simp] theorem State.tenCmd_sound (s : State) (r b : Nat) (f : State → State) (hk : s.Sound cq) (hkf : ∀ t, t.Sound cq → (f t).Sound cq) :
    (State.tenCmd s r b f).Sound cq := by
  unfold State.tenCmd; simp +contextual (maxDischargeDepth := 40) [hk, hkf]

@[simp] theorem execTimingEnable_sound (req : Req) (b : BeamIx) (s : State) (hk : s.Sound cq) :
    OutSound cq (execTimingEnable req b s) := by
  unfold execTimingEnable; simp +contextual (maxDischargeDepth := 40) [hk]

@[simp] theorem execTimingDisable_sound (req : Req) (b : BeamIx) (s : State) (hk : s.Sound cq) :
    OutSound cq (execTimingDisable req b s) := by
  unfold execTimingDisable; simp +contextual (maxDischargeDepth := 40) [hk]

@[simp] theorem execTgo_sound (req : Req) (b : BeamIx) (s : State) (hk : s.Sound cq) :
    OutSound cq (execTgo req b s) := by
  unfold execTgo; simp +contextual (maxDischargeDepth := 40) [hk]

@[simp] theorem State.chooseStart_sound (s : State) (b a ended : Nat) (hk : s.Sound cq) :
    (State.chooseStart s b a ended).Sound cq := by
  unfold State.chooseStart; simp +contextual (maxDischargeDepth := 40) [hk]

@[simp] theorem State.pllLock_sound (s : State) (b : Nat) (hk : s.Sound cq) :
    (State.pllLock s b).Sound cq := by
  unfold State.pllLock; simp +contextual (maxDischargeDepth := 40) [hk]

@[simp] theorem execPixelPllLock_sound (b : BeamIx) (s : State) (hk : s.Sound cq) :
    OutSound cq (execPixelPllLock b s) := by
  unfold execPixelPllLock; simp +contextual (maxDischargeDepth := 40) [hk]

@[simp] theorem State.relock_sound (s : State) (b : Nat) (hk : s.Sound cq) :
    (State.relock s b).Sound cq := by
  unfold State.relock; simp +contextual (maxDischargeDepth := 40) [hk]

@[simp] theorem State.acceptEdge_sound (s : State) (b before : Nat) (hk : s.Sound cq) :
    (State.acceptEdge s b before).Sound cq := by
  unfold State.acceptEdge; simp +contextual (maxDischargeDepth := 40) [hk]

@[simp] theorem State.endHold_sound (s : State) (b : Nat) (hk : s.Sound cq) :
    (State.endHold s b).Sound cq := by
  unfold State.endHold; simp +contextual (maxDischargeDepth := 40) [hk]

@[simp] theorem State.candidate_sound (s : State) (b : Nat) (hk : s.Sound cq) :
    (State.candidate s b).Sound cq := by
  unfold State.candidate; grind [State.updGen_sound, State.chooseStart_sound, State.acceptEdge_sound, State.endHold_sound, forN_sound, foldl_sound]

@[simp] theorem State.glkEdge_sound (s : State) (b : Nat) (rising : Bool) (hk : s.Sound cq) :
    (State.glkEdge s b rising).Sound cq := by
  unfold State.glkEdge; repeat' split
  all_goals simp +contextual (maxDischargeDepth := 40) [hk]

@[simp] theorem State.glkLoss_sound (s : State) (b : Nat) (hk : s.Sound cq) :
    (State.glkLoss s b).Sound cq := by
  unfold State.glkLoss; simp +contextual (maxDischargeDepth := 40) [hk]

@[simp] theorem execGlkLoss_sound (b : BeamIx) (s : State) (hk : s.Sound cq) :
    OutSound cq (execGlkLoss b s) := by
  unfold execGlkLoss; simp +contextual (maxDischargeDepth := 40) [hk]

@[simp] theorem State.writePal_sound (s : State) (b i : Nat) (v : Word) (hk : s.Sound cq) :
    (State.writePal s b i v).Sound cq := by
  unfold State.writePal; simp +contextual (maxDischargeDepth := 40) [hk]

@[simp] theorem execPaletteWrite_sound (req : Req) (b : BeamIx) (i : BitVec 12) (v : Word) (s : State) (hk : s.Sound cq) :
    OutSound cq (execPaletteWrite req b i v s) := by
  unfold execPaletteWrite; simp +contextual (maxDischargeDepth := 40) [hk]

@[simp] theorem State.updRegion_sound (s : State) (b n : Nat) (f : RegionSt → RegionSt) (hk : s.Sound cq) :
    (State.updRegion s b n f).Sound cq := by
  unfold State.updRegion; simp +contextual (maxDischargeDepth := 40) [hk]

@[simp] theorem State.regionCapture_sound (s : State) (b n : Nat) (hk : s.Sound cq) : (s.regionCapture b n).Sound cq := by
  unfold State.regionCapture
  simp only
  apply State.setReg_sound
  apply State.setReg_sound
  apply State.setReg_sound
  split <;> simp [hk]

@[simp] theorem execRegionCap_sound (req : Req) (b : BeamIx) (n : Fin 16) (s : State) (hk : s.Sound cq) :
    OutSound cq (execRegionCap req b n s) := by
  unfold execRegionCap; simp +contextual (maxDischargeDepth := 40) [hk]

@[simp] theorem State.writeWrCtrl_sound (s : State) (b n : Nat) (v : Word) (hk : s.Sound cq) :
    (State.writeWrCtrl s b n v).Sound cq := by
  unfold State.writeWrCtrl; simp +contextual (maxDischargeDepth := 40) [hk]

@[simp] theorem State.writeUnder_sound (s : State) (b : Nat) (v : Word) (hk : s.Sound cq) :
    (State.writeUnder s b v).Sound cq := by
  unfold State.writeUnder; grind [State.setReg_sound, State.useFree_sound, State.updOut_sound, forN_sound, foldl_sound]

@[simp] theorem State.writeBeam_sound (s : State) (b o : Nat) (v : Word) (hk : s.Sound cq) :
    (State.writeBeam s b o v).Sound cq := by
  unfold State.writeBeam; simp +contextual (maxDischargeDepth := 40) [hk]

@[simp] theorem State.writeFurrow_sound (s : State) (b j : Nat) (v : Word) (hk : s.Sound cq) :
    (State.writeFurrow s b j v).Sound cq := by
  unfold State.writeFurrow; simp +contextual (maxDischargeDepth := 40) [hk]

end Sys2Proof.Machine
end

