-- ==== Sys2Proof/Laws/KeepSoundHarrowRegs.lean ====
section
/-! SUPPORT. The updates of Machine/HarrowRegs.lean keep a state sound. -/
namespace Sys2Proof.Machine

variable {cq : List Instr}

@[simp] theorem State.settleHrw_sound (s : State) (hk : s.Sound cq) :
    (State.settleHrw s).Sound cq := by
  unfold State.settleHrw; grind [State.setFld_sound, State.putBit_sound, forN_sound, foldl_sound]

@[simp] theorem State.setQueue_sound (s : State) (q : Nat) (l : List HrwList) (hk : s.Sound cq) :
    (State.setQueue s q l).Sound cq := by
  unfold State.setQueue; simp +contextual (maxDischargeDepth := 40) [hk]

@[simp] theorem State.setHeld_sound (s : State) (q : Nat) (l : List HrwHeld) (hk : s.Sound cq) :
    (State.setHeld s q l).Sound cq := by
  unfold State.setHeld; simp +contextual (maxDischargeDepth := 40) [hk]

@[simp] theorem State.hrwArbitrate_sound (s : State) (hk : s.Sound cq) : (s.hrwArbitrate).Sound cq := by
  unfold State.hrwArbitrate
  extract_lets best was s0 s1 s2
  have h1 : s1.Sound cq := by simp [s1, hk]
  have h2 : s2.Sound cq := by
    simp only [s2]; clear_value s1 was best
    cases was <;> cases best <;> simp [h1]
  clear_value s2 best
  cases best with
  | none => simp [h2]
  | some q => simp only; split <;> simp [h2]

@[simp] theorem State.hrwKick_sound (s : State) (hk : s.Sound cq) :
    (State.hrwKick s).Sound cq := by
  unfold State.hrwKick; simp +contextual (maxDischargeDepth := 40) [hk]

@[simp] theorem State.hrwErr_sound (s : State) (cause q ofs : Nat) (hk : s.Sound cq) :
    (State.hrwErr s cause q ofs).Sound cq := by
  unfold State.hrwErr; simp +contextual (maxDischargeDepth := 40) [hk]

@[simp] theorem State.hrwSubmit_sound (s : State) (q base : Nat) (hk : s.Sound cq) :
    (State.hrwSubmit s q base).Sound cq := by
  unfold State.hrwSubmit; simp +contextual (maxDischargeDepth := 40) [hk]

@[simp] theorem execHrwSubmit_sound (req : Req) (q : Fin 4) (base : Word) (s : State) (hk : s.Sound cq) :
    OutSound cq (execHrwSubmit req q base s) := by
  unfold execHrwSubmit; simp +contextual (maxDischargeDepth := 40) [hk]

@[simp] theorem State.hrwFlush_sound (s : State) (q : Nat) (hk : s.Sound cq) :
    (State.hrwFlush s q).Sound cq := by
  unfold State.hrwFlush; simp +contextual (maxDischargeDepth := 40) [hk]

@[simp] theorem execHrwFlush_sound (req : Req) (q : Fin 4) (s : State) (hk : s.Sound cq) :
    OutSound cq (execHrwFlush req q s) := by
  unfold execHrwFlush; simp +contextual (maxDischargeDepth := 40) [hk]

@[simp] theorem State.hrwFence_sound (s : State) (p : Nat) (hk : s.Sound cq) :
    (State.hrwFence s p).Sound cq := by
  unfold State.hrwFence; simp +contextual (maxDischargeDepth := 40) [hk]

@[simp] theorem State.hrwPause_sound (s : State) (hk : s.Sound cq) :
    (State.hrwPause s).Sound cq := by
  unfold State.hrwPause; simp +contextual (maxDischargeDepth := 40) [hk]

@[simp] theorem State.hrwResume_sound (s : State) (hk : s.Sound cq) :
    (State.hrwResume s).Sound cq := by
  unfold State.hrwResume; simp +contextual (maxDischargeDepth := 40) [hk]

@[simp] theorem execHarrowPause_sound (req : Req) (s : State) (hk : s.Sound cq) :
    OutSound cq (execHarrowPause req s) := by
  unfold execHarrowPause; simp +contextual (maxDischargeDepth := 40) [hk]

@[simp] theorem execHarrowResume_sound (req : Req) (s : State) (hk : s.Sound cq) :
    OutSound cq (execHarrowResume req s) := by
  unfold execHarrowResume; simp +contextual (maxDischargeDepth := 40) [hk]

@[simp] theorem State.hrwSignal_sound (s : State) (q : Nat) (tine : Option Nat) (hk : s.Sound cq) :
    (State.hrwSignal s q tine).Sound cq := by
  unfold State.hrwSignal; split <;> simp +contextual (maxDischargeDepth := 40) [hk]

@[simp] theorem State.hrwWm_sound (s : State) (b : Nat) (hk : s.Sound cq) :
    (State.hrwWm s b).Sound cq := by
  unfold State.hrwWm; grind [State.setQueue_sound, State.setHeld_sound, State.hrwKick_sound, State.hrwSignal_sound, forN_sound, foldl_sound]

@[simp] theorem State.hrwTellStarter_sound (s : State) (id : Nat) (hk : s.Sound cq) :
    (State.hrwTellStarter s id).Sound cq := by
  unfold State.hrwTellStarter; simp +contextual (maxDischargeDepth := 40) [hk]

@[simp] theorem State.hrwComplete_sound (s : State) (q : Nat) (hk : s.Sound cq) :
    (State.hrwComplete s q).Sound cq := by
  unfold State.hrwComplete; split <;> simp +contextual (maxDischargeDepth := 40) [hk]

@[simp] theorem execListComplete_sound (q : Fin 4) (s : State) (hk : s.Sound cq) :
    OutSound cq (execListComplete q s) := by
  unfold execListComplete; simp +contextual (maxDischargeDepth := 40) [hk]

@[simp] theorem State.hrwTimeout_sound (s : State) (q : Nat) (hk : s.Sound cq) :
    (State.hrwTimeout s q).Sound cq := by
  unfold State.hrwTimeout; repeat' split
  all_goals simp +contextual (maxDischargeDepth := 40) [hk]

@[simp] theorem execWatermarkTimeout_sound (q : Fin 4) (s : State) (hk : s.Sound cq) :
    OutSound cq (execWatermarkTimeout q s) := by
  unfold execWatermarkTimeout; simp +contextual (maxDischargeDepth := 40) [hk]

@[simp] theorem State.writeHarrow_sound (s : State) (o : Nat) (v : Word) (hk : s.Sound cq) :
    (State.writeHarrow s o v).Sound cq := by
  unfold State.writeHarrow; simp +contextual (maxDischargeDepth := 40) [hk]

end Sys2Proof.Machine
end

