-- ==== Sys2Proof/Laws/KeepSoundDebugRegs.lean ====
section
/-! SUPPORT. The updates of Machine/DebugRegs.lean keep a state sound. -/
namespace Sys2Proof.Machine

variable {cq : List Instr}

@[simp] theorem State.dbgErr_sound (s : State) (cause : Nat) (hk : s.Sound cq) :
    (State.dbgErr s cause).Sound cq := by
  unfold State.dbgErr; simp +contextual (maxDischargeDepth := 40) [hk]

@[simp] theorem State.openSession_sound (s : State) (hk : s.Sound cq) :
    (State.openSession s).Sound cq := by
  unfold State.openSession; simp +contextual (maxDischargeDepth := 40) [hk]

@[simp] theorem State.resume_sound (s : State) (p : Nat) (hk : s.Sound cq) :
    (State.resume s p).Sound cq := by
  unfold State.resume; simp +contextual (maxDischargeDepth := 40) [hk]

@[simp] theorem State.closeSession_sound (s : State) (hk : s.Sound cq) :
    (State.closeSession s).Sound cq := by
  unfold State.closeSession; simp +contextual (maxDischargeDepth := 40) [hk]

@[simp] theorem State.stepOne_sound (s : State) (p : Nat) (hk : s.Sound cq) :
    (State.stepOne s p).Sound cq := by
  unfold State.stepOne; simp +contextual (maxDischargeDepth := 40) [hk]

@[simp] theorem State.askHalt_sound (s : State) (r p : Nat) (hk : s.Sound cq) :
    (State.askHalt s r p).Sound cq := by
  unfold State.askHalt; simp +contextual (maxDischargeDepth := 40) [hk]

@[simp] theorem State.readRdata_sound (s : State) (p : Nat) (hk : s.Sound cq) :
    (State.readRdata s p).1.Sound cq := by
  unfold State.readRdata; simp +contextual (maxDischargeDepth := 40) [hk]

@[simp] theorem State.writeRdata_sound (s : State) (p : Nat) (v : Word) (hk : s.Sound cq) :
    (State.writeRdata s p v).Sound cq := by
  unfold State.writeRdata; simp +contextual (maxDischargeDepth := 40) [hk]

@[simp] theorem State.writeDbgCtrl_sound (s : State) (v : Word) (hk : s.Sound cq) :
    (State.writeDbgCtrl s v).Sound cq := by
  unfold State.writeDbgCtrl; simp +contextual (maxDischargeDepth := 40) [hk]

@[simp] theorem State.writeCmp_sound (s : State) (p k j : Nat) (v : Word) (hk : s.Sound cq) :
    (State.writeCmp s p k j v).Sound cq := by
  unfold State.writeCmp; simp +contextual (maxDischargeDepth := 40) [hk]

@[simp] theorem State.writeDebug_sound (s : State) (r o : Nat) (v : Word) (hk : s.Sound cq) :
    (State.writeDebug s r o v).Sound cq := by
  unfold State.writeDebug
  generalize 0x8100000 + o = a
  dsimp only
  repeat' with_reducible refine ite_sound ?_ ?_
  all_goals first | exact hk | simp +contextual (maxDischargeDepth := 40) [hk]

@[simp] theorem State.dbgCmd_sound (s : State) (r a : Nat) (v : Word) (f : State → State) (hk : s.Sound cq) (hkf : ∀ t, t.Sound cq → (f t).Sound cq) :
    (State.dbgCmd s r a v f).Sound cq := by
  unfold State.dbgCmd; simp +contextual (maxDischargeDepth := 40) [hk, hkf]

@[simp] theorem execDbgHalt_sound (req : Req) (mask : BitVec 17) (s : State) (hk : s.Sound cq) :
    OutSound cq (execDbgHalt req mask s) := by
  unfold execDbgHalt; simp +contextual (maxDischargeDepth := 40) [hk]

@[simp] theorem execDbgResume_sound (req : Req) (mask : BitVec 17) (s : State) (hk : s.Sound cq) :
    OutSound cq (execDbgResume req mask s) := by
  unfold execDbgResume; simp +contextual (maxDischargeDepth := 40) [hk]

@[simp] theorem execDbgStep_sound (req : Req) (p : Proc) (s : State) (hk : s.Sound cq) :
    OutSound cq (execDbgStep req p s) := by
  unfold execDbgStep; simp +contextual (maxDischargeDepth := 40) [hk]

@[simp] theorem execDebugReset_sound (req : Req) (s : State) (hk : s.Sound cq) :
    OutSound cq (execDebugReset req s) := by
  unfold execDebugReset; simp +contextual (maxDischargeDepth := 40) [hk]

@[simp] theorem execRdataAccess_sound (req : Req) (p : Proc) (w : Option Word) (s : State) (hk : s.Sound cq) :
    OutSound cq (execRdataAccess req p w s) := by
  unfold execRdataAccess; grind [State.answer_sound, State.refuse_sound, State.dbgErr_sound, State.readRdata_sound, State.writeRdata_sound, State.dbgCmd_sound, forN_sound, foldl_sound, outSound_next, outSound_refused]

end Sys2Proof.Machine
end

