-- ==== Sys2Proof/Laws/KeepSoundGleanRegs.lean ====
section
/-! SUPPORT. The updates of Machine/GleanRegs.lean keep a state sound. -/
namespace Sys2Proof.Machine

variable {cq : List Instr}

@[simp] theorem State.glnErr_sound (s : State) (cause u : Nat) (hk : s.Sound cq) :
    (State.glnErr s cause u).Sound cq := by
  unfold State.glnErr; simp +contextual (maxDischargeDepth := 40) [hk]

@[simp] theorem State.glnCapture_sound (s : State) (u : Nat) (hk : s.Sound cq) :
    (State.glnCapture s u).Sound cq := by
  unfold State.glnCapture; simp +contextual (maxDischargeDepth := 40) [hk]

@[simp] theorem State.glnCaptureBy_sound (s : State) (r u : Nat) (hk : s.Sound cq) :
    (State.glnCaptureBy s r u).Sound cq := by
  unfold State.glnCaptureBy; simp +contextual (maxDischargeDepth := 40) [hk]

@[simp] theorem execGleanCapture_sound (req : Req) (u : BitVec 5) (s : State) (hk : s.Sound cq) :
    OutSound cq (execGleanCapture req u s) := by
  unfold execGleanCapture; simp +contextual (maxDischargeDepth := 40) [hk]

@[simp] theorem State.glnSnapshot_sound (s : State) (hk : s.Sound cq) :
    (State.glnSnapshot s).Sound cq := by
  unfold State.glnSnapshot; simp +contextual (maxDischargeDepth := 40) [hk]

@[simp] theorem execGleanSnapshot_sound (s : State) (hk : s.Sound cq) :
    OutSound cq (execGleanSnapshot s) := by
  unfold execGleanSnapshot; simp +contextual (maxDischargeDepth := 40) [hk]

@[simp] theorem State.readSample_sound (s : State) (c : Nat) (hk : s.Sound cq) :
    (State.readSample s c).1.Sound cq := by
  unfold State.readSample; split <;> simp +contextual (maxDischargeDepth := 40) [hk]

@[simp] theorem State.glnUserErr_sound (s : State) (o : Nat) (write : Bool) (hk : s.Sound cq) :
    (State.glnUserErr s o write).Sound cq := by
  unfold State.glnUserErr; simp +contextual (maxDischargeDepth := 40) [hk]

@[simp] theorem execSampleRead_sound (req : Req) (c : Fin 16) (s : State) (hk : s.Sound cq) :
    OutSound cq (execSampleRead req c s) := by
  unfold execSampleRead; grind [State.answer_sound, State.refuse_sound, State.readSample_sound, State.glnUserErr_sound, forN_sound, foldl_sound, outSound_next, outSound_refused]

@[simp] theorem State.writeGlean_sound (s : State) (r o : Nat) (v : Word) (hk : s.Sound cq) :
    (State.writeGlean s r o v).Sound cq := by
  unfold State.writeGlean; simp +contextual (maxDischargeDepth := 40) [hk]

end Sys2Proof.Machine
end

