-- ==== Sys2Proof/Laws/KeepSoundTykCore.lean ====
section
/-! SUPPORT. The updates of Machine/TykCore.lean keep a state sound. -/
namespace Sys2Proof.Machine

variable {cq : List Instr}

@[simp] theorem State.sendBack_sound (s : State) (t : Transport) (f r : List Word) (hk : s.Sound cq) :
    (State.sendBack s t f r).Sound cq := by
  unfold State.sendBack; split <;> simp +contextual (maxDischargeDepth := 40) [hk]

@[simp] theorem State.updTyk_sound (s : State) (f : TykSt → TykSt) (hk : s.Sound cq) :
    (State.updTyk s f).Sound cq := by
  unfold State.updTyk; simp +contextual (maxDischargeDepth := 40) [hk]

@[simp] theorem State.putPair_sound (s : State) (f : List Word) (p : TykPair) (hk : s.Sound cq) :
    (State.putPair s f p).Sound cq := by
  unfold State.putPair; simp +contextual (maxDischargeDepth := 40) [hk]

@[simp] theorem State.acceptPair_sound (s : State) (f : List Word) (hk : s.Sound cq) :
    (State.acceptPair s f).Sound cq := by
  unfold State.acceptPair; simp +contextual (maxDischargeDepth := 40) [hk]

@[simp] theorem State.keepReply_sound (s : State) (f r : List Word) (hk : s.Sound cq) :
    (State.keepReply s f r).Sound cq := by
  unfold State.keepReply; split <;> simp +contextual (maxDischargeDepth := 40) [hk]

@[simp] theorem State.tykFinishWith_sound (s : State) (t : Transport) (f r : List Word) (hk : s.Sound cq) :
    (State.tykFinishWith s t f r).Sound cq := by
  unfold State.tykFinishWith; simp +contextual (maxDischargeDepth := 40) [hk]

@[simp] theorem State.tykFinish_sound (s : State) (t : Transport) (f : List Word) (st detail : Nat) (ws : List Word) (hk : s.Sound cq) :
    (State.tykFinish s t f st detail ws).Sound cq := by
  unfold State.tykFinish; simp +contextual (maxDischargeDepth := 40) [hk]

@[simp] theorem State.tykFinishFree_sound (s : State) (t : Transport) (f : List Word) (st : Nat) (hk : s.Sound cq) :
    (State.tykFinishFree s t f st).Sound cq := by
  unfold State.tykFinishFree; simp +contextual (maxDischargeDepth := 40) [hk]

@[simp] theorem State.tykHold_sound (s : State) (t : Transport) (f : List Word) (op : TykOp) (hk : s.Sound cq) :
    (State.tykHold s t f op).Sound cq := by
  unfold State.tykHold; simp +contextual (maxDischargeDepth := 40) [hk]

@[simp] theorem State.tykEnd_sound (s : State) (sel : TykWait → Bool) (act : TykWait → State → State) (hk : s.Sound cq) (hkact : ∀ i t, t.Sound cq → (act i t).Sound cq) :
    (State.tykEnd s sel act).Sound cq := by
  unfold State.tykEnd; simp +contextual (maxDischargeDepth := 40) [hk, hkact]

@[simp] theorem State.tykFence_sound (s : State) (p : Nat) (hk : s.Sound cq) :
    (State.tykFence s p).Sound cq := by
  unfold State.tykFence; grind [State.freeIn_sound, State.tykFinish_sound, State.tykEnd_sound, forN_sound, foldl_sound]

@[simp] theorem State.tykPlotDone_sound (s : State) (op : TykOp) (hk : s.Sound cq) :
    (State.tykPlotDone s op).Sound cq := by
  unfold State.tykPlotDone; simp +contextual (maxDischargeDepth := 40) [hk]

@[simp] theorem State.tykSheafLeft_sound (s : State) (p : Nat) (rejected : Bool) (hk : s.Sound cq) :
    (State.tykSheafLeft s p rejected).Sound cq := by
  unfold State.tykSheafLeft; simp +contextual (maxDischargeDepth := 40) [hk]

end Sys2Proof.Machine
end

