-- ==== Sys2Proof/Laws/KeepSoundAudioRegs.lean ====
section
/-! SUPPORT. The updates of Machine/AudioRegs.lean keep a state sound. -/
namespace Sys2Proof.Machine

variable {cq : List Instr}

@[simp] theorem State.audErr_sound (s : State) (cause ofs : Nat) (hk : s.Sound cq) :
    (State.audErr s cause ofs).Sound cq := by
  unfold State.audErr; simp +contextual (maxDischargeDepth := 40) [hk]

@[simp] theorem State.audCount_sound (s : State) (a n : Nat) (evt : Option Nat) (hk : s.Sound cq) :
    (State.audCount s a n evt).Sound cq := by
  unfold State.audCount; split <;> simp +contextual (maxDischargeDepth := 40) [hk]

@[simp] theorem State.updAud_sound (s : State) (f : AudSt → AudSt) (hk : s.Sound cq) :
    (State.updAud s f).Sound cq := by
  unfold State.updAud; simp +contextual (maxDischargeDepth := 40) [hk]

@[simp] theorem State.updVoice_sound (s : State) (v : Nat) (f : VoiceSt → VoiceSt) (hk : s.Sound cq) :
    (State.updVoice s v f).Sound cq := by
  unfold State.updVoice; simp +contextual (maxDischargeDepth := 40) [hk]

@[simp] theorem State.setVoiceState_sound (s : State) (v n : Nat) (hk : s.Sound cq) :
    (State.setVoiceState s v n).Sound cq := by
  unfold State.setVoiceState; simp +contextual (maxDischargeDepth := 40) [hk]

@[simp] theorem State.voiceGo_sound (s : State) (v : Nat) (hk : s.Sound cq) :
    (State.voiceGo s v).Sound cq := by
  unfold State.voiceGo; simp +contextual (maxDischargeDepth := 40) [hk]

@[simp] theorem State.voiceStop_sound (s : State) (v : Nat) (hk : s.Sound cq) :
    (State.voiceStop s v).Sound cq := by
  unfold State.voiceStop; simp +contextual (maxDischargeDepth := 40) [hk]

@[simp] theorem State.voiceRel_sound (s : State) (v : Nat) (hk : s.Sound cq) :
    (State.voiceRel s v).Sound cq := by
  unfold State.voiceRel; simp +contextual (maxDischargeDepth := 40) [hk]

@[simp] theorem execVoiceGo_sound (req : Req) (v : BitVec 6) (s : State) (hk : s.Sound cq) :
    OutSound cq (execVoiceGo req v s) := by
  unfold execVoiceGo; simp +contextual (maxDischargeDepth := 40) [hk]

@[simp] theorem execVoiceStop_sound (req : Req) (v : BitVec 6) (s : State) (hk : s.Sound cq) :
    OutSound cq (execVoiceStop req v s) := by
  unfold execVoiceStop; simp +contextual (maxDischargeDepth := 40) [hk]

@[simp] theorem execVoiceRel_sound (req : Req) (v : BitVec 6) (s : State) (hk : s.Sound cq) :
    OutSound cq (execVoiceRel req v s) := by
  unfold execVoiceRel; simp +contextual (maxDischargeDepth := 40) [hk]

@[simp] theorem State.writeVoiceCtrl_sound (s : State) (v : Nat) (w : Word) (hk : s.Sound cq) :
    (State.writeVoiceCtrl s v w).Sound cq := by
  unfold State.writeVoiceCtrl; simp +contextual (maxDischargeDepth := 40) [hk]

@[simp] theorem State.voiceTine_sound (s : State) (t : Nat) (hk : s.Sound cq) :
    (State.voiceTine s t).Sound cq := by
  unfold State.voiceTine; simp +contextual (maxDischargeDepth := 40) [hk]

@[simp] theorem State.writeNode_sound (s : State) (j : Nat) (w : Word) (hk : s.Sound cq) :
    (State.writeNode s j w).Sound cq := by
  unfold State.writeNode; simp +contextual (maxDischargeDepth := 40) [hk]

@[simp] theorem execNodeWrite_sound (req : Req) (i : BitVec 7) (o : BitVec 6) (v : Word) (s : State) (hk : s.Sound cq) :
    OutSound cq (execNodeWrite req i o v s) := by
  unfold execNodeWrite; simp +contextual (maxDischargeDepth := 40) [hk]

@[simp] theorem State.endNode_sound (s : State) (j : Nat) (take : Bool) (hk : s.Sound cq) :
    (State.endNode s j take).Sound cq := by
  unfold State.endNode; simp +contextual (maxDischargeDepth := 40) [hk]

@[simp] theorem State.setShfState_sound (s : State) (p n : Nat) (rejected : Bool) (hk : s.Sound cq) :
    (State.setShfState s p n rejected).Sound cq := by
  unfold State.setShfState; simp +contextual (maxDischargeDepth := 40) [hk]

@[simp] theorem State.setSheaf_sound (s : State) (p : Nat) (x : SheafSt) (hk : s.Sound cq) :
    (State.setSheaf s p x).Sound cq := by
  unfold State.setSheaf; simp +contextual (maxDischargeDepth := 40) [hk]

@[simp] theorem State.shfGo_sound (s : State) (p : Nat) (hk : s.Sound cq) :
    (State.shfGo s p).Sound cq := by
  unfold State.shfGo; simp +contextual (maxDischargeDepth := 40) [hk]

@[simp] theorem State.shfCancel_sound (s : State) (p : Nat) (hk : s.Sound cq) :
    (State.shfCancel s p).Sound cq := by
  unfold State.shfCancel; simp +contextual (maxDischargeDepth := 40) [hk]

@[simp] theorem execShfGo_sound (req : Req) (p : Fin 8) (s : State) (hk : s.Sound cq) :
    OutSound cq (execShfGo req p s) := by
  unfold execShfGo; simp +contextual (maxDischargeDepth := 40) [hk]

@[simp] theorem execShfCancel_sound (req : Req) (p : Fin 8) (s : State) (hk : s.Sound cq) :
    OutSound cq (execShfCancel req p s) := by
  unfold execShfCancel; simp +contextual (maxDischargeDepth := 40) [hk]

@[simp] theorem State.writeShfCtrl_sound (s : State) (p : Nat) (w : Word) (hk : s.Sound cq) :
    (State.writeShfCtrl s p w).Sound cq := by
  unfold State.writeShfCtrl; simp +contextual (maxDischargeDepth := 40) [hk]

@[simp] theorem State.audEnable_sound (s : State) (hk : s.Sound cq) :
    (State.audEnable s).Sound cq := by
  unfold State.audEnable; simp +contextual (maxDischargeDepth := 40) [hk]

@[simp] theorem State.audStop_sound (s : State) (hk : s.Sound cq) :
    (State.audStop s).Sound cq := by
  unfold State.audStop; simp +contextual (maxDischargeDepth := 40) [hk]

@[simp] theorem State.writeAudCtrl_sound (s0 : State) (w : Word) (hks0 : s0.Sound cq) :
    (State.writeAudCtrl s0 w).Sound cq := by
  unfold State.writeAudCtrl; simp +contextual (maxDischargeDepth := 40) [hks0]

@[simp] theorem execAudioEnable_sound (req : Req) (s : State) (hk : s.Sound cq) :
    OutSound cq (execAudioEnable req s) := by
  unfold execAudioEnable; simp +contextual (maxDischargeDepth := 40) [hk]

@[simp] theorem execAudioDisable_sound (req : Req) (s : State) (hk : s.Sound cq) :
    OutSound cq (execAudioDisable req s) := by
  unfold execAudioDisable; simp +contextual (maxDischargeDepth := 40) [hk]

@[simp] theorem State.audLock_sound (s : State) (hk : s.Sound cq) :
    (State.audLock s).Sound cq := by
  unfold State.audLock; simp +contextual (maxDischargeDepth := 40) [hk]

@[simp] theorem execAudioPllLock_sound (s : State) (hk : s.Sound cq) :
    OutSound cq (execAudioPllLock s) := by
  unfold execAudioPllLock; simp +contextual (maxDischargeDepth := 40) [hk]

@[simp] theorem State.updPort_sound (s : State) (t : Nat) (f : PortSt → PortSt) (hk : s.Sound cq) :
    (State.updPort s t f).Sound cq := by
  unfold State.updPort; simp +contextual (maxDischargeDepth := 40) [hk]

@[simp] theorem State.portStart_sound (s : State) (t : Nat) (hk : s.Sound cq) :
    (State.portStart s t).Sound cq := by
  unfold State.portStart; simp +contextual (maxDischargeDepth := 40) [hk]

@[simp] theorem State.audRun_sound (s : State) (hk : s.Sound cq) :
    (State.audRun s).Sound cq := by
  unfold State.audRun; simp +contextual (maxDischargeDepth := 40) [hk]

@[simp] theorem execAudioRunStart_sound (s : State) (hk : s.Sound cq) :
    OutSound cq (execAudioRunStart s) := by
  unfold execAudioRunStart; simp +contextual (maxDischargeDepth := 40) [hk]

@[simp] theorem State.writeRecCtrl_sound (s : State) (k : Nat) (w : Word) (hk : s.Sound cq) :
    (State.writeRecCtrl s k w).Sound cq := by
  unfold State.writeRecCtrl; simp +contextual (maxDischargeDepth := 40) [hk]

@[simp] theorem State.setTrim_sound (s : State) (l : Nat) (d : Int) (hk : s.Sound cq) :
    (State.setTrim s l d).Sound cq := by
  unfold State.setTrim; simp +contextual (maxDischargeDepth := 40) [hk]

@[simp] theorem State.writeAmbCfg_sound (s : State) (l : Nat) (w : Word) (hk : s.Sound cq) :
    (State.writeAmbCfg s l w).Sound cq := by
  unfold State.writeAmbCfg; simp +contextual (maxDischargeDepth := 40) [hk]

@[simp] theorem State.writeAudio_sound (s : State) (o : Nat) (w : Word) (hk : s.Sound cq) :
    (State.writeAudio s o w).Sound cq := by
  unfold State.writeAudio; simp +contextual (maxDischargeDepth := 40) [hk]

@[simp] theorem State.audFence_sound (s : State) (p : Nat) (hk : s.Sound cq) :
    (State.audFence s p).Sound cq := by
  unfold State.audFence; simp +contextual (maxDischargeDepth := 40) [hk]

end Sys2Proof.Machine
end

