-- ==== Sys2Proof/Laws/KeepSoundStaged.lean ====
section
/-! SUPPORT. The updates of Machine/Staged.lean keep a state sound. -/
namespace Sys2Proof.Machine

variable {cq : List Instr}

@[simp] theorem State.updStg_sound (s : State) (f : StgSt → StgSt) (hk : s.Sound cq) :
    (State.updStg s f).Sound cq := by
  unfold State.updStg; simp +contextual (maxDischargeDepth := 40) [hk]

@[simp] theorem State.stgPlay_sound (s : State) (n : Nat) (hk : s.Sound cq) :
    (State.stgPlay s n).Sound cq := by
  unfold State.stgPlay; simp +contextual (maxDischargeDepth := 40) [hk]

@[simp] theorem State.stgRequest_sound (s : State) (n : Nat) (hk : s.Sound cq) :
    (State.stgRequest s n).Sound cq := by
  unfold State.stgRequest; simp +contextual (maxDischargeDepth := 40) [hk]

@[simp] theorem State.stgIdle_sound (s : State) (hk : s.Sound cq) :
    (State.stgIdle s).Sound cq := by
  unfold State.stgIdle; grind [State.setFld_sound, State.clrBit_sound, State.updStg_sound, State.stgPlay_sound, forN_sound, foldl_sound]

@[simp] theorem State.stgEnd_sound (s : State) (n : Nat) (hk : s.Sound cq) :
    (State.stgEnd s n).Sound cq := by
  unfold State.stgEnd; simp +contextual (maxDischargeDepth := 40) [hk]

@[simp] theorem State.stgErr_sound (s : State) (cause : Nat) (hk : s.Sound cq) :
    (State.stgErr s cause).Sound cq := by
  unfold State.stgErr; simp +contextual (maxDischargeDepth := 40) [hk]

@[simp] theorem State.stgFinish_sound (s : State) (hk : s.Sound cq) :
    (State.stgFinish s).Sound cq := by
  unfold State.stgFinish; simp +contextual (maxDischargeDepth := 40) [hk]

@[simp] theorem State.stgDisplay_sound (s : State) (w : Nat) (hk : s.Sound cq) :
    (State.stgDisplay s w).Sound cq := by
  unfold State.stgDisplay; simp +contextual (maxDischargeDepth := 40) [hk]

@[simp] theorem State.stgShow_sound (s : State) (hk : s.Sound cq) :
    (State.stgShow s).Sound cq := by
  unfold State.stgShow; simp +contextual (maxDischargeDepth := 40) [hk]

@[simp] theorem State.stgHarrow_sound (s : State) (hk : s.Sound cq) :
    (State.stgHarrow s).Sound cq := by
  unfold State.stgHarrow; simp +contextual (maxDischargeDepth := 40) [hk]

@[simp] theorem State.stgSheaf_sound (s : State) (hk : s.Sound cq) :
    (State.stgSheaf s).Sound cq := by
  unfold State.stgSheaf; simp +contextual (maxDischargeDepth := 40) [hk]

@[simp] theorem State.stgBegin_sound (s : State) (hk : s.Sound cq) :
    (State.stgBegin s).Sound cq := by
  unfold State.stgBegin; simp +contextual (maxDischargeDepth := 40) [hk]

@[simp] theorem execStagedStart_sound (src : Fin 9) (s : State) (hk : s.Sound cq) :
    OutSound cq (execStagedStart src s) := by
  unfold execStagedStart; simp +contextual (maxDischargeDepth := 40) [hk]

@[simp] theorem execStagedSheafReady_sound (s : State) (hk : s.Sound cq) :
    OutSound cq (execStagedSheafReady s) := by
  unfold execStagedSheafReady; simp +contextual (maxDischargeDepth := 40) [hk]

@[simp] theorem execStagedHarrowDone_sound (s : State) (hk : s.Sound cq) :
    OutSound cq (execStagedHarrowDone s) := by
  unfold execStagedHarrowDone; simp +contextual (maxDischargeDepth := 40) [hk]

@[simp] theorem State.stgTimeout_sound (s : State) (hk : s.Sound cq) :
    (State.stgTimeout s).Sound cq := by
  unfold State.stgTimeout; repeat' split
  all_goals simp +contextual (maxDischargeDepth := 40) [hk]

@[simp] theorem execStagedWaitTimeout_sound (s : State) (hk : s.Sound cq) :
    OutSound cq (execStagedWaitTimeout s) := by
  unfold execStagedWaitTimeout; simp +contextual (maxDischargeDepth := 40) [hk]

@[simp] theorem State.stgGo_sound (s : State) (slot : Nat) (hk : s.Sound cq) :
    (State.stgGo s slot).Sound cq := by
  unfold State.stgGo; simp +contextual (maxDischargeDepth := 40) [hk]

@[simp] theorem execStggoGo_sound (req : Req) (slot : BitVec 6) (s : State) (hk : s.Sound cq) :
    OutSound cq (execStggoGo req slot s) := by
  unfold execStggoGo; simp +contextual (maxDischargeDepth := 40) [hk]

@[simp] theorem execStggoStop_sound (req : Req) (s : State) (hk : s.Sound cq) :
    OutSound cq (execStggoStop req s) := by
  unfold execStggoStop; simp +contextual (maxDischargeDepth := 40) [hk]

@[simp] theorem State.writeStggo_sound (s : State) (v : Word) (hk : s.Sound cq) :
    (State.writeStggo s v).Sound cq := by
  unfold State.writeStggo; simp +contextual (maxDischargeDepth := 40) [hk]

end Sys2Proof.Machine
end

