-- ==== Sys2Proof/Laws/KeepSoundLink.lean ====
section
/-! SUPPORT. The updates of Machine/Link.lean keep a state sound. -/
namespace Sys2Proof.Machine

variable {cq : List Instr}

@[simp] theorem State.lnkErr_sound (s : State) (cause n : Nat) (hk : s.Sound cq) :
    (State.lnkErr s cause n).Sound cq := by
  unfold State.lnkErr; simp +contextual (maxDischargeDepth := 40) [hk]

@[simp] theorem State.laneErr_sound (s : State) (cause n : Nat) (hk : s.Sound cq) :
    (State.laneErr s cause n).Sound cq := by
  unfold State.laneErr; simp +contextual (maxDischargeDepth := 40) [hk]

@[simp] theorem State.laneCounts_sound (s : State) (n : Nat) (f : LinkFrame) (hk : s.Sound cq) :
    (State.laneCounts s n f).Sound cq := by
  unfold State.laneCounts; simp +contextual (maxDischargeDepth := 40) [hk]

@[simp] theorem State.setNState_sound (s : State) (n k : Nat) (hk : s.Sound cq) :
    (State.setNState s n k).Sound cq := by
  unfold State.setNState; simp +contextual (maxDischargeDepth := 40) [hk]

@[simp] theorem State.setBlocked_sound (s : State) (r : Nat) (west on : Bool) (hk : s.Sound cq) :
    (State.setBlocked s r west on).Sound cq := by
  unfold State.setBlocked; simp +contextual (maxDischargeDepth := 40) [hk]

@[simp] theorem State.startSlew_sound (s : State) (hk : s.Sound cq) :
    (State.startSlew s).Sound cq := by
  unfold State.startSlew; simp +contextual (maxDischargeDepth := 40) [hk]

@[simp] theorem State.settleTime_sound (s : State) (hk : s.Sound cq) :
    (State.settleTime s).Sound cq := by
  unfold State.settleTime; grind [State.putBit_sound, State.startSlew_sound, forN_sound, foldl_sound]

@[simp] theorem State.settleRings_sound (s : State) (hk : s.Sound cq) :
    (State.settleRings s).Sound cq := by
  unfold State.settleRings; simp +contextual (maxDischargeDepth := 40) [hk]

@[simp] theorem State.learnPos_sound (s : State) (n : Nat) (f : LinkFrame) (hk : s.Sound cq) :
    (State.learnPos s n f).Sound cq := by
  unfold State.learnPos; split <;> simp +contextual (maxDischargeDepth := 40) [hk]

@[simp] theorem State.cutKnown_sound (s : State) (r n : Nat) (hk : s.Sound cq) :
    (State.cutKnown s r n).Sound cq := by
  unfold State.cutKnown; simp +contextual (maxDischargeDepth := 40) [hk]

@[simp] theorem State.healKnown_sound (s : State) (r n : Nat) (hk : s.Sound cq) :
    (State.healKnown s r n).Sound cq := by
  unfold State.healKnown; simp +contextual (maxDischargeDepth := 40) [hk]

@[simp] theorem State.sendRing_sound (s : State) (r event : Nat) (hk : s.Sound cq) :
    (State.sendRing s r event).Sound cq := by
  unfold State.sendRing; split <;> simp +contextual (maxDischargeDepth := 40) [hk]

@[simp] theorem State.ringLost_sound (s : State) (n : Nat) (hk : s.Sound cq) :
    (State.ringLost s n).Sound cq := by
  unfold State.ringLost; split <;> simp +contextual (maxDischargeDepth := 40) [hk]

@[simp] theorem State.ringBack_sound (s : State) (n : Nat) (hk : s.Sound cq) :
    (State.ringBack s n).Sound cq := by
  unfold State.ringBack; split <;> simp +contextual (maxDischargeDepth := 40) [hk]

@[simp] theorem State.openRing_sound (s : State) (n : Nat) (hk : s.Sound cq) :
    (State.openRing s n).Sound cq := by
  unfold State.openRing; simp +contextual (maxDischargeDepth := 40) [hk]

@[simp] theorem State.joinAskOn_sound (s : State) (n : Nat) (hk : s.Sound cq) :
    (State.joinAskOn s n).Sound cq := by
  unfold State.joinAskOn; simp +contextual (maxDischargeDepth := 40) [hk]

@[simp] theorem State.laneUp_sound (s : State) (n : Nat) (hk : s.Sound cq) :
    (State.laneUp s n).Sound cq := by
  unfold State.laneUp; simp +contextual (maxDischargeDepth := 40) [hk]

@[simp] theorem State.laneDown_sound (s : State) (n k : Nat) (hk : s.Sound cq) :
    (State.laneDown s n k).Sound cq := by
  unfold State.laneDown; simp +contextual (maxDischargeDepth := 40) [hk]

@[simp] theorem State.laneOn_sound (s : State) (n : Nat) (hk : s.Sound cq) :
    (State.laneOn s n).Sound cq := by
  unfold State.laneOn; simp +contextual (maxDischargeDepth := 40) [hk]

@[simp] theorem State.laneOff_sound (s : State) (n : Nat) (hk : s.Sound cq) :
    (State.laneOff s n).Sound cq := by
  unfold State.laneOff; simp +contextual (maxDischargeDepth := 40) [hk]

@[simp] theorem State.writeLaneCfg_sound (s : State) (n : Nat) (v : Word) (hk : s.Sound cq) :
    (State.writeLaneCfg s n v).Sound cq := by
  unfold State.writeLaneCfg; simp +contextual (maxDischargeDepth := 40) [hk]

@[simp] theorem State.laneWrite_sound (s : State) (n : Nat) (f : State → State) (hk : s.Sound cq) (hkf : ∀ t, t.Sound cq → (f t).Sound cq) :
    (State.laneWrite s n f).Sound cq := by
  unfold State.laneWrite; simp +contextual (maxDischargeDepth := 40) [hk, hkf]

@[simp] theorem execLaneEnable_sound (req : Req) (n : Fin 8) (s : State) (hk : s.Sound cq) :
    OutSound cq (execLaneEnable req n s) := by
  unfold execLaneEnable; simp +contextual (maxDischargeDepth := 40) [hk]

@[simp] theorem execLaneDisable_sound (req : Req) (n : Fin 8) (s : State) (hk : s.Sound cq) :
    OutSound cq (execLaneDisable req n s) := by
  unfold execLaneDisable; simp +contextual (maxDischargeDepth := 40) [hk]

@[simp] theorem State.laneLoss_sound (s : State) (n : Nat) (hk : s.Sound cq) :
    (State.laneLoss s n).Sound cq := by
  unfold State.laneLoss; simp +contextual (maxDischargeDepth := 40) [hk]

@[simp] theorem execBlockLockLoss_sound (n : Fin 8) (s : State) (hk : s.Sound cq) :
    OutSound cq (execBlockLockLoss n s) := by
  unfold execBlockLockLoss; simp +contextual (maxDischargeDepth := 40) [hk]

@[simp] theorem execLossOfSignal_sound (n : Fin 8) (s : State) (hk : s.Sound cq) :
    OutSound cq (execLossOfSignal n s) := by
  unfold execLossOfSignal; simp +contextual (maxDischargeDepth := 40) [hk]

@[simp] theorem State.capSend_sound (s : State) (n : Nat) (hk : s.Sound cq) :
    (State.capSend s n).Sound cq := by
  unfold State.capSend; simp +contextual (maxDischargeDepth := 40) [hk]

@[simp] theorem execCapSend_sound (n : Fin 8) (s : State) (hk : s.Sound cq) :
    OutSound cq (execCapSend n s) := by
  unfold execCapSend; simp +contextual (maxDischargeDepth := 40) [hk]

@[simp] theorem State.capReceived_sound (s : State) (n : Nat) (ws : List Word) (hk : s.Sound cq) :
    (State.capReceived s n ws).Sound cq := by
  unfold State.capReceived; grind [State.setReg_sound, State.updLane_sound, State.lnkErr_sound, State.setNState_sound, State.capSend_sound, forN_sound, foldl_sound]

@[simp] theorem execRateSwitchDone_sound (n : Fin 8) (s : State) (hk : s.Sound cq) :
    OutSound cq (execRateSwitchDone n s) := by
  unfold execRateSwitchDone; simp +contextual (maxDischargeDepth := 40) [hk]

@[simp] theorem State.hopBegin_sound (s : State) (n : Nat) (hk : s.Sound cq) :
    (State.hopBegin s n).Sound cq := by
  unfold State.hopBegin; simp +contextual (maxDischargeDepth := 40) [hk]

@[simp] theorem State.blockLocked_sound (s : State) (n : Nat) (hk : s.Sound cq) :
    (State.blockLocked s n).Sound cq := by
  unfold State.blockLocked; simp +contextual (maxDischargeDepth := 40) [hk]

@[simp] theorem execBlockLock_sound (n : Fin 8) (s : State) (hk : s.Sound cq) :
    OutSound cq (execBlockLock n s) := by
  unfold execBlockLock; simp +contextual (maxDischargeDepth := 40) [hk]

@[simp] theorem State.lockTimeout_sound (s : State) (n : Nat) (hk : s.Sound cq) :
    (State.lockTimeout s n).Sound cq := by
  unfold State.lockTimeout; simp +contextual (maxDischargeDepth := 40) [hk]

@[simp] theorem execBlockLockTimeout_sound (n : Fin 8) (s : State) (hk : s.Sound cq) :
    OutSound cq (execBlockLockTimeout n s) := by
  unfold execBlockLockTimeout; simp +contextual (maxDischargeDepth := 40) [hk]

@[simp] theorem execCapWaitTimeout_sound (n : Fin 8) (s : State) (hk : s.Sound cq) :
    OutSound cq (execCapWaitTimeout n s) := by
  unfold execCapWaitTimeout; simp +contextual (maxDischargeDepth := 40) [hk]

@[simp] theorem execEthernetSearchEnd_sound (n : Fin 8) (ok : Bool) (s : State) (hk : s.Sound cq) :
    OutSound cq (execEthernetSearchEnd n ok s) := by
  unfold execEthernetSearchEnd; simp +contextual (maxDischargeDepth := 40) [hk]

@[simp] theorem State.hopKeyed_sound (s : State) (n keyid : Nat) (k : HopKey × HopKey) (hk : s.Sound cq) :
    (State.hopKeyed s n keyid k).Sound cq := by
  unfold State.hopKeyed; simp +contextual (maxDischargeDepth := 40) [hk]

@[simp] theorem State.hopFails_sound (s : State) (n : Nat) (hk : s.Sound cq) :
    (State.hopFails s n).Sound cq := by
  unfold State.hopFails; simp +contextual (maxDischargeDepth := 40) [hk]

@[simp] theorem execHopAuthDone_sound (n : Fin 8) (s : State) (hk : s.Sound cq) :
    OutSound cq (execHopAuthDone n s) := by
  unfold execHopAuthDone; repeat' split
  all_goals simp +contextual (maxDischargeDepth := 40) [hk]

@[simp] theorem execHopRekey_sound (n : Fin 8) (s : State) (hk : s.Sound cq) :
    OutSound cq (execHopRekey n s) := by
  unfold execHopRekey; simp +contextual (maxDischargeDepth := 40) [hk]

@[simp] theorem State.hopHello_sound (s : State) (n : Nat) (ws : List Word) (hk : s.Sound cq) :
    (State.hopHello s n ws).Sound cq := by
  unfold State.hopHello; simp +contextual (maxDischargeDepth := 40) [hk]

@[simp] theorem State.hopProof_sound (s : State) (n : Nat) (sig : Bytes) (hk : s.Sound cq) :
    (State.hopProof s n sig).Sound cq := by
  unfold State.hopProof; grind [State.updLane_sound, State.hopKeyed_sound, State.hopFails_sound, forN_sound, foldl_sound]

@[simp] theorem State.frameDrop_sound (s : State) (n : Nat) (hk : s.Sound cq) :
    (State.frameDrop s n).Sound cq := by
  unfold State.frameDrop; simp +contextual (maxDischargeDepth := 40) [hk]

@[simp] theorem State.frameBad_sound (s : State) (n ty : Nat) (hk : s.Sound cq) :
    (State.frameBad s n ty).Sound cq := by
  unfold State.frameBad; simp +contextual (maxDischargeDepth := 40) [hk]

@[simp] theorem State.forward_sound (s : State) (n ty : Nat) (f : LinkFrame) (bad : Bool) (hk : s.Sound cq) :
    (State.forward s n ty f bad).Sound cq := by
  unfold State.forward; split <;> simp +contextual (maxDischargeDepth := 40) [hk]

@[simp] theorem State.receive_sound (s : State) (n ty : Nat) (f : LinkFrame) (act : LinkFrame → State → State) (hk : s.Sound cq) (hkact : ∀ i t, t.Sound cq → (act i t).Sound cq) :
    (State.receive s n ty f act).Sound cq := by
  unfold State.receive; grind [State.perf_sound, State.laneCounts_sound, State.frameDrop_sound, State.frameBad_sound, State.forward_sound, forN_sound, foldl_sound]

@[simp] theorem execCapFrame_sound (n : Fin 8) (f : LinkFrame) (s : State) (hk : s.Sound cq) :
    OutSound cq (execCapFrame n f s) := by
  unfold execCapFrame; grind [State.laneCounts_sound, State.capReceived_sound, State.frameBad_sound, forN_sound, foldl_sound, outSound_next, outSound_refused]

@[simp] theorem State.keepKey_sound (s : State) (ty : Nat) (f : LinkFrame) (hk : s.Sound cq) :
    (State.keepKey s ty f).Sound cq := by
  unfold State.keepKey; simp +contextual (maxDischargeDepth := 40) [hk]

@[simp] theorem State.receiveOnce_sound (s : State) (n ty : Nat) (f : LinkFrame) (act : LinkFrame → State → State) (hk : s.Sound cq) (hkact : ∀ i t, t.Sound cq → (act i t).Sound cq) :
    (State.receiveOnce s n ty f act).Sound cq := by
  unfold State.receiveOnce; simp +contextual (maxDischargeDepth := 40) [hk, hkact]

@[simp] theorem execUnknownFrameType_sound (n : Fin 8) (ty : BitVec 4) (s : State) (hk : s.Sound cq) :
    OutSound cq (execUnknownFrameType n ty s) := by
  unfold execUnknownFrameType; simp +contextual (maxDischargeDepth := 40) [hk]

@[simp] theorem State.settleLost_sound (s : State) (r : Nat) (hk : s.Sound cq) :
    (State.settleLost s r).Sound cq := by
  unfold State.settleLost; simp +contextual (maxDischargeDepth := 40) [hk]

@[simp] theorem State.ringTold_sound (s : State) (n : Nat) (f : LinkFrame) (hk : s.Sound cq) :
    (State.ringTold s n f).Sound cq := by
  unfold State.ringTold; grind [State.updLnk_sound, State.setBlocked_sound, State.settleTime_sound, State.cutKnown_sound, State.healKnown_sound, State.settleLost_sound, forN_sound, foldl_sound]

@[simp] theorem execRingFrame_sound (n : Fin 8) (f : LinkFrame) (s : State) (hk : s.Sound cq) :
    OutSound cq (execRingFrame n f s) := by
  unfold execRingFrame; simp +contextual (maxDischargeDepth := 40) [hk]

@[simp] theorem State.beatSend_sound (s : State) (hk : s.Sound cq) :
    (State.beatSend s).Sound cq := by
  unfold State.beatSend; grind [State.sendOwn_sound, forN_sound, foldl_sound]

@[simp] theorem execBeatSend_sound (s : State) (hk : s.Sound cq) :
    OutSound cq (execBeatSend s) := by
  unfold execBeatSend; simp +contextual (maxDischargeDepth := 40) [hk]

@[simp] theorem State.followEpoch_sound (s : State) (e : Nat) (hk : s.Sound cq) :
    (State.followEpoch s e).Sound cq := by
  unfold State.followEpoch; simp +contextual (maxDischargeDepth := 40) [hk]

@[simp] theorem State.relayBeat_sound (s : State) (n : Nat) (f : LinkFrame) (hk : s.Sound cq) :
    (State.relayBeat s n f).Sound cq := by
  unfold State.relayBeat; split <;> simp +contextual (maxDischargeDepth := 40) [hk]

@[simp] theorem State.beatHeard_sound (s : State) (n : Nat) (f : LinkFrame) (hk : s.Sound cq) :
    (State.beatHeard s n f).Sound cq := by
  unfold State.beatHeard; simp +contextual (maxDischargeDepth := 40) [hk]

@[simp] theorem execBeatFrame_sound (n : Fin 8) (f : LinkFrame) (s : State) (hk : s.Sound cq) :
    OutSound cq (execBeatFrame n f s) := by
  unfold execBeatFrame; simp +contextual (maxDischargeDepth := 40) [hk]

@[simp] theorem execBeatMiss_sound (n : Fin 8) (s : State) (hk : s.Sound cq) :
    OutSound cq (execBeatMiss n s) := by
  unfold execBeatMiss; simp +contextual (maxDischargeDepth := 40) [hk]

@[simp] theorem State.seenNow_sound (s : State) (hk : s.Sound cq) :
    (State.seenNow s).Sound cq := by
  unfold State.seenNow; simp +contextual (maxDischargeDepth := 40) [hk]

@[simp] theorem execManagerSilent_sound (s : State) (hk : s.Sound cq) :
    OutSound cq (execManagerSilent s) := by
  unfold execManagerSilent; simp +contextual (maxDischargeDepth := 40) [hk]

@[simp] theorem State.settleRef_sound (s : State) (hk : s.Sound cq) :
    (State.settleRef s).Sound cq := by
  unfold State.settleRef; simp +contextual (maxDischargeDepth := 40) [hk]

@[simp] theorem State.updRef_sound (s : State) (f : RefSt → RefSt) (hk : s.Sound cq) :
    (State.updRef s f).Sound cq := by
  unfold State.updRef; simp +contextual (maxDischargeDepth := 40) [hk]

@[simp] theorem State.refValid_sound (s : State) (k : Nat) (hk : s.Sound cq) :
    (State.refValid s k).Sound cq := by
  unfold State.refValid; simp +contextual (maxDischargeDepth := 40) [hk]

@[simp] theorem State.refLost_sound (s : State) (k : Nat) (hk : s.Sound cq) :
    (State.refLost s k).Sound cq := by
  unfold State.refLost; simp +contextual (maxDischargeDepth := 40) [hk]

@[simp] theorem State.refSettle_sound (s : State) (hk : s.Sound cq) :
    (State.refSettle s).Sound cq := by
  unfold State.refSettle; simp +contextual (maxDischargeDepth := 40) [hk]

@[simp] theorem execReferenceQualified_sound (src : Fin 4) (s : State) (hk : s.Sound cq) :
    OutSound cq (execReferenceQualified src s) := by
  unfold execReferenceQualified; split <;> simp +contextual (maxDischargeDepth := 40) [hk]

@[simp] theorem execReferenceInvalid_sound (src : Fin 4) (s : State) (hk : s.Sound cq) :
    OutSound cq (execReferenceInvalid src s) := by
  unfold execReferenceInvalid; simp +contextual (maxDischargeDepth := 40) [hk]

@[simp] theorem State.setOffset_sound (s : State) (ns : Int) (hk : s.Sound cq) :
    (State.setOffset s ns).Sound cq := by
  unfold State.setOffset; simp +contextual (maxDischargeDepth := 40) [hk]

@[simp] theorem execPtpMessage_sound (offset : Int) (s : State) (hk : s.Sound cq) :
    OutSound cq (execPtpMessage offset s) := by
  unfold execPtpMessage; simp +contextual (maxDischargeDepth := 40) [hk]

@[simp] theorem execSlewDone_sound (s : State) (hk : s.Sound cq) :
    OutSound cq (execSlewDone s) := by
  unfold execSlewDone; simp +contextual (maxDischargeDepth := 40) [hk]

@[simp] theorem execManagerLost_sound (s : State) (hk : s.Sound cq) :
    OutSound cq (execManagerLost s) := by
  unfold execManagerLost; simp +contextual (maxDischargeDepth := 40) [hk]

@[simp] theorem State.ampSend_sound (s : State) (t : Nat) (m : List (BitVec 8)) (hk : s.Sound cq) :
    (State.ampSend s t m).Sound cq := by
  unfold State.ampSend; simp +contextual (maxDischargeDepth := 40) [hk]

@[simp] theorem State.setTdmcap_sound (s : State) (t : Nat) (w : Word) (hk : s.Sound cq) :
    (State.setTdmcap s t w).Sound cq := by
  unfold State.setTdmcap; simp +contextual (maxDischargeDepth := 40) [hk]

@[simp] theorem State.ctlSend_sound (s : State) (t : Nat) (hk : s.Sound cq) :
    (State.ctlSend s t).Sound cq := by
  unfold State.ctlSend; simp +contextual (maxDischargeDepth := 40) [hk]

@[simp] theorem State.ampHeard_sound (s : State) (t : Nat) (m : List (BitVec 8)) (hk : s.Sound cq) :
    (State.ampHeard s t m).Sound cq := by
  unfold State.ampHeard; repeat' split
  all_goals simp +contextual (maxDischargeDepth := 40) [hk]

@[simp] theorem State.ctlTake_sound (s : State) (t : Nat) (bs : List (BitVec 8)) (hk : s.Sound cq) :
    (State.ctlTake s t bs).Sound cq := by
  unfold State.ctlTake
  (try dsimp only)
  (try rw [outSound_next])
  repeat' split
  all_goals simp +contextual (maxDischargeDepth := 40) [hk]

@[simp] theorem execCapq_sound (t : Fin 4) (s : State) (hk : s.Sound cq) :
    OutSound cq (execCapq t s) := by
  unfold execCapq; simp +contextual (maxDischargeDepth := 40) [hk]

@[simp] theorem State.ampMessage_sound (s : State) (t : Nat) (m : List (BitVec 8)) (hk : s.Sound cq) :
    (State.ampMessage s t m).Sound cq := by
  unfold State.ampMessage; simp +contextual (maxDischargeDepth := 40) [hk]

@[simp] theorem execAmpCap_sound (t : Fin 4) (bytes : List (BitVec 8)) (s : State) (hk : s.Sound cq) :
    OutSound cq (execAmpCap t bytes s) := by
  unfold execAmpCap; split <;> simp +contextual (maxDischargeDepth := 40) [hk]

@[simp] theorem execAmpAck_sound (t : Fin 4) (s : State) (hk : s.Sound cq) :
    OutSound cq (execAmpAck t s) := by
  unfold execAmpAck; simp +contextual (maxDischargeDepth := 40) [hk]

@[simp] theorem execAmpAbsent_sound (t : Fin 4) (s : State) (hk : s.Sound cq) :
    OutSound cq (execAmpAbsent t s) := by
  unfold execAmpAbsent; simp +contextual (maxDischargeDepth := 40) [hk]

@[simp] theorem State.latchRoutes_sound (s : State) (hk : s.Sound cq) :
    (State.latchRoutes s).Sound cq := by
  unfold State.latchRoutes; simp +contextual (maxDischargeDepth := 40) [hk]

@[simp] theorem State.routeGo_sound (s : State) (hk : s.Sound cq) :
    (State.routeGo s).Sound cq := by
  unfold State.routeGo; simp +contextual (maxDischargeDepth := 40) [hk]

@[simp] theorem execRtcmtGo_sound (req : Req) (s : State) (hk : s.Sound cq) :
    OutSound cq (execRtcmtGo req s) := by
  unfold execRtcmtGo; simp +contextual (maxDischargeDepth := 40) [hk]

end Sys2Proof.Machine
end

