-- ==== Sys2Proof/Laws/KeepSoundLink2.lean ====
section
/-! SUPPORT. The updates of Machine/Link2.lean keep a state sound. -/
namespace Sys2Proof.Machine

variable {cq : List Instr}

@[simp] theorem State.timeSend_sound (s : State) (n : Nat) (hk : s.Sound cq) :
    (State.timeSend s n).Sound cq := by
  unfold State.timeSend; simp +contextual (maxDischargeDepth := 40) [hk]

@[simp] theorem execTimeSend_sound (n : Fin 8) (s : State) (hk : s.Sound cq) :
    OutSound cq (execTimeSend n s) := by
  unfold execTimeSend; simp +contextual (maxDischargeDepth := 40) [hk]

@[simp] theorem State.freeRound_sound (s : State) (n : Int) (d : Nat) (hk : s.Sound cq) :
    (State.freeRound s n d).2.Sound cq := by
  unfold State.freeRound; simp +contextual (maxDischargeDepth := 40) [hk]

@[simp] theorem State.addDelay_sound (s : State) (n : Nat) (t1 t2 t3 t4 : Int) (hk : s.Sound cq) :
    (State.addDelay s n t1 t2 t3 t4).Sound cq := by
  unfold State.addDelay; simp +contextual (maxDischargeDepth := 40) [hk]

@[simp] theorem State.glkRef_sound (s : State) (rising : Bool) (hk : s.Sound cq) :
    (State.glkRef s rising).Sound cq := by
  unfold State.glkRef; simp +contextual (maxDischargeDepth := 40) [hk]

@[simp] theorem execGlkInEdge_sound (rising : Bool) (s : State) (hk : s.Sound cq) :
    OutSound cq (execGlkInEdge rising s) := by
  unfold execGlkInEdge; simp +contextual (maxDischargeDepth := 40) [hk]

@[simp] theorem State.audRegrid_sound (s : State) (hk : s.Sound cq) :
    (State.audRegrid s).Sound cq := by
  unfold State.audRegrid; simp +contextual (maxDischargeDepth := 40) [hk]

@[simp] theorem State.takeTime_sound (s : State) (t1 : Nat) (d : Int) (hk : s.Sound cq) :
    (State.takeTime s t1 d).Sound cq := by
  unfold State.takeTime; simp +contextual (maxDischargeDepth := 40) [hk]

@[simp] theorem State.timeUp_sound (s : State) (n dep hops : Nat) (late : Bool) (hk : s.Sound cq) :
    (State.timeUp s n dep hops late).Sound cq := by
  unfold State.timeUp; simp +contextual (maxDischargeDepth := 40) [hk]

@[simp] theorem State.timeReply_sound (s : State) (n : Nat) (ws : List Word) (hk : s.Sound cq) :
    (State.timeReply s n ws).Sound cq := by
  unfold State.timeReply; split <;> simp +contextual (maxDischargeDepth := 40) [hk]

@[simp] theorem State.timeHeard_sound (s : State) (n : Nat) (f : LinkFrame) (hk : s.Sound cq) :
    (State.timeHeard s n f).Sound cq := by
  unfold State.timeHeard; simp +contextual (maxDischargeDepth := 40) [hk]

@[simp] theorem execTimeFrame_sound (n : Fin 8) (f : LinkFrame) (s : State) (hk : s.Sound cq) :
    OutSound cq (execTimeFrame n f s) := by
  unfold execTimeFrame; simp +contextual (maxDischargeDepth := 40) [hk]

@[simp] theorem State.streamOnto_sound (s : State) (r : Nat) (dual : Bool) (src : BitVec 11) (sid seq : Nat) (xs : List Word) (hk : s.Sound cq) :
    (State.streamOnto s r dual src sid seq xs).Sound cq := by
  unfold State.streamOnto; repeat' split
  all_goals simp +contextual (maxDischargeDepth := 40) [hk]

@[simp] theorem State.crossIn_sound (s : State) (j i : Nat) (x : Word) (hk : s.Sound cq) :
    (State.crossIn s j i x).Sound cq := by
  unfold State.crossIn; simp +contextual (maxDischargeDepth := 40) [hk]

@[simp] theorem State.deliver_sound (s : State) (sid i : Nat) (x : Word) (hk : s.Sound cq) :
    (State.deliver s sid i x).Sound cq := by
  unfold State.deliver; simp +contextual (maxDischargeDepth := 40) [hk]

@[simp] theorem State.bridge_sound (s : State) (ring : Option Nat) (src : BitVec 11) (sid : Nat) (new : List (Nat × Word)) (hk : s.Sound cq) :
    (State.bridge s ring src sid new).Sound cq := by
  unfold State.bridge; grind [State.streamOnto_sound, forN_sound, foldl_sound]

@[simp] theorem State.streamIn_sound (s : State) (ring : Option Nat) (src : BitVec 11) (sid seq : Nat) (xs : List Word) (hk : s.Sound cq) :
    (State.streamIn s ring src sid seq xs).1.Sound cq := by
  unfold State.streamIn; simp +contextual (maxDischargeDepth := 40) [hk]

@[simp] theorem State.streamHeard_sound (s : State) (n : Nat) (f : LinkFrame) (hk : s.Sound cq) :
    (State.streamHeard s n f).Sound cq := by
  unfold State.streamHeard; simp +contextual (maxDischargeDepth := 40) [hk]

@[simp] theorem execStreamFrame_sound (n : Fin 8) (f : LinkFrame) (s : State) (hk : s.Sound cq) :
    OutSound cq (execStreamFrame n f s) := by
  unfold execStreamFrame; simp +contextual (maxDischargeDepth := 40) [hk]

@[simp] theorem State.linkOut_sound (s : State) (o k : Nat) (x : Word) (hk : s.Sound cq) :
    (State.linkOut s o k x).Sound cq := by
  unfold State.linkOut; simp +contextual (maxDischargeDepth := 40) [hk]

@[simp] theorem State.tykReceive_sound (s : State) (t : Transport) (ws : List Word) (hk : s.Sound cq) :
    (State.tykReceive s t ws).Sound cq := by
  unfold State.tykReceive; split <;> simp +contextual (maxDischargeDepth := 40) [hk]

@[simp] theorem State.ctrlHeard_sound (s : State) (n : Nat) (f : LinkFrame) (hk : s.Sound cq) :
    (State.ctrlHeard s n f).Sound cq := by
  unfold State.ctrlHeard; split <;> simp +contextual (maxDischargeDepth := 40) [hk]

@[simp] theorem execCtrlFrame_sound (n : Fin 8) (f : LinkFrame) (s : State) (hk : s.Sound cq) :
    OutSound cq (execCtrlFrame n f s) := by
  unfold execCtrlFrame; simp +contextual (maxDischargeDepth := 40) [hk]

@[simp] theorem State.setDir_sound (s : State) (d : List DirEntry) (hk : s.Sound cq) :
    (State.setDir s d).Sound cq := by
  unfold State.setDir; simp +contextual (maxDischargeDepth := 40) [hk]

@[simp] theorem State.joinKeyed_sound (s : State) (me peer : Nat) (hk : s.Sound cq) :
    (State.joinKeyed s me peer).Sound cq := by
  unfold State.joinKeyed; split <;> simp +contextual (maxDischargeDepth := 40) [hk]

@[simp] theorem State.joinAssign_sound (s : State) (n : Nat) (devid cser : Word) (pos : Nat) (hk : s.Sound cq) :
    (State.joinAssign s n devid cser pos).Sound cq := by
  unfold State.joinAssign; repeat' split
  all_goals simp +contextual (maxDischargeDepth := 40) [hk]

@[simp] theorem State.joinAsked_sound (s : State) (n : Nat) (devid cser : Word) (pos : Nat) (hk : s.Sound cq) :
    (State.joinAsked s n devid cser pos).Sound cq := by
  unfold State.joinAsked; repeat' split
  all_goals simp +contextual (maxDischargeDepth := 40) [hk]

@[simp] theorem State.e2eFails_sound (s : State) (n : Nat) (x : E2eSt) (hk : s.Sound cq) :
    (State.e2eFails s n x).Sound cq := by
  unfold State.e2eFails; simp +contextual (maxDischargeDepth := 40) [hk]

@[simp] theorem State.e2eHello_sound (s : State) (n : Nat) (x : E2eSt) (ws : List Word) (hk : s.Sound cq) :
    (State.e2eHello s n x ws).Sound cq := by
  unfold State.e2eHello; simp +contextual (maxDischargeDepth := 40) [hk]

@[simp] theorem State.e2eProof_sound (s : State) (n : Nat) (x : E2eSt) (sig : Bytes) (hk : s.Sound cq) :
    (State.e2eProof s n x sig).Sound cq := by
  unfold State.e2eProof; grind [State.updLnk_sound, State.e2eKeyed_sound, State.joinAssign_sound, State.e2eFails_sound, forN_sound, foldl_sound]

@[simp] theorem State.joinHeard_sound (s : State) (n : Nat) (f : LinkFrame) (hk : s.Sound cq) :
    (State.joinHeard s n f).Sound cq := by
  unfold State.joinHeard; repeat' split
  all_goals simp +contextual (maxDischargeDepth := 40) [hk]

@[simp] theorem execJoinFrame_sound (n : Fin 8) (f : LinkFrame) (s : State) (hk : s.Sound cq) :
    OutSound cq (execJoinFrame n f s) := by
  unfold execJoinFrame; simp +contextual (maxDischargeDepth := 40) [hk]

@[simp] theorem State.joinDone_sound (s : State) (a role stby epoch : Nat) (hk : s.Sound cq) :
    (State.joinDone s a role stby epoch).Sound cq := by
  unfold State.joinDone; simp +contextual (maxDischargeDepth := 40) [hk]

@[simp] theorem State.joinAnswerFrame_sound (s : State) (n : Nat) (f : LinkFrame) (act : LinkFrame → State → State) (hk : s.Sound cq) (hkact : ∀ i t, t.Sound cq → (act i t).Sound cq) :
    (State.joinAnswerFrame s n f act).Sound cq := by
  unfold State.joinAnswerFrame; grind [State.perf_sound, State.laneCounts_sound, State.frameBad_sound, State.receive_sound, forN_sound, foldl_sound]

@[simp] theorem execJoinAccept_sound (n : Fin 8) (f : LinkFrame) (s : State) (hk : s.Sound cq) :
    OutSound cq (execJoinAccept n f s) := by
  unfold execJoinAccept; grind [State.settleRef_sound, State.joinDone_sound, State.joinAnswerFrame_sound, forN_sound, foldl_sound, outSound_next, outSound_refused]

@[simp] theorem execJoinRefuse_sound (n : Fin 8) (f : LinkFrame) (s : State) (hk : s.Sound cq) :
    OutSound cq (execJoinRefuse n f s) := by
  unfold execJoinRefuse; simp +contextual (maxDischargeDepth := 40) [hk]

@[simp] theorem execJoinRetry_sound (s : State) (hk : s.Sound cq) :
    OutSound cq (execJoinRetry s) := by
  unfold execJoinRetry; grind [State.setBit_sound, State.joinAskOn_sound, forN_sound, foldl_sound, outSound_next, outSound_refused]

@[simp] theorem State.pixelSend_sound (s : State) (n ty : Nat) (ws : List Word) (hk : s.Sound cq) :
    (State.pixelSend s n ty ws).Sound cq := by
  unfold State.pixelSend; simp +contextual (maxDischargeDepth := 40) [hk]

@[simp] theorem State.pixelLine_sound (s : State) (n : Nat) (ws : List Word) (hk : s.Sound cq) :
    (State.pixelLine s n ws).Sound cq := by
  unfold State.pixelLine; simp +contextual (maxDischargeDepth := 40) [hk]

@[simp] theorem execRelockFrame_sound (n : Fin 8) (s : State) (hk : s.Sound cq) :
    OutSound cq (execRelockFrame n s) := by
  unfold execRelockFrame; simp +contextual (maxDischargeDepth := 40) [hk]

@[simp] theorem State.writeLink_sound (s : State) (o : Nat) (v : Word) (hk : s.Sound cq) :
    (State.writeLink s o v).Sound cq := by
  unfold State.writeLink; simp +contextual (maxDischargeDepth := 40) [hk]

end Sys2Proof.Machine
end

