-- ==== Sys2Proof/Laws/KeepSoundPlots.lean ====
section
/-! SUPPORT. The updates of Machine/Plots.lean keep a state sound. -/
namespace Sys2Proof.Machine

variable {cq : List Instr}

@[simp] theorem State.pltErr_sound (s : State) (hk : s.Sound cq) :
    (State.pltErr s).Sound cq := by
  unfold State.pltErr; simp +contextual (maxDischargeDepth := 40) [hk]

@[simp] theorem State.setPlotState_sound (s : State) (p n : Nat) (hk : s.Sound cq) :
    (State.setPlotState s p n).Sound cq := by
  unfold State.setPlotState; simp +contextual (maxDischargeDepth := 40) [hk]

@[simp] theorem State.fenceBeam_sound (s : State) (b : Nat) (hk : s.Sound cq) :
    (State.fenceBeam s b).Sound cq := by
  unfold State.fenceBeam; simp +contextual (maxDischargeDepth := 40) [hk]

@[simp] theorem State.fenceUnits_sound (s : State) (p : Nat) (hk : s.Sound cq) :
    (State.fenceUnits s p).Sound cq := by
  unfold State.fenceUnits; simp +contextual (maxDischargeDepth := 40) [hk]

@[simp] theorem State.fenceReq_sound (s : State) (p : Nat) (hk : s.Sound cq) :
    (State.fenceReq s p).Sound cq := by
  unfold State.fenceReq; simp +contextual (maxDischargeDepth := 40) [hk]

@[simp] theorem execFenceReq_sound (req : Req) (p : Fin 8) (s : State) (hk : s.Sound cq) :
    OutSound cq (execFenceReq req p s) := by
  unfold execFenceReq; simp +contextual (maxDischargeDepth := 40) [hk]

@[simp] theorem State.writeFence_sound (s : State) (v : Word) (hk : s.Sound cq) :
    (State.writeFence s v).Sound cq := by
  unfold State.writeFence; simp +contextual (maxDischargeDepth := 40) [hk]

@[simp] theorem State.fencePages_sound (s : State) (p : Nat) (hk : s.Sound cq) :
    (State.fencePages s p).Sound cq := by
  unfold State.fencePages; simp +contextual (maxDischargeDepth := 40) [hk]

@[simp] theorem State.plotFence_sound (s : State) (p : Nat) (hk : s.Sound cq) :
    (State.plotFence s p).Sound cq := by
  unfold State.plotFence; simp +contextual (maxDischargeDepth := 40) [hk]

@[simp] theorem execPlotFenced_sound (p : Fin 8) (s : State) (hk : s.Sound cq) :
    OutSound cq (execPlotFenced p s) := by
  unfold execPlotFenced; simp +contextual (maxDischargeDepth := 40) [hk]

@[simp] theorem State.plotRelease_sound (s : State) (p : Nat) (hk : s.Sound cq) :
    (State.plotRelease s p).Sound cq := by
  unfold State.plotRelease; simp +contextual (maxDischargeDepth := 40) [hk]

@[simp] theorem State.startCore_sound (s : State) (c : Nat) (pc : Word) (hk : s.Sound cq) :
    (State.startCore s c pc).Sound cq := by
  unfold State.startCore; simp +contextual (maxDischargeDepth := 40) [hk]

@[simp] theorem State.plotRestart_sound (s : State) (p : Nat) (hk : s.Sound cq) :
    (State.plotRestart s p).Sound cq := by
  unfold State.plotRestart; simp +contextual (maxDischargeDepth := 40) [hk]

@[simp] theorem State.resetCore_sound (s : State) (c : Nat) (hk : s.Sound cq) :
    (State.resetCore s c).Sound cq := by
  unfold State.resetCore; simp +contextual (maxDischargeDepth := 40) [hk]

@[simp] theorem State.resetUnits_sound (s : State) (p : Nat) (hk : s.Sound cq) : (s.resetUnits p).Sound cq := by
  unfold State.resetUnits
  extract_lets s1 s2 mine s3 s4 s5 s6 s7 s8
  have h1 : s1.Sound cq := by simp +contextual (maxDischargeDepth := 40) [s1, hk]
  have h2 : s2.Sound cq := by simp +contextual (maxDischargeDepth := 40) [s2, h1]
  have h3 : s3.Sound cq := by
    refine forN_sound _ h2 fun t u hu => ?_
    split
    · simp [hu]
    · exact hu
  have h4 : s4.Sound cq := by simp +contextual (maxDischargeDepth := 40) [s4, h3]
  have h5 : s5.Sound cq := by simp +contextual (maxDischargeDepth := 40) [s5, h4]
  have h6 : s6.Sound cq := by simp +contextual (maxDischargeDepth := 40) [s6, h5]
  have h7 : s7.Sound cq := by simp only [s7]; split <;> simp [h6]
  have h8 : s8.Sound cq := by simp only [s8]; split <;> simp [h7]
  split <;> simp [h8]

@[simp] theorem State.resetPins_sound (s : State) (p : Nat) (hk : s.Sound cq) :
    (State.resetPins s p).Sound cq := by
  unfold State.resetPins; simp +contextual (maxDischargeDepth := 40) [hk]

@[simp] theorem State.plotReset_sound (s : State) (p : Nat) (hk : s.Sound cq) :
    (State.plotReset s p).Sound cq := by
  unfold State.plotReset; simp +contextual (maxDischargeDepth := 40) [hk]

@[simp] theorem execPlotResetDone_sound (p : Fin 8) (s : State) (hk : s.Sound cq) :
    OutSound cq (execPlotResetDone p s) := by
  unfold execPlotResetDone; simp +contextual (maxDischargeDepth := 40) [hk]

@[simp] theorem State.plotCmd_sound (s : State) (p : Nat) (f : State → State) (hk : s.Sound cq) (hkf : ∀ t, t.Sound cq → (f t).Sound cq) :
    (State.plotCmd s p f).Sound cq := by
  unfold State.plotCmd; simp +contextual (maxDischargeDepth := 40) [hk, hkf]

@[simp] theorem State.writePcmd_sound (s : State) (v : Word) (hk : s.Sound cq) :
    (State.writePcmd s v).Sound cq := by
  unfold State.writePcmd; split <;> simp +contextual (maxDischargeDepth := 40) [hk]

@[simp] theorem execPlotFence_sound (req : Req) (p : Fin 8) (s : State) (hk : s.Sound cq) :
    OutSound cq (execPlotFence req p s) := by
  unfold execPlotFence; simp +contextual (maxDischargeDepth := 40) [hk]

@[simp] theorem execPlotRelease_sound (req : Req) (p : Fin 8) (s : State) (hk : s.Sound cq) :
    OutSound cq (execPlotRelease req p s) := by
  unfold execPlotRelease; simp +contextual (maxDischargeDepth := 40) [hk]

@[simp] theorem execPlotReset_sound (req : Req) (p : Fin 8) (s : State) (hk : s.Sound cq) :
    OutSound cq (execPlotReset req p s) := by
  unfold execPlotReset; simp +contextual (maxDischargeDepth := 40) [hk]

@[simp] theorem execPlotRestart_sound (req : Req) (p : Fin 8) (s : State) (hk : s.Sound cq) :
    OutSound cq (execPlotRestart req p s) := by
  unfold execPlotRestart; simp +contextual (maxDischargeDepth := 40) [hk]

@[simp] theorem State.writePt_sound (s : State) (p page : Nat) (v : Word) (hk : s.Sound cq) :
    (State.writePt s p page v).Sound cq := by
  unfold State.writePt; simp +contextual (maxDischargeDepth := 40) [hk]

@[simp] theorem execPageTableWrite_sound (req : Req) (p : Fin 8) (page : BitVec 8) (v : Word) (s : State) (hk : s.Sound cq) :
    OutSound cq (execPageTableWrite req p page v s) := by
  unfold execPageTableWrite; simp +contextual (maxDischargeDepth := 40) [hk]

@[simp] theorem State.writeBres_sound (s : State) (p : Nat) (v : Word) (hk : s.Sound cq) :
    (State.writeBres s p v).Sound cq := by
  unfold State.writeBres; simp +contextual (maxDischargeDepth := 40) [hk]

@[simp] theorem execBresWrite_sound (req : Req) (p : Fin 8) (v : Word) (s : State) (hk : s.Sound cq) :
    OutSound cq (execBresWrite req p v s) := by
  unfold execBresWrite; simp +contextual (maxDischargeDepth := 40) [hk]

@[simp] theorem State.writePlt_sound (s : State) (o : Nat) (v : Word) (hk : s.Sound cq) :
    (State.writePlt s o v).Sound cq := by
  unfold State.writePlt; simp +contextual (maxDischargeDepth := 40) [hk]

end Sys2Proof.Machine
end

