-- ==== Sys2Proof/Laws/KeepSoundPower.lean ====
section
/-! SUPPORT. The updates of Machine/Power.lean keep a state sound. -/
namespace Sys2Proof.Machine

variable {cq : List Instr}

@[simp] theorem State.pwrErr_sound (s : State) (cause d : Nat) (hk : s.Sound cq) :
    (State.pwrErr s cause d).Sound cq := by
  unfold State.pwrErr; simp +contextual (maxDischargeDepth := 40) [hk]

@[simp] theorem State.updPwr_sound (s : State) (f : PwrSt → PwrSt) (hk : s.Sound cq) :
    (State.updPwr s f).Sound cq := by
  unfold State.updPwr; simp +contextual (maxDischargeDepth := 40) [hk]

@[simp] theorem State.requestCode_sound (s : State) (c : Nat) (hk : s.Sound cq) :
    (State.requestCode s c).Sound cq := by
  unfold State.requestCode; simp +contextual (maxDischargeDepth := 40) [hk]

@[simp] theorem State.nextFrame_sound (s : State) (last : Nat) (hk : s.Sound cq) :
    (State.nextFrame s last).Sound cq := by
  unfold State.nextFrame; simp +contextual (maxDischargeDepth := 40) [hk]

@[simp] theorem State.vreqAnswer_sound (s : State) (ack : Bool) (hk : s.Sound cq) :
    (State.vreqAnswer s ack).Sound cq := by
  unfold State.vreqAnswer; split <;> simp +contextual (maxDischargeDepth := 40) [hk]

@[simp] theorem execVreqResponse_sound (ack : Bool) (s : State) (hk : s.Sound cq) :
    OutSound cq (execVreqResponse ack s) := by
  unfold execVreqResponse; simp +contextual (maxDischargeDepth := 40) [hk]

@[simp] theorem State.vloop_sound (s : State) (m : Nat) (hk : s.Sound cq) :
    (State.vloop s m).Sound cq := by
  unfold State.vloop; simp +contextual (maxDischargeDepth := 40) [hk]

@[simp] theorem State.vloopWindow_sound (s : State) (hk : s.Sound cq) :
    (State.vloopWindow s).Sound cq := by
  unfold State.vloopWindow; simp +contextual (maxDischargeDepth := 40) [hk]

@[simp] theorem execVloopWindow_sound (s : State) (hk : s.Sound cq) :
    OutSound cq (execVloopWindow s) := by
  unfold execVloopWindow; simp +contextual (maxDischargeDepth := 40) [hk]

@[simp] theorem State.thermStep_sound (s : State) (hk : s.Sound cq) :
    (State.thermStep s).Sound cq := by
  unfold State.thermStep; simp +contextual (maxDischargeDepth := 40) [hk]

@[simp] theorem execThermalLimitStep_sound (s : State) (hk : s.Sound cq) :
    OutSound cq (execThermalLimitStep s) := by
  unfold execThermalLimitStep; simp +contextual (maxDischargeDepth := 40) [hk]

@[simp] theorem State.tempRead_sound (s : State) (t : BitVec 10) (hk : s.Sound cq) :
    (State.tempRead s t).Sound cq := by
  unfold State.tempRead; simp +contextual (maxDischargeDepth := 40) [hk]

@[simp] theorem execTempRead_sound (temp : BitVec 10) (s : State) (hk : s.Sound cq) :
    OutSound cq (execTempRead temp s) := by
  unfold execTempRead; simp +contextual (maxDischargeDepth := 40) [hk]

@[simp] theorem State.dropTxns_sound (s : State) (rs : List Nat) (hk : s.Sound cq) :
    (State.dropTxns s rs).Sound cq := by
  unfold State.dropTxns; simp +contextual (maxDischargeDepth := 40) [hk]

@[simp] theorem State.loseHidden_sound (s : State) (d : Nat) (hk : s.Sound cq) :
    (State.loseHidden s d).Sound cq := by
  unfold State.loseHidden; simp +contextual (maxDischargeDepth := 40) [hk]

@[simp] theorem State.domainOff_sound (s : State) (d : Nat) (hk : s.Sound cq) :
    (State.domainOff s d).Sound cq := by
  unfold State.domainOff; simp +contextual (maxDischargeDepth := 40) [hk]

@[simp] theorem State.domainRise_sound (s : State) (d : Nat) (hk : s.Sound cq) :
    (State.domainRise s d).Sound cq := by
  unfold State.domainRise; simp +contextual (maxDischargeDepth := 40) [hk]

@[simp] theorem State.domainUp_sound (s : State) (d : Nat) (hk : s.Sound cq) :
    (State.domainUp s d).Sound cq := by
  unfold State.domainUp; simp +contextual (maxDischargeDepth := 40) [hk]

@[simp] theorem execDomainOnDone_sound (d : Fin 20) (s : State) (hk : s.Sound cq) :
    OutSound cq (execDomainOnDone d s) := by
  unfold execDomainOnDone; simp +contextual (maxDischargeDepth := 40) [hk]

@[simp] theorem State.writeDomctrl_sound (s : State) (v : Word) (hk : s.Sound cq) :
    (State.writeDomctrl s v).Sound cq := by
  unfold State.writeDomctrl; split <;> simp +contextual (maxDischargeDepth := 40) [hk]

@[simp] theorem execDomctrlWrite_sound (req : Req) (v : Word) (s : State) (hk : s.Sound cq) :
    OutSound cq (execDomctrlWrite req v s) := by
  unfold execDomctrlWrite; simp +contextual (maxDischargeDepth := 40) [hk]

@[simp] theorem State.beginSequence_sound (s : State) (t keep : Nat) (hk : s.Sound cq) :
    (State.beginSequence s t keep).Sound cq := by
  unfold State.beginSequence; simp +contextual (maxDischargeDepth := 40) [hk]

@[simp] theorem State.toFull_sound (s : State) (hk : s.Sound cq) :
    (State.toFull s).Sound cq := by
  unfold State.toFull; simp +contextual (maxDischargeDepth := 40) [hk]

@[simp] theorem State.toFallow_sound (s : State) (keep : Nat) (hk : s.Sound cq) :
    (State.toFallow s keep).Sound cq := by
  unfold State.toFallow; simp +contextual (maxDischargeDepth := 40) [hk]

@[simp] theorem State.toDormant_sound (s : State) (hk : s.Sound cq) :
    (State.toDormant s).Sound cq := by
  unfold State.toDormant; simp +contextual (maxDischargeDepth := 40) [hk]

@[simp] theorem State.stateCmd_sound (s : State) (target keep : Nat) (hk : s.Sound cq) :
    (State.stateCmd s target keep).Sound cq := by
  unfold State.stateCmd; simp +contextual (maxDischargeDepth := 40) [hk]

@[simp] theorem execStateFull_sound (req : Req) (s : State) (hk : s.Sound cq) :
    OutSound cq (execStateFull req s) := by
  unfold execStateFull; simp +contextual (maxDischargeDepth := 40) [hk]

@[simp] theorem execStateFallow_sound (req : Req) (keep : BitVec 4) (s : State) (hk : s.Sound cq) :
    OutSound cq (execStateFallow req keep s) := by
  unfold execStateFallow; simp +contextual (maxDischargeDepth := 40) [hk]

@[simp] theorem execStateDormant_sound (req : Req) (s : State) (hk : s.Sound cq) :
    OutSound cq (execStateDormant req s) := by
  unfold execStateDormant; simp +contextual (maxDischargeDepth := 40) [hk]

@[simp] theorem State.enterDormant_sound (s : State) (hk : s.Sound cq) : s.enterDormant.Sound cq := by
  unfold State.enterDormant
  extract_lets on held stat off s1 s2 s3 s4
  have h1 : s1.Sound cq := by simp [s1, hk]
  have h2 : s2.Sound cq := State.scope_sound h1 _ _ _ _ _ _ _ _ _ _ _ _ _ _ _ _ _ _ _ _ _ _ _
  have h4 : s4.Sound cq := by simp (maxDischargeDepth := 40) [s4, s3, h2]
  clear_value s4 held
  cases held <;> simp [h4]

@[simp] theorem State.sequenceDone_sound (s : State) (hk : s.Sound cq) :
    (State.sequenceDone s).Sound cq := by
  unfold State.sequenceDone; split <;> simp +contextual (maxDischargeDepth := 40) [hk]

@[simp] theorem execPowerSequenceDone_sound (s : State) (hk : s.Sound cq) :
    OutSound cq (execPowerSequenceDone s) := by
  unfold execPowerSequenceDone; simp +contextual (maxDischargeDepth := 40) [hk]

@[simp] theorem execWakeSource_sound (src : WakeSrc) (s : State) (hk : s.Sound cq) :
    OutSound cq (execWakeSource src s) := by
  unfold execWakeSource; simp +contextual (maxDischargeDepth := 40) [hk]

@[simp] theorem execWakeTimerTick_sound (s : State) (hk : s.Sound cq) :
    OutSound cq (execWakeTimerTick s) := by
  unfold execWakeTimerTick; simp +contextual (maxDischargeDepth := 40) [hk]

@[simp] theorem execRailBrownout_sound (s : State) (hk : s.Sound cq) :
    OutSound cq (execRailBrownout s) := by
  unfold execRailBrownout; simp +contextual (maxDischargeDepth := 40) [hk]

@[simp] theorem execPowerOnReset_sound (s : State) (hk : s.Sound cq) :
    OutSound cq (execPowerOnReset s) := by
  unfold execPowerOnReset; simp +contextual (maxDischargeDepth := 40) [hk]

@[simp] theorem execExternalReset_sound (s : State) (hk : s.Sound cq) :
    OutSound cq (execExternalReset s) := by
  unfold execExternalReset; simp +contextual (maxDischargeDepth := 40) [hk]

@[simp] theorem execSystemReset_sound (req : Req) (s : State) (hk : s.Sound cq) :
    OutSound cq (execSystemReset req s) := by
  unfold execSystemReset; simp +contextual (maxDischargeDepth := 40) [hk]

@[simp] theorem execPowerOnResetRelease_sound (s : State) (hk : s.Sound cq) :
    OutSound cq (execPowerOnResetRelease s) := by
  unfold execPowerOnResetRelease; simp +contextual (maxDischargeDepth := 40) [hk]

@[simp] theorem execCrystalStable_sound (s : State) (hk : s.Sound cq) :
    OutSound cq (execCrystalStable s) := by
  unfold execCrystalStable; simp +contextual (maxDischargeDepth := 40) [hk]

@[simp] theorem execStartUp_sound (s : State) (hk : s.Sound cq) :
    OutSound cq (execStartUp s) := by
  unfold execStartUp; simp +contextual (maxDischargeDepth := 40) [hk]

@[simp] theorem execWakePulse_sound (s : State) (hk : s.Sound cq) :
    OutSound cq (execWakePulse s) := by
  unfold execWakePulse; simp +contextual (maxDischargeDepth := 40) [hk]

@[simp] theorem execConnectUnderReset_sound (s : State) (hk : s.Sound cq) :
    OutSound cq (execConnectUnderReset s) := by
  unfold execConnectUnderReset; simp +contextual (maxDischargeDepth := 40) [hk]

@[simp] theorem execIgnoredPulse_sound (halfMicros : Nat) (s : State) (hk : s.Sound cq) :
    OutSound cq (execIgnoredPulse halfMicros s) := by
  unfold execIgnoredPulse; simp +contextual (maxDischargeDepth := 40) [hk]

@[simp] theorem execSessionTimeout_sound (s : State) (hk : s.Sound cq) :
    OutSound cq (execSessionTimeout s) := by
  unfold execSessionTimeout; simp +contextual (maxDischargeDepth := 40) [hk]

@[simp] theorem State.writePwr_sound (s : State) (o : Nat) (v : Word) (hk : s.Sound cq) :
    (State.writePwr s o v).Sound cq := by
  unfold State.writePwr; simp +contextual (maxDischargeDepth := 40) [hk]

end Sys2Proof.Machine
end

