-- ==== Sys2Proof/Laws/KeepSoundOverride.lean ====
section
/-! SUPPORT. The updates of Machine/Override.lean keep a state sound. -/
namespace Sys2Proof.Machine

variable {cq : List Instr}

@[simp] theorem State.updOv_sound (s : State) (n : Nat) (f : OvSt → OvSt) (hk : s.Sound cq) :
    (State.updOv s n f).Sound cq := by
  unfold State.updOv; simp +contextual (maxDischargeDepth := 40) [hk]

@[simp] theorem State.ovShow_sound (s : State) (n : Nat) (hk : s.Sound cq) :
    (State.ovShow s n).Sound cq := by
  unfold State.ovShow; simp +contextual (maxDischargeDepth := 40) [hk]

@[simp] theorem State.ovSample_sound (s : State) (n : Nat) (pa pb : Bool) (hk : s.Sound cq) :
    (State.ovSample s n pa pb).Sound cq := by
  unfold State.ovSample; simp +contextual (maxDischargeDepth := 40) [hk]

@[simp] theorem execOverrideSample_sound (pa pb : BitVec 8) (s : State) (hk : s.Sound cq) :
    OutSound cq (execOverrideSample pa pb s) := by
  unfold execOverrideSample; simp +contextual (maxDischargeDepth := 40) [hk]

@[simp] theorem State.setOvState_sound (s : State) (n st : Nat) (hk : s.Sound cq) :
    (State.setOvState s n st).Sound cq := by
  unfold State.setOvState; simp +contextual (maxDischargeDepth := 40) [hk]

@[simp] theorem State.ovActive_sound (s : State) (n : Nat) (on : Bool) (hk : s.Sound cq) :
    (State.ovActive s n on).Sound cq := by
  unfold State.ovActive; simp +contextual (maxDischargeDepth := 40) [hk]

@[simp] theorem State.ovDated_sound (s : State) (n date : Nat) (late : Bool) (hk : s.Sound cq) :
    (State.ovDated s n date late).Sound cq := by
  unfold State.ovDated; simp +contextual (maxDischargeDepth := 40) [hk]

@[simp] theorem State.ovAgree_sound (s : State) (n st : Nat) (hk : s.Sound cq) :
    (State.ovAgree s n st).Sound cq := by
  unfold State.ovAgree; simp +contextual (maxDischargeDepth := 40) [hk]

@[simp] theorem State.ovFault_sound (s : State) (n : Nat) (hk : s.Sound cq) :
    (State.ovFault s n).Sound cq := by
  unfold State.ovFault; simp +contextual (maxDischargeDepth := 40) [hk]

@[simp] theorem State.ovOwed_sound (s : State) (n : Nat) (hk : s.Sound cq) :
    (State.ovOwed s n).Sound cq := by
  unfold State.ovOwed; simp +contextual (maxDischargeDepth := 40) [hk]

@[simp] theorem State.ovEval_sound (s : State) (n : Nat) (hk : s.Sound cq) :
    (State.ovEval s n).Sound cq := by
  unfold State.ovEval; simp +contextual (maxDischargeDepth := 40) [hk]

@[simp] theorem execDiscrepancyEval_sound (s : State) (hk : s.Sound cq) :
    OutSound cq (execDiscrepancyEval s) := by
  unfold execDiscrepancyEval; simp +contextual (maxDischargeDepth := 40) [hk]

@[simp] theorem State.ovClear_sound (s : State) (n : Nat) (hk : s.Sound cq) :
    (State.ovClear s n).Sound cq := by
  unfold State.ovClear; simp +contextual (maxDischargeDepth := 40) [hk]

@[simp] theorem State.ovCapture_sound (s : State) (n : Nat) (hk : s.Sound cq) :
    (State.ovCapture s n).Sound cq := by
  unfold State.ovCapture; simp +contextual (maxDischargeDepth := 40) [hk]

@[simp] theorem execOverrideClr_sound (req : Req) (n : Fin 8) (s : State) (hk : s.Sound cq) :
    OutSound cq (execOverrideClr req n s) := by
  unfold execOverrideClr; simp +contextual (maxDischargeDepth := 40) [hk]

@[simp] theorem execOverrideCap_sound (req : Req) (n : Fin 8) (s : State) (hk : s.Sound cq) :
    OutSound cq (execOverrideCap req n s) := by
  unfold execOverrideCap; simp +contextual (maxDischargeDepth := 40) [hk]

@[simp] theorem State.writeOvCfg_sound (s : State) (n : Nat) (v : Word) (hk : s.Sound cq) :
    (State.writeOvCfg s n v).Sound cq := by
  unfold State.writeOvCfg; simp +contextual (maxDischargeDepth := 40) [hk]

@[simp] theorem State.writeSup_sound (s : State) (o : Nat) (v : Word) (hk : s.Sound cq) :
    (State.writeSup s o v).Sound cq := by
  unfold State.writeSup; simp +contextual (maxDischargeDepth := 40) [hk]

end Sys2Proof.Machine
end

