-- ==== Sys2Proof/Laws/KeepSoundWatcher.lean ====
section
/-! SUPPORT. The updates of Machine/Watcher.lean keep a state sound. -/
namespace Sys2Proof.Machine

variable {cq : List Instr}

@[simp] theorem State.updAcw_sound (s : State) (f : AcwSt → AcwSt) (hk : s.Sound cq) :
    (State.updAcw s f).Sound cq := by
  unfold State.updAcw; simp +contextual (maxDischargeDepth := 40) [hk]

@[simp] theorem State.setAcw_sound (s : State) (a : Nat) (v : Word) (hk : s.Sound cq) :
    (State.setAcw s a v).Sound cq := by
  unfold State.setAcw; simp +contextual (maxDischargeDepth := 40) [hk]

@[simp] theorem State.acwErr_sound (s : State) (cause : Nat) (hk : s.Sound cq) :
    (State.acwErr s cause).Sound cq := by
  unfold State.acwErr; simp +contextual (maxDischargeDepth := 40) [hk]

@[simp] theorem State.mirrored_sound (s : State) (o : Nat) (hk : s.Sound cq) :
    (State.mirrored s o).Sound cq := by
  unfold State.mirrored; simp +contextual (maxDischargeDepth := 40) [hk]

@[simp] theorem State.acwWant_sound (s : State) (n : Nat) (v : Bool) (hk : s.Sound cq) :
    (State.acwWant s n v).Sound cq := by
  unfold State.acwWant; simp +contextual (maxDischargeDepth := 40) [hk]

@[simp] theorem State.acwEnrol_sound (s : State) (n : Nat) (hk : s.Sound cq) :
    (State.acwEnrol s n).Sound cq := by
  unfold State.acwEnrol; simp +contextual (maxDischargeDepth := 40) [hk]

@[simp] theorem State.writeAcw_sound (s : State) (o : Nat) (v : Word) (hk : s.Sound cq) :
    (State.writeAcw s o v).Sound cq := by
  unfold State.writeAcw; grind [State.dropWrite_sound, State.plainWrite_sound, State.acwErr_sound, State.mirrored_sound, State.acwWant_sound, forN_sound, foldl_sound]

@[simp] theorem State.acwArrive_sound (s : State) (o : Nat) (hk : s.Sound cq) :
    (State.acwArrive s o).Sound cq := by
  unfold State.acwArrive; simp +contextual (maxDischargeDepth := 40) [hk]

@[simp] theorem execMirrorTransfer_sound (ofs : BitVec 16) (s : State) (hk : s.Sound cq) :
    OutSound cq (execMirrorTransfer ofs s) := by
  unfold execMirrorTransfer; simp +contextual (maxDischargeDepth := 40) [hk]

@[simp] theorem execEnrol_sound (req : Req) (n : Fin 4) (s : State) (hk : s.Sound cq) :
    OutSound cq (execEnrol req n s) := by
  unfold execEnrol; simp +contextual (maxDischargeDepth := 40) [hk]

@[simp] theorem execWatcherClockHandover_sound (s : State) (hk : s.Sound cq) :
    OutSound cq (execWatcherClockHandover s) := by
  unfold execWatcherClockHandover; simp +contextual (maxDischargeDepth := 40) [hk]

@[simp] theorem State.acwFeatures_sound (s : State) (es : List Nat) (hk : s.Sound cq) :
    (State.acwFeatures s es).1.Sound cq := by
  unfold State.acwFeatures; simp +contextual (maxDischargeDepth := 40) [hk]

@[simp] theorem State.acwMatch_sound (s : State) (n span score back : Nat) (first : Bool) (hk : s.Sound cq) :
    (State.acwMatch s n span score back first).Sound cq := by
  unfold State.acwMatch; simp +contextual (maxDischargeDepth := 40) [hk]

@[simp] theorem State.acwStore_sound (s : State) (n len : Nat) (hk : s.Sound cq) :
    (State.acwStore s n len).Sound cq := by
  unfold State.acwStore; simp +contextual (maxDischargeDepth := 40) [hk]

@[simp] theorem State.acwEnrolRun_sound (s : State) (len : Nat) (hk : s.Sound cq) :
    (State.acwEnrolRun s len).Sound cq := by
  unfold State.acwEnrolRun; simp +contextual (maxDischargeDepth := 40) [hk]

@[simp] theorem State.acwKeepFrame_sound (s : State) (bins : List Nat) (hk : s.Sound cq) : (s.acwKeepFrame bins).Sound cq := by
  unfold State.acwKeepFrame
  simp +contextual (maxDischargeDepth := 40) [hk]

@[simp] theorem State.acwFrameEnds_sound (s : State) (hk : s.Sound cq) : s.acwFrameEnds.Sound cq := by
  unfold State.acwFrameEnds
  refine foldl_sound _ ?_ (fun t a ht => by simp [ht])
  split <;> simp [hk]

@[simp] theorem execWatcherFrame_sound (mics : List (List (BitVec 16))) (s : State) (hk : s.Sound cq) :
    OutSound cq (execWatcherFrame mics s) := by
  unfold execWatcherFrame
  rw [outSound_next]
  split
  · exact hk
  · extract_lets xs bins s1 c s2 s3
    refine State.acwFrameEnds_sound _ (State.acwKeepFrame_sound _ _ ?_)
    have h1 : s1.Sound cq := State.updAcw_sound _ _ hk
    clear_value s1 c
    have h2 : s2.Sound cq := State.setAcw_sound _ _ _ h1
    clear_value s2
    simp only [s3]
    split <;> simp [h2]

end Sys2Proof.Machine
end

