-- ==== Sys2Proof/Laws/KeepSoundBus.lean ====
section
/-! SUPPORT. The updates of Machine/Bus.lean keep a state sound. -/
namespace Sys2Proof.Machine

variable {cq : List Instr}

@[simp] theorem State.readReg_sound (s : State) (r w o : Nat) (hk : s.Sound cq) :
    (State.readReg s r w o).1.Sound cq := by
  unfold State.readReg; grind [State.semAcquire_sound, State.declareAll_sound, State.readUcdata_sound, State.readRdata_sound, State.readSample_sound, State.glnUserErr_sound, State.seenNow_sound, forN_sound, foldl_sound]

@[simp] theorem State.writeIrq_sound (s : State) (r o : Nat) (v : Word) (hk : s.Sound cq) :
    (State.writeIrq s r o v).Sound cq := by
  unfold State.writeIrq; simp +contextual (maxDischargeDepth := 40) [hk]

@[simp] theorem State.writeTin_sound (s : State) (o : Nat) (v : Word) (hk : s.Sound cq) :
    (State.writeTin s o v).Sound cq := by
  unfold State.writeTin; simp +contextual (maxDischargeDepth := 40) [hk]

@[simp] theorem State.writeTmr_sound (s : State) (o : Nat) (v : Word) (hk : s.Sound cq) :
    (State.writeTmr s o v).Sound cq := by
  unfold State.writeTmr; simp +contextual (maxDischargeDepth := 40) [hk]

@[simp] theorem State.writeDrl_sound (s : State) (o : Nat) (v : Word) (hk : s.Sound cq) :
    (State.writeDrl s o v).Sound cq := by
  unfold State.writeDrl; simp +contextual (maxDischargeDepth := 40) [hk]

@[simp] theorem State.writeSec_sound (s : State) (o : Nat) (v : Word) (hk : s.Sound cq) :
    (State.writeSec s o v).Sound cq := by
  unfold State.writeSec; simp +contextual (maxDischargeDepth := 40) [hk]

@[simp] theorem State.writeGrn_sound (s : State) (o : Nat) (v : Word) (hk : s.Sound cq) :
    (State.writeGrn s o v).Sound cq := by
  unfold State.writeGrn; simp +contextual (maxDischargeDepth := 40) [hk]

@[simp] theorem State.writeGpo_sound (s : State) (r o : Nat) (v : Word) (hk : s.Sound cq) :
    (State.writeGpo s r o v).Sound cq := by
  unfold State.writeGpo; simp +contextual (maxDischargeDepth := 40) [hk]

@[simp] theorem State.writeFab_sound (s : State) (r o : Nat) (v : Word) (hk : s.Sound cq) :
    (State.writeFab s r o v).1.Sound cq := by
  unfold State.writeFab; simp +contextual (maxDischargeDepth := 40) [hk]

@[simp] theorem State.writeReg_sound (s : State) (r w o : Nat) (v : Word) (hk : s.Sound cq) :
    (State.writeReg s r w o v).1.Sound cq := by
  unfold State.writeReg; repeat' split
  all_goals simp +contextual (maxDischargeDepth := 40) [hk]

@[simp] theorem State.readOpen_sound (s : State) (r a : Nat) (hk : s.Sound cq) :
    (State.readOpen s r a).1.Sound cq := by
  unfold State.readOpen; split <;> simp +contextual (maxDischargeDepth := 40) [hk]

@[simp] theorem State.writeOpen_sound (s : State) (r a : Nat) (v : Word) (hk : s.Sound cq) :
    (State.writeOpen s r a v).1.Sound cq := by
  unfold State.writeOpen; split <;> simp +contextual (maxDischargeDepth := 40) [hk]

@[simp] theorem State.txnRead_sound (s : State) (r p a : Nat) (hk : s.Sound cq) :
    (State.txnRead s r p a).1.Sound cq := by
  unfold State.txnRead; split <;> simp +contextual (maxDischargeDepth := 40) [hk]

@[simp] theorem State.txnWrite_sound (s : State) (r p a : Nat) (v : Word) (hk : s.Sound cq) :
    (State.txnWrite s r p a v).1.Sound cq := by
  unfold State.txnWrite; split <;> simp +contextual (maxDischargeDepth := 40) [hk]

@[simp] theorem State.txnReads_sound (s : State) (r p a n : Nat) (hk : s.Sound cq) : (s.txnReads r p a n).1.Sound cq := by
  induction n with
  | zero => exact hk
  | succ n ih =>
    unfold State.txnReads
    exact State.txnRead_sound _ _ _ _ ih

@[simp] theorem State.txnWrites_sound (s : State) (r p a : Nat) (ws : List Word) (hk : s.Sound cq) :
    (State.txnWrites s r p a ws).1.Sound cq := by
  unfold State.txnWrites; simp +contextual (maxDischargeDepth := 40) [hk]

@[simp] theorem State.setResult_sound (s : State) (t : Nat) (x : List Word × BusResp) (hk : s.Sound cq) :
    (State.setResult s t x).Sound cq := by
  unfold State.setResult; simp +contextual (maxDischargeDepth := 40) [hk]

@[simp] theorem State.perform_sound (s : State) (x : Txn) (hk : s.Sound cq) : (s.perform x).Sound cq := by
  unfold State.perform
  split
  · dsimp only
    simp [State.txnReads_sound _ _ _ _ _ hk]
  · dsimp only
    simp [hk]

@[simp] theorem State.serveLine_sound (s : State) (ln : Nat) (hk : s.Sound cq) :
    (State.serveLine s ln).Sound cq := by
  unfold State.serveLine; simp +contextual (maxDischargeDepth := 40) [hk]

@[simp] theorem State.serveAt_sound (s : State) (a : Nat) (hk : s.Sound cq) :
    (State.serveAt s a).Sound cq := by
  unfold State.serveAt; simp +contextual (maxDischargeDepth := 40) [hk]

@[simp] theorem State.busRead_sound (s : State) (r p a : Nat) (hk : s.Sound cq) :
    (State.busRead s r p a).1.Sound cq := by
  unfold State.busRead; split <;> simp +contextual (maxDischargeDepth := 40) [hk]

@[simp] theorem State.busWrite_sound (s : State) (r p a : Nat) (v : Word) (hk : s.Sound cq) :
    (State.busWrite s r p a v).1.Sound cq := by
  unfold State.busWrite; split <;> simp +contextual (maxDischargeDepth := 40) [hk]

@[simp] theorem State.busReads_sound (s : State) (r p a n : Nat) (hk : s.Sound cq) : (s.busReads r p a n).1.Sound cq := by
  induction n with
  | zero => exact hk
  | succ n ih =>
    unfold State.busReads
    exact State.busRead_sound _ _ _ _ ih

@[simp] theorem State.busWrites_sound (s : State) (r p a : Nat) (ws : List Word) (hk : s.Sound cq) :
    (State.busWrites s r p a ws).1.Sound cq := by
  unfold State.busWrites; simp +contextual (maxDischargeDepth := 40) [hk]

@[simp] theorem State.reqWrite_sound (s : State) (r a : Nat) (v : Word) (hk : s.Sound cq) :
    (State.reqWrite s r a v).Sound cq := by
  unfold State.reqWrite; simp +contextual (maxDischargeDepth := 40) [hk]

@[simp] theorem execRegisterWrite_sound (req : Req) (a : Addr) (v : Word) (s : State) (hk : s.Sound cq) :
    OutSound cq (execRegisterWrite req a v s) := by
  unfold execRegisterWrite; simp +contextual (maxDischargeDepth := 40) [hk]

end Sys2Proof.Machine
end

