-- ==== Sys2Proof/Laws/KeepSoundVoices.lean ====
section
/-! SUPPORT. The updates of Machine/Voices.lean keep a state sound. -/
namespace Sys2Proof.Machine

variable {cq : List Instr}

@[simp] theorem State.voiceSrc_sound (s : State) (v i : Nat) (hk : s.Sound cq) :
    (State.voiceSrc s v i).1.Sound cq := by
  unfold State.voiceSrc; grind [State.audErr_sound, State.updVoice_sound, forN_sound, foldl_sound]

@[simp] theorem State.between_sound (s : State) (a b : Int) (f : Nat) (hk : s.Sound cq) :
    (State.between s a b f).2.Sound cq := by
  unfold State.between; simp +contextual (maxDischargeDepth := 40) [hk]

@[simp] theorem State.sourceOut_sound (s : State) (v : Nat) (hk : s.Sound cq) :
    (State.sourceOut s v).1.Sound cq := by
  unfold State.sourceOut; grind [State.useFree_sound, State.voiceSrc_sound, State.between_sound, forN_sound, foldl_sound]

@[simp] theorem State.sourceStep_sound (s : State) (v : Nat) (hk : s.Sound cq) :
    (State.sourceStep s v).Sound cq := by
  unfold State.sourceStep; simp +contextual (maxDischargeDepth := 40) [hk]

@[simp] theorem State.toneOut_sound (s : State) (v : Nat) (hk : s.Sound cq) :
    (State.toneOut s v).2.Sound cq := by
  unfold State.toneOut; simp +contextual (maxDischargeDepth := 40) [hk]

@[simp] theorem State.toneStep_sound (s : State) (v : Nat) (hk : s.Sound cq) :
    (State.toneStep s v).Sound cq := by
  unfold State.toneStep; simp +contextual (maxDischargeDepth := 40) [hk]

@[simp] theorem State.voiceEnd_sound (s : State) (v : Nat) (hk : s.Sound cq) :
    (State.voiceEnd s v).Sound cq := by
  unfold State.voiceEnd; simp +contextual (maxDischargeDepth := 40) [hk]

@[simp] theorem State.voiceBegin_sound (s : State) (v : Nat) (hk : s.Sound cq) :
    (State.voiceBegin s v).Sound cq := by
  unfold State.voiceBegin; grind [State.setReg_sound, State.latch_sound, State.setBit_sound, State.useFree_sound, State.audErr_sound, State.updVoice_sound, State.setVoiceState_sound, forN_sound, foldl_sound]

@[simp] theorem State.voiceSample_sound (s : State) (k v : Nat) (hk : s.Sound cq) : (s.voiceSample k v).1.Sound cq := by
  unfold State.voiceSample
  split
  · exact hk
  · extract_lets x s1 due s2 s3
    have h1 : s1.Sound cq := by simp [s1, hk]
    have h2 : s2.Sound cq := by simp [s2, h1]
    have h3 : s3.Sound cq := by simp [s3, h2]
    clear_value s3
    split
    · exact h3
    · split
      · have h4 := State.sourceOut_sound s3 v h3
        revert h4
        generalize s3.sourceOut v = r
        obtain ⟨t, o⟩ := r
        intro h4
        cases o <;> simp (maxDischargeDepth := 40) [h4]
      · simp [h3]

@[simp] theorem State.voiceFetch_sound (s : State) (v a : Nat) (r : BusResp) (hk : s.Sound cq) : (s.voiceFetch v a r).Sound cq := by
  unfold State.voiceFetch
  split
  · exact hk
  · simp (maxDischargeDepth := 40) [hk, State.busReads_sound, -List.reduceReplicate]

@[simp] theorem execVoiceFetchResponse_sound (v : BitVec 6) (a : BitVec 29) (r : BusResp) (s : State) (hk : s.Sound cq) :
    OutSound cq (execVoiceFetchResponse v a r s) := by
  unfold execVoiceFetchResponse; simp +contextual (maxDischargeDepth := 40) [hk]

end Sys2Proof.Machine
end

