-- ==== Sys2Proof/Laws/KeepSoundAudioEngine.lean ====
section
/-! SUPPORT. The updates of Machine/AudioEngine.lean keep a state sound. -/
namespace Sys2Proof.Machine

variable {cq : List Instr}

@[simp] theorem State.shfRead_sound (s : State) (p : Nat) (hk : s.Sound cq) :
    (State.shfRead s p).1.Sound cq := by
  unfold State.shfRead; grind [State.busReads_sound, forN_sound, foldl_sound]

@[simp] theorem State.shfLoaded_sound (s : State) (p : Nat) (hk : s.Sound cq) :
    (State.shfLoaded s p).Sound cq := by
  unfold State.shfLoaded; repeat' split
  all_goals grind [State.setBit_sound, State.audErr_sound, State.setShfState_sound, State.setSheaf_sound, State.shfRead_sound, forN_sound, foldl_sound]

@[simp] theorem execSheafLoaded_sound (p : Fin 8) (s : State) (hk : s.Sound cq) :
    OutSound cq (execSheafLoaded p s) := by
  unfold execSheafLoaded; simp +contextual (maxDischargeDepth := 40) [hk]

@[simp] theorem State.shfEntry_sound (s : State) (o : Nat) (zc : Bool) (v : Word) (hk : s.Sound cq) :
    (State.shfEntry s o zc v).Sound cq := by
  unfold State.shfEntry; simp +contextual (maxDischargeDepth := 40) [hk]

@[simp] theorem State.shfPhase_sound (s : State) (p left : Nat) (hk : s.Sound cq) : (s.shfPhase p left).1.Sound cq := by
  unfold State.shfPhase
  dsimp only
  split
  · exact hk
  · split
    · simp (maxDischargeDepth := 40) [hk]
    · split <;> simp +contextual (maxDischargeDepth := 40) [hk]

@[simp] theorem State.shfSlot_sound (s : State) (k p left : Nat) (hk : s.Sound cq) :
    (State.shfSlot s k p left).1.Sound cq := by
  unfold State.shfSlot; simp +contextual (maxDischargeDepth := 40) [hk]

@[simp] theorem State.shfBoundary_sound (s : State) (k : Nat) (hk : s.Sound cq) :
    (State.shfBoundary s k).Sound cq := by
  unfold State.shfBoundary; simp +contextual (maxDischargeDepth := 40) [hk]

@[simp] theorem State.audLatch_sound (s : State) (hk : s.Sound cq) :
    (State.audLatch s).Sound cq := by
  unfold State.audLatch; simp +contextual (maxDischargeDepth := 40) [hk]

@[simp] theorem State.tdmIn_sound (s : State) (t n : Nat) (hk : s.Sound cq) :
    (State.tdmIn s t n).1.Sound cq := by
  unfold State.tdmIn; simp +contextual (maxDischargeDepth := 40) [hk]

@[simp] theorem State.linkIn_sound (s : State) (j n : Nat) (hk : s.Sound cq) :
    (State.linkIn s j n).1.Sound cq := by
  unfold State.linkIn; grind [State.perf_sound, State.audCount_sound, State.updAud_sound, forN_sound, foldl_sound]

@[simp] theorem gather_sound {α : Type} (n : Nat) (f : State → Nat → State × α) (s : State) (hk : s.Sound cq)
    (hf : ∀ t i, t.Sound cq → (f t i).1.Sound cq) : (gather n f s).1.Sound cq := by
  unfold gather
  exact foldl_fst_sound _ _ hk (fun x a hx => hf x.1 a hx)

@[simp] theorem State.audInputs_sound (s : State) (k : Nat) (pdm : List Word) (hk : s.Sound cq) :
    (State.audInputs s k pdm).1.Sound cq := by
  unfold State.audInputs; simp +contextual (maxDischargeDepth := 40) [hk]

@[simp] theorem State.nodesStep_sound (s : State) (xs : List Int) (hk : s.Sound cq) :
    (State.nodesStep s xs).Sound cq := by
  unfold State.nodesStep; grind [State.perf_sound, State.endNode_sound, forN_sound, foldl_sound]

@[simp] theorem State.clips_sound (s : State) (n : Nat) (hk : s.Sound cq) :
    (State.clips s n).Sound cq := by
  unfold State.clips; simp +contextual (maxDischargeDepth := 40) [hk]

@[simp] theorem State.sat_sound (s : State) (x : Int) (hk : s.Sound cq) :
    (State.sat s x).1.Sound cq := by
  unfold State.sat; simp +contextual (maxDischargeDepth := 40) [hk]

@[simp] theorem State.trimOut_sound (s : State) (o : Nat) (x : Int) (hk : s.Sound cq) :
    (State.trimOut s o x).1.Sound cq := by
  unfold State.trimOut; split <;> simp +contextual (maxDischargeDepth := 40) [hk]

@[simp] theorem State.trimsStep_sound (s : State) (hk : s.Sound cq) :
    (State.trimsStep s).Sound cq := by
  unfold State.trimsStep; simp +contextual (maxDischargeDepth := 40) [hk]

@[simp] theorem State.ringRead_sound (s : State) (o k d : Nat) (hk : s.Sound cq) :
    (State.ringRead s o k d).1.Sound cq := by
  unfold State.ringRead; simp +contextual (maxDischargeDepth := 40) [hk]

@[simp] theorem State.fadeAt_sound (s : State) (a b : Int) (n : Nat) (hk : s.Sound cq) :
    (State.fadeAt s a b n).2.Sound cq := by
  unfold State.fadeAt; simp +contextual (maxDischargeDepth := 40) [hk]

@[simp] theorem State.delayOut_sound (s : State) (o k : Nat) (x : Int) (hk : s.Sound cq) : (s.delayOut o k x).1.Sound cq := by
  unfold State.delayOut
  extract_lets on s1 c want tap tap2 next next2 s2 tapped
  have h1 : s1.Sound cq := by
    simp (maxDischargeDepth := 40) [s1, hk]
  have h2 : s2.Sound cq := by simp [s2, h1]
  have ht : ∀ u d, u.Sound cq → (tapped u d).1.Sound cq := by
    intro u d hu
    simp only [tapped]
    split <;> simp [hu]
  clear_value tapped s2
  simp (maxDischargeDepth := 40) [ht, h2]

@[simp] theorem State.pilotOut_sound (s : State) (o k : Nat) (x : Int) (hk : s.Sound cq) :
    (State.pilotOut s o k x).1.Sound cq := by
  unfold State.pilotOut; split <;> simp +contextual (maxDischargeDepth := 40) [hk]

@[simp] theorem State.outputOf_sound (s : State) (k : Nat) (gs : List (Nat × Nat × Nat)) (xs : List Int) (o : Nat) (hk : s.Sound cq) :
    (State.outputOf s k gs xs o).1.Sound cq := by
  unfold State.outputOf; simp +contextual (maxDischargeDepth := 40) [hk]

@[simp] theorem State.recordBus_sound (s : State) (r : Nat) (x : Int) (hk : s.Sound cq) :
    (State.recordBus s r x).Sound cq := by
  unfold State.recordBus; simp +contextual (maxDischargeDepth := 40) [hk]

@[simp] theorem State.outputsGo_sound (s : State) (k : Nat) (ys : List Int) (hk : s.Sound cq) :
    (State.outputsGo s k ys).Sound cq := by
  unfold State.outputsGo; simp +contextual (maxDischargeDepth := 40) [hk]

@[simp] theorem State.ambTake_sound (s : State) (l : Nat) (xs ys : List Int) (hk : s.Sound cq) :
    (State.ambTake s l xs ys).Sound cq := by
  unfold State.ambTake; simp +contextual (maxDischargeDepth := 40) [hk]

@[simp] theorem State.audCompute_sound (s : State) (k : Nat) (pdm sns : List Word) (hk : s.Sound cq) :
    (State.audCompute s k pdm sns).Sound cq := by
  unfold State.audCompute; simp +contextual (maxDischargeDepth := 40) [hk]

@[simp] theorem execAudioIndexCompute_sound (pdm sns : List Word) (s : State) (hk : s.Sound cq) :
    OutSound cq (execAudioIndexCompute pdm sns s) := by
  unfold execAudioIndexCompute; split <;> simp +contextual (maxDischargeDepth := 40) [hk]

@[simp] theorem State.slotIn_sound (s : State) (t i : Nat) (w : Word) (hk : s.Sound cq) :
    (State.slotIn s t i w).1.Sound cq := by
  unfold State.slotIn; simp +contextual (maxDischargeDepth := 40) [hk]

@[simp] theorem State.tdmExchange_sound (s : State) (t : Nat) (slots : List (BitVec 32)) (hk : s.Sound cq) :
    (State.tdmExchange s t slots).Sound cq := by
  unfold State.tdmExchange; simp +contextual (maxDischargeDepth := 40) [hk]

@[simp] theorem State.tdmFrame_sound (s : State) (t : Nat) (slots : List (BitVec 32)) (hk : s.Sound cq) :
    (State.tdmFrame s t slots).Sound cq := by
  unfold State.tdmFrame; simp +contextual (maxDischargeDepth := 40) [hk]

@[simp] theorem execTdmFrame_sound (t : Fin 4) (slots : List (BitVec 32)) (s : State) (hk : s.Sound cq) :
    OutSound cq (execTdmFrame t slots s) := by
  unfold execTdmFrame; simp +contextual (maxDischargeDepth := 40) [hk]

@[simp] theorem State.ambUpdate_sound (s : State) (l : Nat) (hk : s.Sound cq) : (s.ambUpdate l).Sound cq := by
  unfold State.ambUpdate
  extract_lets a c m s1
  split
  · exact hk
  · have h1 : s1.Sound cq := by simp [s1, hk]
    clear_value s1
    split
    · simp [h1]
    · have h2 := State.levelOf_sound s1 m.pow (2 ^ 45 * m.q) h1
      revert h2
      generalize s1.levelOf m.pow (2 ^ 45 * m.q) = r
      obtain ⟨level, t⟩ := r
      intro h2
      dsimp only at h2 ⊢
      repeat' split
      all_goals simp (maxDischargeDepth := 40) [h2]

@[simp] theorem execAmbientUpdate_sound (l : Fin 4) (s : State) (hk : s.Sound cq) :
    OutSound cq (execAmbientUpdate l s) := by
  unfold execAmbientUpdate; simp +contextual (maxDischargeDepth := 40) [hk]

end Sys2Proof.Machine
end

