-- ==== Sys2Proof/Laws/KeepSoundFurrow.lean ====
section
/-! SUPPORT. The updates of Machine/Furrow.lean keep a state sound. -/
namespace Sys2Proof.Machine

variable {cq : List Instr}

@[simp] theorem State.furErr_sound (s : State) (b cause ofs : Nat) (hk : s.Sound cq) :
    (State.furErr s b cause ofs).Sound cq := by
  unfold State.furErr; simp +contextual (maxDischargeDepth := 40) [hk]

@[simp] theorem State.furLate_sound (s : State) (b : Nat) (hk : s.Sound cq) :
    (State.furLate s b).Sound cq := by
  unfold State.furLate; simp +contextual (maxDischargeDepth := 40) [hk]

@[simp] theorem State.setLoop_sound (s : State) (b : Nat) (l : Option (Nat × Nat)) (hk : s.Sound cq) :
    (State.setLoop s b l).Sound cq := by
  unfold State.setLoop; simp +contextual (maxDischargeDepth := 40) [hk]

@[simp] theorem State.furLoad_sound (s : State) (b : Nat) (r : BusResp) (hk : s.Sound cq) : (s.furLoad b r).Sound cq := by
  unfold State.furLoad
  extract_lets f base p
  generalize hx : List.foldl _ _ _ = x
  have h : x.2.Sound cq := by
    rw [← hx]
    refine foldl_snd_sound _ _ hk (fun x k hx => ?_)
    obtain ⟨ws, t⟩ := x
    dsimp only at hx ⊢
    split
    · exact hx
    · split <;> simp [hx]
  obtain ⟨ws, t⟩ := x
  exact State.updFur_sound _ _ _ h

@[simp] theorem State.furWindow_sound (s : State) (b p : Nat) (hk : s.Sound cq) :
    (State.furWindow s b p).Sound cq := by
  unfold State.furWindow; simp +contextual (maxDischargeDepth := 40) [hk]

@[simp] theorem State.furGo_sound (s : State) (b : Nat) (hk : s.Sound cq) :
    (State.furGo s b).Sound cq := by
  unfold State.furGo; simp +contextual (maxDischargeDepth := 40) [hk]

@[simp] theorem State.furBegin_sound (s : State) (b m : Nat) (hk : s.Sound cq) :
    (State.furBegin s b m).Sound cq := by
  unfold State.furBegin; simp +contextual (maxDischargeDepth := 40) [hk]

@[simp] theorem State.furPickFrom_sound (s : State) (b : Nat) (ms : List Nat) (hk : s.Sound cq) : (s.furPickFrom b ms).Sound cq := by
  induction ms with
  | nil => simp [State.furPickFrom, hk]
  | cons m ms ih =>
    unfold State.furPickFrom
    split
    · exact ih
    · simp [hk]

@[simp] theorem State.furPick_sound (s : State) (b : Nat) (hk : s.Sound cq) : (s.furPick b).Sound cq := by
  unfold State.furPick; simp [hk]

@[simp] theorem State.furComing_sound (s : State) (b : Nat) (ms : List Nat) (hk : s.Sound cq) :
    (State.furComing s b ms).Sound cq := by
  unfold State.furComing; simp +contextual (maxDischargeDepth := 40) [hk]

@[simp] theorem State.furDeadline_sound (s : State) (b m : Nat) (hk : s.Sound cq) :
    (State.furDeadline s b m).Sound cq := by
  unfold State.furDeadline; simp +contextual (maxDischargeDepth := 40) [hk]

@[simp] theorem State.furShowLine_sound (s : State) (b : Nat) (hk : s.Sound cq) :
    (State.furShowLine s b).Sound cq := by
  unfold State.furShowLine; split <;> simp +contextual (maxDischargeDepth := 40) [hk]

@[simp] theorem State.furCut_sound (s : State) (b : Nat) (hk : s.Sound cq) :
    (State.furCut s b).Sound cq := by
  unfold State.furCut; simp +contextual (maxDischargeDepth := 40) [hk]

@[simp] theorem State.furHaltNow_sound (s : State) (b : Nat) (hk : s.Sound cq) :
    (State.furHaltNow s b).Sound cq := by
  unfold State.furHaltNow; simp +contextual (maxDischargeDepth := 40) [hk]

@[simp] theorem State.furEnd_sound (s : State) (b next : Nat) (hk : s.Sound cq) :
    (State.furEnd s b next).Sound cq := by
  unfold State.furEnd; simp +contextual (maxDischargeDepth := 40) [hk]

@[simp] theorem State.furLimit_sound (s : State) (b cause ofs : Nat) (hk : s.Sound cq) :
    (State.furLimit s b cause ofs).Sound cq := by
  unfold State.furLimit; simp +contextual (maxDischargeDepth := 40) [hk]

@[simp] theorem State.furAdvance_sound (s : State) (b n : Nat) (hk : s.Sound cq) :
    (State.furAdvance s b n).Sound cq := by
  unfold State.furAdvance; simp +contextual (maxDischargeDepth := 40) [hk]

@[simp] theorem State.furOp_sound (s : State) (b : Nat) (i : FurIns) (n : Nat) (act : Nat → State → State) (hk : s.Sound cq) (hkact : ∀ i t, t.Sound cq → (act i t).Sound cq) :
    (State.furOp s b i n act).Sound cq := by
  unfold State.furOp; simp +contextual (maxDischargeDepth := 40) [hk, hkact]

@[simp] theorem State.furWrite_sound (s : State) (b at0 ofs : Nat) (op : FurOp) (hk : s.Sound cq) :
    (State.furWrite s b at0 ofs op).Sound cq := by
  unfold State.furWrite; split <;> simp +contextual (maxDischargeDepth := 40) [hk]

@[simp] theorem execFurrowWr_sound (b : BeamIx) (ofs : BitVec 16) (v : Word) (s : State) (hk : s.Sound cq) :
    OutSound cq (execFurrowWr b ofs v s) := by
  unfold execFurrowWr; simp +contextual (maxDischargeDepth := 40) [hk]

@[simp] theorem execFurrowWrf_sound (b : BeamIx) (ofs : BitVec 16) (mask v : Word) (s : State) (hk : s.Sound cq) :
    OutSound cq (execFurrowWrf b ofs mask v s) := by
  unfold execFurrowWrf; simp +contextual (maxDischargeDepth := 40) [hk]

@[simp] theorem execFurrowAdd_sound (b : BeamIx) (ofs : BitVec 16) (delta : Word) (s : State) (hk : s.Sound cq) :
    OutSound cq (execFurrowAdd b ofs delta s) := by
  unfold execFurrowAdd; simp +contextual (maxDischargeDepth := 40) [hk]

@[simp] theorem State.furMany_sound (s : State) (b at0 o : Nat) (vs : List Word) (hk : s.Sound cq) : (s.furMany b at0 o vs).Sound cq := by
  induction vs generalizing s o with
  | nil => exact hk
  | cons v vs ih =>
    unfold State.furMany
    split
    · exact hk
    · split
      · simp [hk]
      · exact ih _ _ (by simp [hk])

@[simp] theorem execFurrowWrn_sound (b : BeamIx) (ofs : BitVec 16) (vs : List Word) (s : State) (hk : s.Sound cq) :
    OutSound cq (execFurrowWrn b ofs vs s) := by
  unfold execFurrowWrn; simp +contextual (maxDischargeDepth := 40) [hk]

@[simp] theorem execFurrowEnd_sound (b : BeamIx) (skip : BitVec 20) (s : State) (hk : s.Sound cq) :
    OutSound cq (execFurrowEnd b skip s) := by
  unfold execFurrowEnd; simp +contextual (maxDischargeDepth := 40) [hk]

@[simp] theorem execFurrowWaitl_sound (b : BeamIx) (line : BitVec 13) (s : State) (hk : s.Sound cq) :
    OutSound cq (execFurrowWaitl b line s) := by
  unfold execFurrowWaitl; simp +contextual (maxDischargeDepth := 40) [hk]

@[simp] theorem execFurrowHalt_sound (b : BeamIx) (s : State) (hk : s.Sound cq) :
    OutSound cq (execFurrowHalt b s) := by
  unfold execFurrowHalt; simp +contextual (maxDischargeDepth := 40) [hk]

@[simp] theorem execFurrowReservedOpcode_sound (b : BeamIx) (op : BitVec 4) (s : State) (hk : s.Sound cq) :
    OutSound cq (execFurrowReservedOpcode b op s) := by
  unfold execFurrowReservedOpcode; simp +contextual (maxDischargeDepth := 40) [hk]

@[simp] theorem State.furJump_sound (s : State) (b t : Nat) (hk : s.Sound cq) :
    (State.furJump s b t).Sound cq := by
  unfold State.furJump; simp +contextual (maxDischargeDepth := 40) [hk]

@[simp] theorem execFurrowJmp_sound (b : BeamIx) (target : BitVec 20) (s : State) (hk : s.Sound cq) :
    OutSound cq (execFurrowJmp b target s) := by
  unfold execFurrowJmp; simp +contextual (maxDischargeDepth := 40) [hk]

@[simp] theorem State.furLoop_sound (s : State) (b at0 count target : Nat) (hk : s.Sound cq) :
    (State.furLoop s b at0 count target).Sound cq := by
  unfold State.furLoop; split <;> simp +contextual (maxDischargeDepth := 40) [hk]

@[simp] theorem execFurrowLoop_sound (b : BeamIx) (count : BitVec 12) (target : BitVec 20) (s : State) (hk : s.Sound cq) :
    OutSound cq (execFurrowLoop b count target s) := by
  unfold execFurrowLoop; simp +contextual (maxDischargeDepth := 40) [hk]

@[simp] theorem execFurrowPub_sound (b : BeamIx) (tine : Tine) (s : State) (hk : s.Sound cq) :
    OutSound cq (execFurrowPub b tine s) := by
  unfold execFurrowPub; simp +contextual (maxDischargeDepth := 40) [hk]

@[simp] theorem execFurrowSkipev_sound (b : BeamIx) (k : Fin 4) (s : State) (hk : s.Sound cq) :
    OutSound cq (execFurrowSkipev b k s) := by
  unfold execFurrowSkipev; simp +contextual (maxDischargeDepth := 40) [hk]

@[simp] theorem execFurrowFetchResponse_sound (b : BeamIx) (r : BusResp) (s : State) (hk : s.Sound cq) :
    OutSound cq (execFurrowFetchResponse b r s) := by
  unfold execFurrowFetchResponse; simp +contextual (maxDischargeDepth := 40) [hk]

@[simp] theorem State.furTineEvent_sound (s : State) (t : Nat) (hk : s.Sound cq) :
    (State.furTineEvent s t).Sound cq := by
  unfold State.furTineEvent; simp +contextual (maxDischargeDepth := 40) [hk]

@[simp] theorem State.flatDirty_sound (s : State) (b : Nat) (hk : s.Sound cq) :
    (State.flatDirty s b).Sound cq := by
  unfold State.flatDirty; simp +contextual (maxDischargeDepth := 40) [hk]

@[simp] theorem State.furTouch_sound (s : State) (b m : Nat) (hk : s.Sound cq) :
    (State.furTouch s b m).Sound cq := by
  unfold State.furTouch; simp +contextual (maxDischargeDepth := 40) [hk]

@[simp] theorem State.furApply_sound (s : State) (b : Nat) (w : FurWrite) (hk : s.Sound cq) :
    (State.furApply s b w).Sound cq := by
  unfold State.furApply; simp +contextual (maxDischargeDepth := 40) [hk]

@[simp] theorem State.furApplyTo_sound (s : State) (b m : Nat) (hk : s.Sound cq) :
    (State.furApplyTo s b m).Sound cq := by
  unfold State.furApplyTo; simp +contextual (maxDischargeDepth := 40) [hk]

end Sys2Proof.Machine
end

