-- ==== Sys2Proof/Laws/KeepSoundBeamLatch.lean ====
section
/-! SUPPORT. The updates of Machine/BeamLatch.lean keep a state sound. -/
namespace Sys2Proof.Machine

variable {cq : List Instr}

@[simp] theorem State.latchOffs_sound (s : State) (b : Nat) (held offs : List Nat) (hk : s.Sound cq) :
    (State.latchOffs s b held offs).Sound cq := by
  unfold State.latchOffs; simp +contextual (maxDischargeDepth := 40) [hk]

@[simp] theorem State.discardOffs_sound (s : State) (b : Nat) (held offs : List Nat) (hk : s.Sound cq) :
    (State.discardOffs s b held offs).Sound cq := by
  unfold State.discardOffs; simp +contextual (maxDischargeDepth := 40) [hk]

@[simp] theorem State.latchLayers_sound (s : State) (b : Nat) (held : List Nat) (hk : s.Sound cq) :
    (State.latchLayers s b held).Sound cq := by
  unfold State.latchLayers; simp +contextual (maxDischargeDepth := 40) [hk]

@[simp] theorem State.latchScaler_sound (s : State) (b : Nat) (held : List Nat) (k : Nat) (hk : s.Sound cq) :
    (State.latchScaler s b held k).Sound cq := by
  unfold State.latchScaler; simp +contextual (maxDischargeDepth := 40) [hk]

@[simp] theorem State.latchRegion_sound (s : State) (b n : Nat) (hk : s.Sound cq) :
    (State.latchRegion s b n).Sound cq := by
  unfold State.latchRegion; simp +contextual (maxDischargeDepth := 40) [hk]

@[simp] theorem State.targetDone_sound (s : State) (b : Nat) (late : Bool) (hk : s.Sound cq) :
    (State.targetDone s b late).Sound cq := by
  unfold State.targetDone; simp +contextual (maxDischargeDepth := 40) [hk]

@[simp] theorem State.armHolds_sound (s : State) (b : Nat) (hk : s.Sound cq) :
    (State.armHolds s b).2.Sound cq := by
  unfold State.armHolds; simp +contextual (maxDischargeDepth := 40) [hk]

@[simp] theorem State.latchFrame_sound (s : State) (b : Nat) (hk : s.Sound cq) :
    (State.latchFrame s b).Sound cq := by
  unfold State.latchFrame; simp +contextual (maxDischargeDepth := 40) [hk]

@[simp] theorem State.setFlat_sound (s : State) (b st : Nat) (watched : Tab (Option (Nat × Nat))) (hk : s.Sound cq) :
    (State.setFlat s b st watched).Sound cq := by
  unfold State.setFlat; simp +contextual (maxDischargeDepth := 40) [hk]

@[simp] theorem State.flatHeadland_sound (s : State) (b : Nat) (changed : List Nat) (hk : s.Sound cq) :
    (State.flatHeadland s b changed).Sound cq := by
  unfold State.flatHeadland; simp +contextual (maxDischargeDepth := 40) [hk]

@[simp] theorem State.copyHeadland_sound (s : State) (b : Nat) (hk : s.Sound cq) :
    (State.copyHeadland s b).Sound cq := by
  unfold State.copyHeadland; simp +contextual (maxDischargeDepth := 40) [hk]

@[simp] theorem State.resetWork_sound (s : State) (b : Nat) (hk : s.Sound cq) :
    (State.resetWork s b).Sound cq := by
  unfold State.resetWork; simp +contextual (maxDischargeDepth := 40) [hk]

@[simp] theorem State.latchFurrow_sound (s : State) (b : Nat) (hk : s.Sound cq) :
    (State.latchFurrow s b).Sound cq := by
  unfold State.latchFurrow; simp +contextual (maxDischargeDepth := 40) [hk]

@[simp] theorem State.furHeadland_sound (s : State) (b : Nat) (hk : s.Sound cq) :
    (State.furHeadland s b).Sound cq := by
  unfold State.furHeadland; simp +contextual (maxDischargeDepth := 40) [hk]

end Sys2Proof.Machine
end

