-- ==== Sys2Proof/Laws/KeepSoundBeamLine.lean ====
section
/-! SUPPORT. The updates of Machine/BeamLine.lean keep a state sound. -/
namespace Sys2Proof.Machine

variable {cq : List Instr}

@[simp] theorem State.setTpos_sound (s : State) (b : Nat) (hl fh : Bool) (line : Nat) (hk : s.Sound cq) :
    (State.setTpos s b hl fh line).Sound cq := by
  unfold State.setTpos; simp +contextual (maxDischargeDepth := 40) [hk]

@[simp] theorem State.bmEvent_sound (s : State) (b a : Nat) (upper : Bool) (hk : s.Sound cq) :
    (State.bmEvent s b a upper).Sound cq := by
  unfold State.bmEvent; simp +contextual (maxDischargeDepth := 40) [hk]

@[simp] theorem State.lineEvents_sound (s : State) (b n : Nat) (hk : s.Sound cq) :
    (State.lineEvents s b n).Sound cq := by
  unfold State.lineEvents; simp +contextual (maxDischargeDepth := 40) [hk]

@[simp] theorem State.blankOut_sound (s : State) (b : Nat) (hk : s.Sound cq) :
    (State.blankOut s b).Sound cq := by
  unfold State.blankOut; simp +contextual (maxDischargeDepth := 40) [hk]

@[simp] theorem State.underrun_sound (s : State) (b n k : Nat) (hk : s.Sound cq) :
    (State.underrun s b n k).Sound cq := by
  unfold State.underrun; simp +contextual (maxDischargeDepth := 40) [hk]

@[simp] theorem State.regionRow_sound (s : State) (b n v : Nat) (ps : List Word) (hk : s.Sound cq) :
    (State.regionRow s b n v ps).Sound cq := by
  unfold State.regionRow; simp +contextual (maxDischargeDepth := 40) [hk]

@[simp] theorem State.copyLine_sound (s : State) (b v : Nat) (ps : List Word) (hk : s.Sound cq) :
    (State.copyLine s b v ps).Sound cq := by
  unfold State.copyLine; simp +contextual (maxDischargeDepth := 40) [hk]

@[simp] theorem State.lineFrame_sound (s : State) (b v : Nat) (ps : List Word) (hk : s.Sound cq) :
    (State.lineFrame s b v ps).Sound cq := by
  unfold State.lineFrame; simp +contextual (maxDischargeDepth := 40) [hk]

@[simp] theorem State.abandonLine_sound (s : State) (b n : Nat) (hk : s.Sound cq) :
    (State.abandonLine s b n).Sound cq := by
  unfold State.abandonLine; simp +contextual (maxDischargeDepth := 40) [hk]

@[simp] theorem State.lineOut_sound (s : State) (b n : Nat) (hk : s.Sound cq) :
    (State.lineOut s b n).Sound cq := by
  unfold State.lineOut; simp +contextual (maxDischargeDepth := 40) [hk]

@[simp] theorem State.lineHeadland_sound (s : State) (b n : Nat) (hk : s.Sound cq) :
    (State.lineHeadland s b n).Sound cq := by
  unfold State.lineHeadland; simp +contextual (maxDischargeDepth := 40) [hk]

@[simp] theorem State.blankingLine_sound (s : State) (b : Nat) (hk : s.Sound cq) :
    (State.blankingLine s b).Sound cq := by
  unfold State.blankingLine; simp +contextual (maxDischargeDepth := 40) [hk]

@[simp] theorem State.blankingHeadland_sound (s : State) (b : Nat) (hk : s.Sound cq) :
    (State.blankingHeadland s b).Sound cq := by
  unfold State.blankingHeadland; simp +contextual (maxDischargeDepth := 40) [hk]

@[simp] theorem State.blankLine_sound (s : State) (b : Nat) (hk : s.Sound cq) :
    (State.blankLine s b).Sound cq := by
  unfold State.blankLine; simp +contextual (maxDischargeDepth := 40) [hk]

@[simp] theorem State.blankHeadland_sound (s : State) (b : Nat) (hk : s.Sound cq) :
    (State.blankHeadland s b).Sound cq := by
  unfold State.blankHeadland; simp +contextual (maxDischargeDepth := 40) [hk]

@[simp] theorem State.headlandOf_sound (s : State) (b : Nat) (hk : s.Sound cq) :
    (State.headlandOf s b).Sound cq := by
  unfold State.headlandOf; repeat' split
  all_goals simp +contextual (maxDischargeDepth := 40) [hk]

@[simp] theorem execLineHeadlandStart_sound (b : BeamIx) (s : State) (hk : s.Sound cq) :
    OutSound cq (execLineHeadlandStart b s) := by
  unfold execLineHeadlandStart; simp +contextual (maxDischargeDepth := 40) [hk]

@[simp] theorem State.applyTgo_sound (s : State) (b : Nat) (hk : s.Sound cq) :
    (State.applyTgo s b).1.Sound cq := by
  unfold State.applyTgo; split <;> simp +contextual (maxDischargeDepth := 40) [hk]

@[simp] theorem State.closeFrame_sound (s : State) (b : Nat) (hk : s.Sound cq) :
    (State.closeFrame s b).Sound cq := by
  unfold State.closeFrame; simp +contextual (maxDischargeDepth := 40) [hk]

@[simp] theorem State.frameHeadland_sound (s : State) (b : Nat) (hk : s.Sound cq) :
    (State.frameHeadland s b).Sound cq := by
  unfold State.frameHeadland; simp +contextual (maxDischargeDepth := 40) [hk]

@[simp] theorem State.frameHeadlandStart_sound (s : State) (b : Nat) (hk : s.Sound cq) :
    (State.frameHeadlandStart s b).Sound cq := by
  unfold State.frameHeadlandStart; simp +contextual (maxDischargeDepth := 40) [hk]

@[simp] theorem execFrameHeadlandStart_sound (b : BeamIx) (s : State) (hk : s.Sound cq) :
    OutSound cq (execFrameHeadlandStart b s) := by
  unfold execFrameHeadlandStart; simp +contextual (maxDischargeDepth := 40) [hk]

@[simp] theorem State.firstFrame_sound (s : State) (b at0 : Nat) (hk : s.Sound cq) :
    (State.firstFrame s b at0).Sound cq := by
  unfold State.firstFrame; grind [State.setFld_sound, State.setBit_sound, State.setGenState_sound, State.updGen_sound, forN_sound, foldl_sound]

@[simp] theorem State.phaseReport_sound (s : State) (b : Nat) (hk : s.Sound cq) :
    (State.phaseReport s b).Sound cq := by
  unfold State.phaseReport; simp +contextual (maxDischargeDepth := 40) [hk]

@[simp] theorem State.frameStart_sound (s : State) (b : Nat) (hk : s.Sound cq) :
    (State.frameStart s b).Sound cq := by
  unfold State.frameStart; simp +contextual (maxDischargeDepth := 40) [hk]

@[simp] theorem execFrameStart_sound (b : BeamIx) (s : State) (hk : s.Sound cq) :
    OutSound cq (execFrameStart b s) := by
  unfold execFrameStart; simp +contextual (maxDischargeDepth := 40) [hk]

@[simp] theorem State.lineSend_sound (s : State) (b n : Nat) (full : Bool) (hk : s.Sound cq) :
    (State.lineSend s b n full).Sound cq := by
  unfold State.lineSend; simp +contextual (maxDischargeDepth := 40) [hk]

@[simp] theorem State.lineBegins_sound (s : State) (b : Nat) (full : Bool) (hk : s.Sound cq) :
    (State.lineBegins s b full).Sound cq := by
  unfold State.lineBegins; simp +contextual (maxDischargeDepth := 40) [hk]

@[simp] theorem execLineSendStart_sound (b : BeamIx) (full : Bool) (s : State) (hk : s.Sound cq) :
    OutSound cq (execLineSendStart b full s) := by
  unfold execLineSendStart; simp +contextual (maxDischargeDepth := 40) [hk]

@[simp] theorem State.takeFences_sound (s : State) (b : Nat) (hk : s.Sound cq) :
    (State.takeFences s b).Sound cq := by
  unfold State.takeFences; simp +contextual (maxDischargeDepth := 40) [hk]

@[simp] theorem State.selectLine_sound (s : State) (b m : Nat) (hk : s.Sound cq) :
    (State.selectLine s b m).Sound cq := by
  unfold State.selectLine; simp +contextual (maxDischargeDepth := 40) [hk]

@[simp] theorem State.compLine_sound (s : State) (b m : Nat) (hk : s.Sound cq) :
    (State.compLine s b m).Sound cq := by
  unfold State.compLine; simp +contextual (maxDischargeDepth := 40) [hk]

@[simp] theorem execCompositorLineStart_sound (b : BeamIx) (s : State) (hk : s.Sound cq) :
    OutSound cq (execCompositorLineStart b s) := by
  unfold execCompositorLineStart; simp +contextual (maxDischargeDepth := 40) [hk]

@[simp] theorem State.shedSprites_sound (s : State) (b t : Nat) (hk : s.Sound cq) :
    (State.shedSprites s b t).Sound cq := by
  unfold State.shedSprites; simp +contextual (maxDischargeDepth := 40) [hk]

@[simp] theorem State.shedLayers_sound (s : State) (b t : Nat) (hk : s.Sound cq) :
    (State.shedLayers s b t).Sound cq := by
  unfold State.shedLayers; simp +contextual (maxDischargeDepth := 40) [hk]

@[simp] theorem State.segFetches_sound (s : State) (b v : Nat) (cover : Option Nat) (cols : List Nat) (hk : s.Sound cq) :
    (State.segFetches s b v cover cols).Sound cq := by
  unfold State.segFetches; grind [State.perf_sound, State.noteFetches_sound, State.bmErr_sound, forN_sound, foldl_sound]

@[simp] theorem State.recordRange_sound (s : State) (b k : Nat) (as : List Nat) (hk : s.Sound cq) :
    (State.recordRange s b k as).Sound cq := by
  unfold State.recordRange; simp +contextual (maxDischargeDepth := 40) [hk]

@[simp] theorem State.captureSeg_sound (s : State) (b v : Nat) (cols : List Nat) (hk : s.Sound cq) :
    (State.captureSeg s b v cols).Sound cq := by
  unfold State.captureSeg; simp +contextual (maxDischargeDepth := 40) [hk]

@[simp] theorem State.composeSeg_sound (s : State) (b v g : Nat) (hk : s.Sound cq) :
    (State.composeSeg s b v g).Sound cq := by
  unfold State.composeSeg; simp +contextual (maxDischargeDepth := 40) [hk]

@[simp] theorem State.segment_sound (s : State) (b : Nat) (hk : s.Sound cq) :
    (State.segment s b).Sound cq := by
  unfold State.segment; split <;> simp +contextual (maxDischargeDepth := 40) [hk]

@[simp] theorem execSegmentStart_sound (b : BeamIx) (s : State) (hk : s.Sound cq) :
    OutSound cq (execSegmentStart b s) := by
  unfold execSegmentStart; simp +contextual (maxDischargeDepth := 40) [hk]

@[simp] theorem State.captureDone_sound (s : State) (b : Nat) (hk : s.Sound cq) : (s.captureDone b).Sound cq := by
  unfold State.captureDone
  dsimp only
  split
  · exact hk
  · simp (maxDischargeDepth := 40) [hk]

@[simp] theorem execCaptureFrameDone_sound (b : BeamIx) (s : State) (hk : s.Sound cq) :
    OutSound cq (execCaptureFrameDone b s) := by
  unfold execCaptureFrameDone; simp +contextual (maxDischargeDepth := 40) [hk]

@[simp] theorem State.mismatch_sound (s : State) (b n cause frame : Nat) (hk : s.Sound cq) :
    (State.mismatch s b n cause frame).Sound cq := by
  unfold State.mismatch; simp +contextual (maxDischargeDepth := 40) [hk]

@[simp] theorem State.regionCompare_sound (s : State) (b n : Nat) (hk : s.Sound cq) :
    (State.regionCompare s b n).Sound cq := by
  unfold State.regionCompare; grind [State.setBit_sound, State.updRegion_sound, State.mismatch_sound, forN_sound, foldl_sound]

@[simp] theorem execRegionCompare_sound (b : BeamIx) (n : Fin 16) (s : State) (hk : s.Sound cq) :
    OutSound cq (execRegionCompare b n s) := by
  unfold execRegionCompare; simp +contextual (maxDischargeDepth := 40) [hk]

@[simp] theorem State.regionNoframe_sound (s : State) (b n : Nat) (hk : s.Sound cq) :
    (State.regionNoframe s b n).Sound cq := by
  unfold State.regionNoframe; split <;> simp +contextual (maxDischargeDepth := 40) [hk]

@[simp] theorem execRegionNoframe_sound (b : BeamIx) (n : Fin 16) (s : State) (hk : s.Sound cq) :
    OutSound cq (execRegionNoframe b n s) := by
  unfold execRegionNoframe; simp +contextual (maxDischargeDepth := 40) [hk]

end Sys2Proof.Machine
end

