-- ==== Sys2Proof/Laws/KeepSoundTransactions.lean ====
section
/-! SUPPORT. The updates of Machine/Transactions.lean keep a state sound. -/
namespace Sys2Proof.Machine

variable {cq : List Instr}

/-- A choice that carries a value beside the state. -/
def OptFstSound (cq : List Instr) {α : Type} (o : Option (State × α)) : Prop := ∀ t a, o = some (t, a) → State.Sound cq t

@[simp] theorem State.sendSnoops_sound (s : State) (r : Nat) (w : Bool) (ln : Nat) (hk : s.Sound cq) :
    (State.sendSnoops s r w ln).Sound cq := by
  unfold State.sendSnoops; simp +contextual (maxDischargeDepth := 40) [hk]

@[simp] theorem State.issueField_sound (s : State) (r a : Nat) (c : ReqClass) (op : TxnOp) (hk : s.Sound cq) :
    (State.issueField s r a c op).Sound cq := by
  unfold State.issueField; simp +contextual (maxDischargeDepth := 40) [hk]

@[simp] theorem State.takeTag_sound (s : State) (x : Txn) (t : Nat) (hk : s.Sound cq) :
    (State.takeTag s x t).Sound cq := by
  unfold State.takeTag; simp +contextual (maxDischargeDepth := 40) [hk]

@[simp] theorem State.issueOne_sound (s : State) (r p a : Nat) (c : ReqClass) (op : TxnOp) (hk : s.Sound cq) :
    (State.issueOne s r p a c op).Sound cq := by
  unfold State.issueOne; repeat' split
  all_goals simp +contextual (maxDischargeDepth := 40) [hk]

@[simp] theorem State.issueTxn_sound (s : State) (r p a : Nat) (op : TxnOp) (hk : s.Sound cq) :
    (State.issueTxn s r p a op).Sound cq := by
  unfold State.issueTxn; repeat' split
  all_goals simp +contextual (maxDischargeDepth := 40) [hk]

@[simp] theorem execTransactionIssue_sound (req : Req) (plot : Fin 8) (a : Addr) (op : TxnOp) (s : State) (hk : s.Sound cq) :
    OutSound cq (execTransactionIssue req plot a op s) := by
  unfold execTransactionIssue; simp +contextual (maxDischargeDepth := 40) [hk]

@[simp] theorem State.setGrants_sound (s : State) (k i n : Nat) (hk : s.Sound cq) :
    (State.setGrants s k i n).Sound cq := by
  unfold State.setGrants; simp +contextual (maxDischargeDepth := 40) [hk]

@[simp] theorem State.countNormal_sound (s : State) (k p : Nat) (ps : List (Nat × Nat)) (hk : s.Sound cq) :
    (State.countNormal s k p ps).Sound cq := by
  unfold State.countNormal; simp +contextual (maxDischargeDepth := 40) [hk]

@[simp] theorem State.countWindow_sound (s : State) (k : Nat) (beam normalWaits : Bool) (hk : s.Sound cq) :
    (State.countWindow s k beam normalWaits).Sound cq := by
  unfold State.countWindow; simp +contextual (maxDischargeDepth := 40) [hk]

@[simp] theorem State.setBeamGrants_sound (s : State) (k b i n : Nat) (hk : s.Sound cq) :
    (State.setBeamGrants s k b i n).Sound cq := by
  unfold State.setBeamGrants; simp +contextual (maxDischargeDepth := 40) [hk]

@[simp] theorem State.countBeam_sound (s : State) (k : Nat) (x : Txn) (hk : s.Sound cq) :
    (State.countBeam s k x).Sound cq := by
  unfold State.countBeam; simp +contextual (maxDischargeDepth := 40) [hk]

theorem State.grantNext_sound (s : State) (k : Nat) (hk : s.Sound cq) : OptFstSound cq (s.grantNext k) := by
  intro t a h
  unfold State.grantNext at h
  dsimp only at h
  split at h
  · cases h; exact hk
  · split at h
    · simp only [Option.some.injEq, Prod.mk.injEq] at h; rw [← h.1]; simp (maxDischargeDepth := 40) [hk]
    · split at h
      · simp only [Option.some.injEq, Prod.mk.injEq] at h; rw [← h.1]; simp (maxDischargeDepth := 40) [hk]
      · cases h

@[simp] theorem State.grantUntil_sound (s : State) (k t fuel : Nat) (hk : s.Sound cq) : (s.grantUntil k t fuel).Sound cq := by
  induction fuel generalizing s with
  | zero => exact hk
  | succ n ih =>
    unfold State.grantUntil
    split
    · exact hk
    · split
      · exact hk
      · rename_i u x e
        have hu := State.perform_sound u x (State.grantNext_sound s k hk u x e)
        dsimp only
        split
        · exact hu
        · exact ih _ hu

@[simp] theorem State.serveWaiter_sound (s : State) (hk : s.Sound cq) :
    OptSound cq (State.serveWaiter s) := by
  unfold State.serveWaiter
  (try dsimp only)
  (try rw [outSound_next])
  repeat' split
  all_goals simp +contextual (maxDischargeDepth := 40) [hk]

@[simp] theorem State.serveWaiters_sound (s : State) (fuel : Nat) (hk : s.Sound cq) : (s.serveWaiters fuel).Sound cq := by
  induction fuel generalizing s with
  | zero => exact hk
  | succ n ih =>
    unfold State.serveWaiters
    split
    · exact hk
    · rename_i t e; exact ih _ (State.serveWaiter_sound s hk t e)

@[simp] theorem State.freeTag_sound (s : State) (t : Nat) (hk : s.Sound cq) :
    (State.freeTag s t).Sound cq := by
  unfold State.freeTag; simp +contextual (maxDischargeDepth := 40) [hk]

@[simp] theorem State.respond_sound (s : State) (t : Nat) (hk : s.Sound cq) : (s.respond t).Sound cq := by
  unfold State.respond
  split
  · exact hk
  · extract_lets s1
    have h1 : s1.Sound cq := by
      simp only [s1]
      split
      · exact hk
      · split
        · exact State.grantUntil_sound _ _ _ _ hk
        · exact State.perform_sound _ _ hk
    clear_value s1
    split
    · exact h1
    · exact State.answer_sound (State.freeTag_sound _ _ h1) _ _

@[simp] theorem execTransactionResponse_sound (tag : BitVec 14) (s : State) (hk : s.Sound cq) :
    OutSound cq (execTransactionResponse tag s) := by
  unfold execTransactionResponse; simp +contextual (maxDischargeDepth := 40) [hk]

end Sys2Proof.Machine
end

