-- ==== Sys2Proof/Laws/KeepSoundBursts.lean ====
section
/-! SUPPORT. The updates of Machine/Bursts.lean keep a state sound. -/
namespace Sys2Proof.Machine

variable {cq : List Instr}

@[simp] theorem State.drlFail_sound (s : State) (c cause : Nat) (hk : s.Sound cq) :
    (State.drlFail s c cause).Sound cq := by
  unfold State.drlFail; simp +contextual (maxDischargeDepth := 40) [hk]

@[simp] theorem State.drlRead_sound (s : State) (c : Nat) (rd : BusResp) (as : List (List Nat)) (hk : s.Sound cq) :
    (State.drlRead s c rd as).1.Sound cq := by
  unfold State.drlRead; simp +contextual (maxDischargeDepth := 40) [hk]

@[simp] theorem State.drlWrite_sound (s : State) (c : Nat) (wr : BusResp) (as : List (List Nat)) (ws : List Word) (hk : s.Sound cq) :
    (State.drlWrite s c wr as ws).Sound cq := by
  unfold State.drlWrite; simp +contextual (maxDischargeDepth := 40) [hk]

@[simp] theorem State.drlStep_sound (s : State) (c reg : Nat) (seg : Fld) (a : Nat) (hk : s.Sound cq) :
    (State.drlStep s c reg seg a).Sound cq := by
  unfold State.drlStep; simp +contextual (maxDischargeDepth := 40) [hk]

@[simp] theorem State.drlRun_sound (s : State) (c : Nat) (rd wr : BusResp) (hk : s.Sound cq) :
    (State.drlRun s c rd wr).Sound cq := by
  unfold State.drlRun; simp +contextual (maxDischargeDepth := 40) [hk]

@[simp] theorem State.drlBurst_sound (s : State) (rd wr : BusResp) (hk : s.Sound cq) :
    (State.drlBurst s rd wr).Sound cq := by
  unfold State.drlBurst; repeat' split
  all_goals simp +contextual (maxDischargeDepth := 40) [hk]

@[simp] theorem State.setFifos_sound (s : State) (ks : List (Fin 17)) (hk : s.Sound cq) :
    (State.setFifos s ks).Sound cq := by
  unfold State.setFifos; simp +contextual (maxDischargeDepth := 40) [hk]

@[simp] theorem execDrillBurst_sound (fifo : List (Fin 17)) (rd wr : BusResp) (s : State) (hk : s.Sound cq) :
    OutSound cq (execDrillBurst fifo rd wr s) := by
  unfold execDrillBurst; simp +contextual (maxDischargeDepth := 40) [hk]

end Sys2Proof.Machine
end

