-- ==== Sys2Proof/Laws/KeepSoundCaches.lean ====
section
/-! SUPPORT. The updates of Machine/Caches.lean keep a state sound. -/
namespace Sys2Proof.Machine

variable {cq : List Instr}

@[simp] theorem State.touchTlb_sound (s : State) (p : Nat) (v : Word) (hk : s.Sound cq) :
    (State.touchTlb s p v).Sound cq := by
  unfold State.touchTlb; simp +contextual (maxDischargeDepth := 40) [hk]

@[simp] theorem State.sendWb_sound (s : State) (c ln : Nat) (ws : List Word) (hk : s.Sound cq) : (s.sendWb c ln ws).Sound cq := by
  unfold State.sendWb
  dsimp only
  split <;> simp [hk]

@[simp] theorem State.takeLine_sound (s : State) (c : Nat) (x : CLine) (hk : s.Sound cq) :
    (State.takeLine s c x).Sound cq := by
  unfold State.takeLine; simp +contextual (maxDischargeDepth := 40) [hk]

@[simp] theorem State.atLine_sound (s : State) (ln : Nat) (hk : s.Sound cq) :
    (State.atLine s ln).Sound cq := by
  unfold State.atLine; simp +contextual (maxDischargeDepth := 40) [hk]

@[simp] theorem State.fillLine_sound (s : State) (c ln : Nat) (hk : s.Sound cq) :
    (State.fillLine s c ln).Sound cq := by
  unfold State.fillLine; simp +contextual (maxDischargeDepth := 40) [hk]

@[simp] theorem State.ownLine_sound (s : State) (c ln : Nat) (hk : s.Sound cq) :
    (State.ownLine s c ln).Sound cq := by
  unfold State.ownLine; simp +contextual (maxDischargeDepth := 40) [hk]

@[simp] theorem State.useLine_sound (s : State) (c ln : Nat) (hk : s.Sound cq) :
    (State.useLine s c ln).Sound cq := by
  unfold State.useLine; split <;> simp +contextual (maxDischargeDepth := 40) [hk]

@[simp] theorem State.cacheStore_sound (s : State) (c a : Nat) (v : Word) (hk : s.Sound cq) :
    (State.cacheStore s c a v).Sound cq := by
  unfold State.cacheStore; simp +contextual (maxDischargeDepth := 40) [hk]

@[simp] theorem State.flushCaches_sound (s : State) (c : Nat) (hk : s.Sound cq) :
    (State.flushCaches s c).Sound cq := by
  unfold State.flushCaches; simp +contextual (maxDischargeDepth := 40) [hk]

@[simp] theorem State.corePerf_sound (s : State) (p code : Nat) (hk : s.Sound cq) :
    (State.corePerf s p code).Sound cq := by
  unfold State.corePerf; simp +contextual (maxDischargeDepth := 40) [hk]

@[simp] theorem State.settleStore_sound (s : State) (p : Nat) (e : StoreEnt) (hk : s.Sound cq) :
    (State.settleStore s p e).Sound cq := by
  unfold State.settleStore; split <;> simp +contextual (maxDischargeDepth := 40) [hk]

@[simp] theorem State.refuseStore_sound (s : State) (p : Nat) (e : StoreEnt) (hk : s.Sound cq) :
    (State.refuseStore s p e).Sound cq := by
  unfold State.refuseStore; simp +contextual (maxDischargeDepth := 40) [hk]

@[simp] theorem State.issueStore_sound (s : State) (p : Nat) (e : StoreEnt) (hk : s.Sound cq) :
    (State.issueStore s p e).Sound cq := by
  unfold State.issueStore; simp +contextual (maxDischargeDepth := 40) [hk]

@[simp] theorem State.flushStores_sound (s : State) (p : Nat) (hk : s.Sound cq) :
    (State.flushStores s p).Sound cq := by
  unfold State.flushStores; simp +contextual (maxDischargeDepth := 40) [hk]

@[simp] theorem State.drainStore_sound (s : State) (p : Nat) (hk : s.Sound cq) :
    (State.drainStore s p).Sound cq := by
  unfold State.drainStore; split <;> simp +contextual (maxDischargeDepth := 40) [hk]

@[simp] theorem execStoreBufferDrain_sound (p : Proc) (s : State) (hk : s.Sound cq) :
    OutSound cq (execStoreBufferDrain p s) := by
  unfold execStoreBufferDrain; simp +contextual (maxDischargeDepth := 40) [hk]

@[simp] theorem State.setWait_sound (s : State) (p : Nat) (w : Option WaitOp) (hk : s.Sound cq) :
    (State.setWait s p w).Sound cq := by
  unfold State.setWait; simp +contextual (maxDischargeDepth := 40) [hk]

@[simp] theorem State.procRead_sound (s : State) (p a : Nat) (dev : Bool) (hk : s.Sound cq) :
    (State.procRead s p a dev).1.Sound cq := by
  unfold State.procRead; grind [State.refuse_sound, State.txnRead_sound, State.serveAt_sound, State.fillLine_sound, State.useLine_sound, forN_sound, foldl_sound]

@[simp] theorem State.procWrite_sound (s : State) (p : Nat) (v : Word) (a : Nat) (dev : Bool) (w : Word) (hk : s.Sound cq) :
    (State.procWrite s p v a dev w).1.Sound cq := by
  unfold State.procWrite; simp +contextual (maxDischargeDepth := 40) [hk]

@[simp] theorem State.newRead_sound (s : State) (p a : Nat) (dev : Bool) (hk : s.Sound cq) :
    (State.newRead s p a dev).1.Sound cq := by
  unfold State.newRead; simp +contextual (maxDischargeDepth := 40) [hk]

@[simp] theorem State.newWrite_sound (s : State) (p : Nat) (v : Word) (a : Nat) (dev : Bool) (w : Word) (hk : s.Sound cq) :
    (State.newWrite s p v a dev w).1.Sound cq := by
  unfold State.newWrite; simp +contextual (maxDischargeDepth := 40) [hk]

end Sys2Proof.Machine
end

