-- ==== Sys2Proof/Laws/KeepSoundHarrow.lean ====
section
/-! SUPPORT. The updates of Machine/Harrow.lean keep a state sound. -/
namespace Sys2Proof.Machine

variable {cq : List Instr}

@[simp] theorem State.hrwActive_sound (s : State) (act : Nat → HrwList → State → State) (hk : s.Sound cq)
    (hf : ∀ q l t, t.Sound cq → (act q l t).Sound cq) : (s.hrwActive act).Sound cq := by
  unfold State.hrwActive
  repeat' split
  all_goals first | exact hk | exact hf _ _ _ hk

@[simp] theorem State.setList_sound (s : State) (q : Nat) (l : HrwList) (hk : s.Sound cq) :
    (State.setList s q l).Sound cq := by
  unfold State.setList; simp +contextual (maxDischargeDepth := 40) [hk]

@[simp] theorem State.hrwWords_sound (s : State) (q pos a : Nat) (r : BusResp) (hk : s.Sound cq) :
    (State.hrwWords s q pos a r).1.Sound cq := by
  unfold State.hrwWords; simp +contextual (maxDischargeDepth := 40) [hk]

@[simp] theorem State.hrwFetch_sound (s : State) (q : Nat) (l : HrwList) (r : BusResp) (hk : s.Sound cq) :
    (State.hrwFetch s q l r).Sound cq := by
  unfold State.hrwFetch; simp +contextual (maxDischargeDepth := 40) [hk]

@[simp] theorem execHarrowFetchResponse_sound (r : BusResp) (s : State) (hk : s.Sound cq) :
    OutSound cq (execHarrowFetchResponse r s) := by
  unfold execHarrowFetchResponse; simp +contextual (maxDischargeDepth := 40) [hk]

@[simp] theorem State.hrwCommand_sound (s : State) (i : HrwIns) (act : Nat → HrwList → State → State) (hk : s.Sound cq) (hkact : ∀ q l t, t.Sound cq → (act q l t).Sound cq) :
    (State.hrwCommand s i act).Sound cq := by
  unfold State.hrwCommand; grind [State.hrwActive_sound, State.setList_sound, forN_sound, foldl_sound]

@[simp] theorem execHarrowEnd_sound (s : State) (hk : s.Sound cq) :
    OutSound cq (execHarrowEnd s) := by
  unfold execHarrowEnd; simp +contextual (maxDischargeDepth := 40) [hk]

@[simp] theorem execSurf_sound (fmt : BitVec 2) (sel : Bool) (base : Word) (stride : BitVec 14) (s : State) (hk : s.Sound cq) :
    OutSound cq (execSurf fmt sel base stride s) := by
  unfold execSurf; simp +contextual (maxDischargeDepth := 40) [hk]

@[simp] theorem execClip_sound (en : Bool) (x0 y0 x1 y1 : BitVec 13) (s : State) (hk : s.Sound cq) :
    OutSound cq (execClip en x0 y0 x1 y1 s) := by
  unfold execClip; simp +contextual (maxDischargeDepth := 40) [hk]

@[simp] theorem execLut_sound (base : Word) (s : State) (hk : s.Sound cq) :
    OutSound cq (execLut base s) := by
  unfold execLut; simp +contextual (maxDischargeDepth := 40) [hk]

@[simp] theorem execHarrowKey_sound (en : Bool) (key : Word) (s : State) (hk : s.Sound cq) :
    OutSound cq (execHarrowKey en key s) := by
  unfold execHarrowKey; simp +contextual (maxDischargeDepth := 40) [hk]

@[simp] theorem State.hrwReads_sound (s : State) (q at0 : Nat) (rd : BusResp) (as : List Nat) (hk : s.Sound cq) :
    (State.hrwReads s q at0 rd as).1.Sound cq := by
  unfold State.hrwReads; simp +contextual (maxDischargeDepth := 40) [hk]

@[simp] theorem State.hrwTable_sound (s : State) (q : Nat) (l : HrwList) (pal : Nat) (r : BusResp) (hk : s.Sound cq) :
    (State.hrwTable s q l pal r).Sound cq := by
  unfold State.hrwTable; simp +contextual (maxDischargeDepth := 40) [hk]

@[simp] theorem execFill_sound (alpha : BitVec 6) (xdir ydir : Bool) (colour : Word) (dx dy : BitVec 13) (w h : BitVec 14) (s : State) (hk : s.Sound cq) :
    OutSound cq (execFill alpha xdir ydir colour dx dy w h s) := by
  unfold execFill; simp +contextual (maxDischargeDepth := 40) [hk]

@[simp] theorem execCopy_sound (alpha : BitVec 6) (xdir ydir : Bool) (pal : BitVec 9) (sx sy dx dy : BitVec 13) (w h : BitVec 14) (s : State) (hk : s.Sound cq) :
    OutSound cq (execCopy alpha xdir ydir pal sx sy dx dy w h s) := by
  unfold execCopy; simp +contextual (maxDischargeDepth := 40) [hk]

@[simp] theorem State.hrwStep_sound (s : State) (q : Nat) (l : HrwList) (j : HrwJob) (wr : BusResp) (src dst : List (Nat × Word)) (c : Nat) (ow : Tab (Option Word) × List (Nat × Word) × Bool) (hk : s.Sound cq) :
    (State.hrwStep s q l j wr src dst c ow).1.Sound cq := by
  unfold State.hrwStep; grind [State.useFree_sound, State.busWrite_sound, forN_sound, foldl_sound]

@[simp] theorem State.hrwSource_sound (s : State) (q : Nat) (l : HrwList) (j : HrwJob) (a : Nat) (r : BusResp) (hk : s.Sound cq) :
    (State.hrwSource s q l j a r).Sound cq := by
  unfold State.hrwSource; simp +contextual (maxDischargeDepth := 40) [hk]

@[simp] theorem State.hrwUnder_sound (s : State) (q : Nat) (l : HrwList) (j : HrwJob) (r : BusResp) (hk : s.Sound cq) :
    (State.hrwUnder s q l j r).Sound cq := by
  unfold State.hrwUnder; simp +contextual (maxDischargeDepth := 40) [hk]

@[simp] theorem State.hrwWrite_sound (s : State) (q : Nat) (l : HrwList) (j : HrwJob) (r : BusResp) (hk : s.Sound cq) :
    (State.hrwWrite s q l j r).Sound cq := by
  unfold State.hrwWrite; simp +contextual (maxDischargeDepth := 40) [hk]

@[simp] theorem State.hrwBurst_sound (s : State) (q : Nat) (l : HrwList) (j : HrwJob) (r : BusResp) (hk : s.Sound cq) :
    (State.hrwBurst s q l j r).Sound cq := by
  unfold State.hrwBurst
  (try dsimp only)
  (try rw [outSound_next])
  repeat' split
  all_goals simp +contextual (maxDischargeDepth := 40) [hk]

@[simp] theorem execHarrowBurst_sound (r : BusResp) (s : State) (hk : s.Sound cq) :
    OutSound cq (execHarrowBurst r s) := by
  unfold execHarrowBurst; grind [State.hrwActive_sound, State.hrwBurst_sound, forN_sound, foldl_sound, outSound_next, outSound_refused]

@[simp] theorem State.hrwRowEnd_sound (s : State) (q : Nat) (l : HrwList) (j : HrwJob) (hk : s.Sound cq) :
    (State.hrwRowEnd s q l j).Sound cq := by
  unfold State.hrwRowEnd; simp +contextual (maxDischargeDepth := 40) [hk]

@[simp] theorem execRowEnd_sound (s : State) (hk : s.Sound cq) :
    OutSound cq (execRowEnd s) := by
  unfold execRowEnd; grind [State.hrwActive_sound, State.hrwRowEnd_sound, forN_sound, foldl_sound, outSound_next, outSound_refused]

@[simp] theorem execWaitwm_sound (b : BeamIx) (s : State) (hk : s.Sound cq) :
    OutSound cq (execWaitwm b s) := by
  unfold execWaitwm; simp +contextual (maxDischargeDepth := 40) [hk]

@[simp] theorem execHarrowPub_sound (tine : Tine) (s : State) (hk : s.Sound cq) :
    OutSound cq (execHarrowPub tine s) := by
  unfold execHarrowPub; simp +contextual (maxDischargeDepth := 40) [hk]

@[simp] theorem execHarrowReservedOpcode_sound (op : BitVec 4) (s : State) (hk : s.Sound cq) :
    OutSound cq (execHarrowReservedOpcode op s) := by
  unfold execHarrowReservedOpcode; simp +contextual (maxDischargeDepth := 40) [hk]

end Sys2Proof.Machine
end

