-- ==== Sys2Proof/Laws/KeepSoundPipeline.lean ====
section
/-! SUPPORT. The updates of Machine/Pipeline.lean keep a state sound. -/
namespace Sys2Proof.Machine

variable {cq : List Instr}

/-- Every state that a run of one processor command leads to is sound. -/
def RunSound (cq : List Instr) (r : Run) : Prop := match r with
  | .done s => s.Sound cq
  | .goto s _ => s.Sound cq
  | .branch s _ => s.Sound cq
  | .raise s _ _ _ => s.Sound cq
  | .hold s => s.Sound cq
  | .stall _ => True
  | .stop s => s.Sound cq

@[simp] theorem runSound_done (s : State) : RunSound cq (.done s) ↔ s.Sound cq := Iff.rfl
@[simp] theorem runSound_goto (s : State) (v : Word) : RunSound cq (.goto s v) ↔ s.Sound cq := Iff.rfl
@[simp] theorem runSound_branch (s : State) (v : Option Word) : RunSound cq (.branch s v) ↔ s.Sound cq := Iff.rfl
@[simp] theorem runSound_raise (s : State) (c d : Nat) (v : Option Word) : RunSound cq (.raise s c d v) ↔ s.Sound cq := Iff.rfl
@[simp] theorem runSound_hold (s : State) : RunSound cq (.hold s) ↔ s.Sound cq := Iff.rfl
@[simp] theorem runSound_stop (s : State) : RunSound cq (.stop s) ↔ s.Sound cq := Iff.rfl
@[simp] theorem runSound_stall (c : Option Nat) : RunSound cq (.stall c) := trivial
@[simp] theorem runSound_ite {c : Prop} [Decidable c] {a b : Run} (ha : RunSound cq a) (hb : RunSound cq b) :
    RunSound cq (if c then a else b) := by split <;> assumption

/-- Both the state of an answer and the state of an error are sound. -/
def ExcSound (cq : List Instr) {α : Type} (e : Except (State × α) State) : Prop := match e with
  | .error x => x.1.Sound cq
  | .ok s => s.Sound cq

@[simp] theorem excSound_ok {α : Type} (s : State) : ExcSound (α := α) cq (.ok s) ↔ s.Sound cq := Iff.rfl
@[simp] theorem excSound_error {α : Type} (x : State × α) : ExcSound cq (.error x) ↔ x.1.Sound cq := Iff.rfl

@[simp] theorem State.putStatus_sound (s : State) (p : Nat) (v : Word) (hk : s.Sound cq) :
    (State.putStatus s p v).Sound cq := by
  unfold State.putStatus; simp +contextual (maxDischargeDepth := 40) [hk]

@[simp] theorem State.commit_sound (s : State) (p : Nat) (h : Shadow) (hk : s.Sound cq) :
    (State.commit s p h).Sound cq := by
  unfold State.commit; simp +contextual (maxDischargeDepth := 40) [hk]

@[simp] theorem State.commitAll_sound (s : State) (p : Nat) (hk : s.Sound cq) :
    (State.commitAll s p).Sound cq := by
  unfold State.commitAll; simp +contextual (maxDischargeDepth := 40) [hk]

@[simp] theorem State.setFlags_sound (s : State) (p : Nat) (f : Flags) (hk : s.Sound cq) :
    (State.setFlags s p f).Sound cq := by
  unfold State.setFlags; simp +contextual (maxDischargeDepth := 40) [hk]

@[simp] theorem State.setW_sound (s : State) (p : Nat) (n : RegNo) (v : Word) (hk : s.Sound cq) :
    (State.setW s p n v).Sound cq := by
  unfold State.setW; simp +contextual (maxDischargeDepth := 40) [hk]

@[simp] theorem State.settle_sound (s : State) (p : Nat) (hk : s.Sound cq) :
    (State.settle s p).Sound cq := by
  unfold State.settle; repeat' split
  all_goals simp +contextual (maxDischargeDepth := 40) [hk]

@[simp] theorem State.enterAt_sound (s : State) (p cause o : Nat) (hk : s.Sound cq) :
    (State.enterAt s p cause o).Sound cq := by
  unfold State.enterAt; simp +contextual (maxDischargeDepth := 40) [hk]

@[simp] theorem State.deeper_sound (s : State) (p : Nat) (hk : s.Sound cq) :
    (State.deeper s p).Sound cq := by
  unfold State.deeper; simp +contextual (maxDischargeDepth := 40) [hk]

@[simp] theorem State.takeAt_sound (s : State) (p cause detail : Nat) (ea : Option Word) (epc : Word) (hk : s.Sound cq) :
    (State.takeAt s p cause detail ea epc).Sound cq := by
  unfold State.takeAt; simp +contextual (maxDischargeDepth := 40) [hk]

@[simp] theorem State.take_sound (s : State) (p cause detail : Nat) (ea : Option Word) (hk : s.Sound cq) :
    (State.take s p cause detail ea).Sound cq := by
  unfold State.take; simp +contextual (maxDischargeDepth := 40) [hk]

@[simp] theorem State.takeImprecise_sound (s : State) (p : Nat) (hk : s.Sound cq) :
    (State.takeImprecise s p).Sound cq := by
  unfold State.takeImprecise; grind [State.updProc_sound, State.take_sound, forN_sound, foldl_sound]

@[simp] theorem State.vectorIrq_sound (s : State) (p : Nat) (hk : s.Sound cq) :
    (State.vectorIrq s p).Sound cq := by
  unfold State.vectorIrq; simp +contextual (maxDischargeDepth := 40) [hk]

@[simp] theorem State.enterIrq_sound (s : State) (p : Nat) (hk : s.Sound cq) :
    (State.enterIrq s p).Sound cq := by
  unfold State.enterIrq; simp +contextual (maxDischargeDepth := 40) [hk]

@[simp] theorem State.tailChain_sound (s : State) (p : Nat) (hk : s.Sound cq) :
    (State.tailChain s p).Sound cq := by
  unfold State.tailChain; simp +contextual (maxDischargeDepth := 40) [hk]

@[simp] theorem State.interrupt_sound (s : State) (p : Nat) (hk : s.Sound cq) :
    (State.interrupt s p).Sound cq := by
  unfold State.interrupt; simp +contextual (maxDischargeDepth := 40) [hk]

@[simp] theorem execInterruptEntry_sound (p : Proc) (s : State) (hk : s.Sound cq) :
    OutSound cq (execInterruptEntry p s) := by
  unfold execInterruptEntry; simp +contextual (maxDischargeDepth := 40) [hk]

@[simp] theorem execHaltTaken_sound (p : Proc) (s : State) (hk : s.Sound cq) :
    OutSound cq (execHaltTaken p s) := by
  unfold execHaltTaken; simp +contextual (maxDischargeDepth := 40) [hk]

@[simp] theorem State.sample_sound (s : State) (p : Nat) (word : Word) (x : ProcSt) (hk : s.Sound cq) :
    (State.sample s p word x).Sound cq := by
  unfold State.sample; simp +contextual (maxDischargeDepth := 40) [hk]

@[simp] theorem State.cycleCounts_sound (s : State) (p : Nat) (hk : s.Sound cq) :
    (State.cycleCounts s p).Sound cq := by
  unfold State.cycleCounts; simp +contextual (maxDischargeDepth := 40) [hk]

@[simp] theorem State.stepShadows_sound (s : State) (p : Nat) (hk : s.Sound cq) :
    (State.stepShadows s p).Sound cq := by
  unfold State.stepShadows; simp +contextual (maxDischargeDepth := 40) [hk]

@[simp] theorem State.stepExit_sound (s : State) (p : Nat) (hk : s.Sound cq) :
    (State.stepExit s p).Sound cq := by
  unfold State.stepExit; split <;> simp +contextual (maxDischargeDepth := 40) [hk]

@[simp] theorem State.retire_sound (s : State) (p : Nat) (word : Word) (acc : BitVec 48) (next : Word) (slot : Option (Word × Option Word)) (hk : s.Sound cq) :
    (State.retire s p word acc next slot).Sound cq := by
  unfold State.retire; simp +contextual (maxDischargeDepth := 40) [hk]

@[simp] theorem State.fetchWord_sound (s : State) (p : Nat) (v : Word) (hk : s.Sound cq) : ExcSound cq (s.fetchWord p v) := by
  unfold State.fetchWord
  dsimp only
  repeat' split
  all_goals simp (maxDischargeDepth := 40) [excSound_ok, excSound_error, hk]

@[simp] theorem State.fetchIns_sound (s : State) (p n : Nat) (hk : s.Sound cq) : ExcSound cq (s.fetchIns p n) := by
  unfold State.fetchIns
  dsimp only
  have h1 := State.fetchWord_sound s p (s.proc p).pc hk
  revert h1
  generalize s.fetchWord p (s.proc p).pc = e
  intro h1
  cases e with
  | error x => exact h1
  | ok t =>
    dsimp only
    split
    · have h2 := State.fetchWord_sound t p ((s.proc p).pc + 1) h1
      revert h2
      generalize t.fetchWord p ((s.proc p).pc + 1) = e
      intro h2
      cases e with
      | error x => exact h2
      | ok t => exact h2
    · exact h1

@[simp] theorem State.fetchMatches_sound (s : State) (p : Nat) (branch : Bool) (hk : s.Sound cq) :
    (State.fetchMatches s p branch).1.Sound cq := by
  unfold State.fetchMatches; simp +contextual (maxDischargeDepth := 40) [hk]

@[simp] theorem State.decode_sound (s : State) (p : Nat) (i : Ins) (body : State → Run) (hk : s.Sound cq) (hkbody : ∀ t, t.Sound cq → RunSound cq (body t)) :
    RunSound cq (State.decode s p i body) := by
  unfold State.decode; simp +contextual (maxDischargeDepth := 40) [hk, hkbody]

@[simp] theorem State.finish_sound (s0 : State) (p : Nat) (i : Ins) (acc : BitVec 48) (r : Run) (hk : s0.Sound cq) (hr : RunSound cq r) :
    (s0.finish p i acc r).Sound cq := by
  unfold State.finish
  cases r with
  | stall c => cases c <;> simp [hk]
  | hold s => exact hr
  | stop s => exact hr
  | done s => simp [show s.Sound cq from hr]
  | goto s v => simp [show s.Sound cq from hr]
  | branch s v => simp [show s.Sound cq from hr]
  | raise s c d v => simp [show s.Sound cq from hr]

@[simp] theorem State.issue_sound (s : State) (p : Nat) (i : Ins) (body : State → Run) (hk : s.Sound cq)
    (hf : ∀ t, t.Sound cq → RunSound cq (body t)) : (s.issue p i body).Sound cq := by
  unfold State.issue
  split
  · exact hk
  split
  · simp [hk]
  split
  · exact hk
  split
  · simp [hk]
  split
  · exact hk
  have h1 := State.fetchMatches_sound s p (hasSlot i.op) hk
  revert h1
  generalize s.fetchMatches p (hasSlot i.op) = x
  obtain ⟨t, m⟩ := x
  intro h1
  cases m with
  | some k => obtain ⟨k, ds⟩ := k; simp (maxDischargeDepth := 40) [h1]
  | none =>
    dsimp only
    have h2 : State.Sound cq (t.updProc p (fun x => { x with waiting := false, missed := false })) := by simp [h1]
    revert h2
    generalize t.updProc p (fun x => { x with waiting := false, missed := false }) = u
    intro h2
    have h3 := State.fetchIns_sound u p i.len h2
    revert h3
    generalize u.fetchIns p i.len = e
    intro h3
    cases e with
    | error x => obtain ⟨w, c, a⟩ := x; simp [show w.Sound cq from h3]
    | ok w =>
      dsimp only
      split
      · simp [show w.Sound cq from h3]
      refine State.finish_sound _ _ _ _ _ hk ?_
      unfold State.decode
      dsimp only
      split
      · exact h3
      · split
        · exact h3
        · exact hf w h3

end Sys2Proof.Machine
end

