-- ==== Sys2Proof/Laws/KeepSoundIsaAlu.lean ====
section
/-! SUPPORT. The updates of Machine/IsaAlu.lean keep a state sound. -/
namespace Sys2Proof.Machine

variable {cq : List Instr}

@[simp] theorem State.writeAlu_sound (s : State) (p : Nat) (d : RegNo) (x : Word × Flags) (hk : s.Sound cq) :
    (State.writeAlu s p d x).Sound cq := by
  unfold State.writeAlu; simp +contextual (maxDischargeDepth := 40) [hk]

@[simp] theorem State.aluR_sound (s : State) (p op : Nat) (d a b : RegNo) (f : Word → Word → Word → Word × Flags) (hk : s.Sound cq) :
    (State.aluR s p op d a b f).Sound cq := by
  unfold State.aluR; simp +contextual (maxDischargeDepth := 40) [hk]

@[simp] theorem State.aluU_sound (s : State) (p op : Nat) (d a : RegNo) (f : Word → Word × Flags) (hk : s.Sound cq) :
    (State.aluU s p op d a f).Sound cq := by
  unfold State.aluU; simp +contextual (maxDischargeDepth := 40) [hk]

@[simp] theorem State.aluI_sound (s : State) (p op : Nat) (d a : RegNo) (imm : BitVec 8) (f : Word → Word × Flags) (hk : s.Sound cq) :
    (State.aluI s p op d a imm f).Sound cq := by
  unfold State.aluI; simp +contextual (maxDischargeDepth := 40) [hk]

@[simp] theorem State.aluF_sound (s : State) (p : Nat) (word : Word) (a b : RegNo) (f : Word → Word → Word × Flags) (hk : s.Sound cq) :
    (State.aluF s p word a b f).Sound cq := by
  unfold State.aluF; simp +contextual (maxDischargeDepth := 40) [hk]

@[simp] theorem execNop_sound (p : Proc) (s : State) (hk : s.Sound cq) :
    OutSound cq (execNop p s) := by
  unfold execNop; simp +contextual (maxDischargeDepth := 40) [hk]

@[simp] theorem execAdd_sound (p : Proc) (d a b : RegNo) (s : State) (hk : s.Sound cq) :
    OutSound cq (execAdd p d a b s) := by
  unfold execAdd; simp +contextual (maxDischargeDepth := 40) [hk]

@[simp] theorem execAdc_sound (p : Proc) (d a b : RegNo) (s : State) (hk : s.Sound cq) :
    OutSound cq (execAdc p d a b s) := by
  unfold execAdc; simp +contextual (maxDischargeDepth := 40) [hk]

@[simp] theorem execSub_sound (p : Proc) (d a b : RegNo) (s : State) (hk : s.Sound cq) :
    OutSound cq (execSub p d a b s) := by
  unfold execSub; simp +contextual (maxDischargeDepth := 40) [hk]

@[simp] theorem execSbc_sound (p : Proc) (d a b : RegNo) (s : State) (hk : s.Sound cq) :
    OutSound cq (execSbc p d a b s) := by
  unfold execSbc; simp +contextual (maxDischargeDepth := 40) [hk]

@[simp] theorem execAnd_sound (p : Proc) (d a b : RegNo) (s : State) (hk : s.Sound cq) :
    OutSound cq (execAnd p d a b s) := by
  unfold execAnd; simp +contextual (maxDischargeDepth := 40) [hk]

@[simp] theorem execOr_sound (p : Proc) (d a b : RegNo) (s : State) (hk : s.Sound cq) :
    OutSound cq (execOr p d a b s) := by
  unfold execOr; simp +contextual (maxDischargeDepth := 40) [hk]

@[simp] theorem execXor_sound (p : Proc) (d a b : RegNo) (s : State) (hk : s.Sound cq) :
    OutSound cq (execXor p d a b s) := by
  unfold execXor; simp +contextual (maxDischargeDepth := 40) [hk]

@[simp] theorem execShl_sound (p : Proc) (d a b : RegNo) (s : State) (hk : s.Sound cq) :
    OutSound cq (execShl p d a b s) := by
  unfold execShl; simp +contextual (maxDischargeDepth := 40) [hk]

@[simp] theorem execShr_sound (p : Proc) (d a b : RegNo) (s : State) (hk : s.Sound cq) :
    OutSound cq (execShr p d a b s) := by
  unfold execShr; simp +contextual (maxDischargeDepth := 40) [hk]

@[simp] theorem execSar_sound (p : Proc) (d a b : RegNo) (s : State) (hk : s.Sound cq) :
    OutSound cq (execSar p d a b s) := by
  unfold execSar; simp +contextual (maxDischargeDepth := 40) [hk]

@[simp] theorem execRor_sound (p : Proc) (d a b : RegNo) (s : State) (hk : s.Sound cq) :
    OutSound cq (execRor p d a b s) := by
  unfold execRor; simp +contextual (maxDischargeDepth := 40) [hk]

@[simp] theorem execMin_sound (p : Proc) (d a b : RegNo) (s : State) (hk : s.Sound cq) :
    OutSound cq (execMin p d a b s) := by
  unfold execMin; simp +contextual (maxDischargeDepth := 40) [hk]

@[simp] theorem execMax_sound (p : Proc) (d a b : RegNo) (s : State) (hk : s.Sound cq) :
    OutSound cq (execMax p d a b s) := by
  unfold execMax; simp +contextual (maxDischargeDepth := 40) [hk]

@[simp] theorem execAdds_sound (p : Proc) (d a b : RegNo) (s : State) (hk : s.Sound cq) :
    OutSound cq (execAdds p d a b s) := by
  unfold execAdds; simp +contextual (maxDischargeDepth := 40) [hk]

@[simp] theorem execSubs_sound (p : Proc) (d a b : RegNo) (s : State) (hk : s.Sound cq) :
    OutSound cq (execSubs p d a b s) := by
  unfold execSubs; simp +contextual (maxDischargeDepth := 40) [hk]

@[simp] theorem execAddi_sound (p : Proc) (d a : RegNo) (imm : BitVec 8) (s : State) (hk : s.Sound cq) :
    OutSound cq (execAddi p d a imm s) := by
  unfold execAddi; simp +contextual (maxDischargeDepth := 40) [hk]

@[simp] theorem execAndi_sound (p : Proc) (d a : RegNo) (imm : BitVec 8) (s : State) (hk : s.Sound cq) :
    OutSound cq (execAndi p d a imm s) := by
  unfold execAndi; simp +contextual (maxDischargeDepth := 40) [hk]

@[simp] theorem execOri_sound (p : Proc) (d a : RegNo) (imm : BitVec 8) (s : State) (hk : s.Sound cq) :
    OutSound cq (execOri p d a imm s) := by
  unfold execOri; simp +contextual (maxDischargeDepth := 40) [hk]

@[simp] theorem execXori_sound (p : Proc) (d a : RegNo) (imm : BitVec 8) (s : State) (hk : s.Sound cq) :
    OutSound cq (execXori p d a imm s) := by
  unfold execXori; simp +contextual (maxDischargeDepth := 40) [hk]

@[simp] theorem execShli_sound (p : Proc) (d a : RegNo) (n : BitVec 5) (s : State) (hk : s.Sound cq) :
    OutSound cq (execShli p d a n s) := by
  unfold execShli; simp +contextual (maxDischargeDepth := 40) [hk]

@[simp] theorem execShri_sound (p : Proc) (d a : RegNo) (n : BitVec 5) (s : State) (hk : s.Sound cq) :
    OutSound cq (execShri p d a n s) := by
  unfold execShri; simp +contextual (maxDischargeDepth := 40) [hk]

@[simp] theorem execSari_sound (p : Proc) (d a : RegNo) (n : BitVec 5) (s : State) (hk : s.Sound cq) :
    OutSound cq (execSari p d a n s) := by
  unfold execSari; simp +contextual (maxDischargeDepth := 40) [hk]

@[simp] theorem execCmpi_sound (p : Proc) (a : RegNo) (imm : BitVec 8) (s : State) (hk : s.Sound cq) :
    OutSound cq (execCmpi p a imm s) := by
  unfold execCmpi; simp +contextual (maxDischargeDepth := 40) [hk]

@[simp] theorem execCmp_sound (p : Proc) (a b : RegNo) (s : State) (hk : s.Sound cq) :
    OutSound cq (execCmp p a b s) := by
  unfold execCmp; simp +contextual (maxDischargeDepth := 40) [hk]

@[simp] theorem execTst_sound (p : Proc) (a b : RegNo) (s : State) (hk : s.Sound cq) :
    OutSound cq (execTst p a b s) := by
  unfold execTst; simp +contextual (maxDischargeDepth := 40) [hk]

@[simp] theorem execLdk_sound (p : Proc) (d : RegNo) (imm : BitVec 12) (s : State) (hk : s.Sound cq) :
    OutSound cq (execLdk p d imm s) := by
  unfold execLdk; simp +contextual (maxDischargeDepth := 40) [hk]

@[simp] theorem execLdh_sound (p : Proc) (d : RegNo) (imm : BitVec 12) (s : State) (hk : s.Sound cq) :
    OutSound cq (execLdh p d imm s) := by
  unfold execLdh; simp +contextual (maxDischargeDepth := 40) [hk]

@[simp] theorem execLdi_sound (p : Proc) (d : RegNo) (w : Word) (s : State) (hk : s.Sound cq) :
    OutSound cq (execLdi p d w s) := by
  unfold execLdi; simp +contextual (maxDischargeDepth := 40) [hk]

@[simp] theorem execNeg_sound (p : Proc) (d a : RegNo) (s : State) (hk : s.Sound cq) :
    OutSound cq (execNeg p d a s) := by
  unfold execNeg; simp +contextual (maxDischargeDepth := 40) [hk]

@[simp] theorem execAbs_sound (p : Proc) (d a : RegNo) (s : State) (hk : s.Sound cq) :
    OutSound cq (execAbs p d a s) := by
  unfold execAbs; simp +contextual (maxDischargeDepth := 40) [hk]

@[simp] theorem execClz_sound (p : Proc) (d a : RegNo) (s : State) (hk : s.Sound cq) :
    OutSound cq (execClz p d a s) := by
  unfold execClz; simp +contextual (maxDischargeDepth := 40) [hk]

@[simp] theorem State.setAcc_sound (s : State) (p : Nat) (a : BitVec 48) (hk : s.Sound cq) :
    (State.setAcc s p a).Sound cq := by
  unfold State.setAcc; simp +contextual (maxDischargeDepth := 40) [hk]

@[simp] theorem State.mulSet_sound (s : State) (p op : Nat) (a b : RegNo) (f : Word → Word → BitVec 48) (hk : s.Sound cq) :
    (State.mulSet s p op a b f).Sound cq := by
  unfold State.mulSet; simp +contextual (maxDischargeDepth := 40) [hk]

@[simp] theorem State.mulAdd_sound (s : State) (p op : Nat) (a b : RegNo) (f : Word → Word → Int) (hk : s.Sound cq) :
    (State.mulAdd s p op a b f).Sound cq := by
  unfold State.mulAdd; simp +contextual (maxDischargeDepth := 40) [hk]

@[simp] theorem execMul_sound (p : Proc) (a b : RegNo) (s : State) (hk : s.Sound cq) :
    OutSound cq (execMul p a b s) := by
  unfold execMul; simp +contextual (maxDischargeDepth := 40) [hk]

@[simp] theorem execMulu_sound (p : Proc) (a b : RegNo) (s : State) (hk : s.Sound cq) :
    OutSound cq (execMulu p a b s) := by
  unfold execMulu; simp +contextual (maxDischargeDepth := 40) [hk]

@[simp] theorem execMulf_sound (p : Proc) (a b : RegNo) (s : State) (hk : s.Sound cq) :
    OutSound cq (execMulf p a b s) := by
  unfold execMulf; simp +contextual (maxDischargeDepth := 40) [hk]

@[simp] theorem execMac_sound (p : Proc) (a b : RegNo) (s : State) (hk : s.Sound cq) :
    OutSound cq (execMac p a b s) := by
  unfold execMac; simp +contextual (maxDischargeDepth := 40) [hk]

@[simp] theorem execMacf_sound (p : Proc) (a b : RegNo) (s : State) (hk : s.Sound cq) :
    OutSound cq (execMacf p a b s) := by
  unfold execMacf; simp +contextual (maxDischargeDepth := 40) [hk]

@[simp] theorem execMsu_sound (p : Proc) (a b : RegNo) (s : State) (hk : s.Sound cq) :
    OutSound cq (execMsu p a b s) := by
  unfold execMsu; simp +contextual (maxDischargeDepth := 40) [hk]

@[simp] theorem execMfh_sound (p : Proc) (d : RegNo) (s : State) (hk : s.Sound cq) :
    OutSound cq (execMfh p d s) := by
  unfold execMfh; simp +contextual (maxDischargeDepth := 40) [hk]

@[simp] theorem execMfl_sound (p : Proc) (d : RegNo) (s : State) (hk : s.Sound cq) :
    OutSound cq (execMfl p d s) := by
  unfold execMfl; simp +contextual (maxDischargeDepth := 40) [hk]

@[simp] theorem execMfr_sound (p : Proc) (d : RegNo) (s : State) (hk : s.Sound cq) :
    OutSound cq (execMfr p d s) := by
  unfold execMfr; simp +contextual (maxDischargeDepth := 40) [hk]

@[simp] theorem execMta_sound (p : Proc) (a b : RegNo) (s : State) (hk : s.Sound cq) :
    OutSound cq (execMta p a b s) := by
  unfold execMta; simp +contextual (maxDischargeDepth := 40) [hk]

@[simp] theorem State.retireLong_sound (s : State) (p : Nat) (div : Bool) (hk : s.Sound cq) :
    (State.retireLong s p div).Sound cq := by
  unfold State.retireLong; split <;> simp +contextual (maxDischargeDepth := 40) [hk]

@[simp] theorem State.divide_sound (s : State) (p op : Nat) (d a b : RegNo) (f : Word → Word → Word × Bool) (hk : s.Sound cq) :
    (State.divide s p op d a b f).Sound cq := by
  unfold State.divide; simp +contextual (maxDischargeDepth := 40) [hk]

@[simp] theorem execDiv_sound (p : Proc) (d a b : RegNo) (s : State) (hk : s.Sound cq) :
    OutSound cq (execDiv p d a b s) := by
  unfold execDiv; simp +contextual (maxDischargeDepth := 40) [hk]

@[simp] theorem execDivu_sound (p : Proc) (d a b : RegNo) (s : State) (hk : s.Sound cq) :
    OutSound cq (execDivu p d a b s) := by
  unfold execDivu; simp +contextual (maxDischargeDepth := 40) [hk]

@[simp] theorem execLongOpRetire_sound (p : Proc) (div : Bool) (s : State) (hk : s.Sound cq) :
    OutSound cq (execLongOpRetire p div s) := by
  unfold execLongOpRetire; simp +contextual (maxDischargeDepth := 40) [hk]

end Sys2Proof.Machine
end

