-- ==== Sys2Proof/Laws/KeepSoundIsaMem.lean ====
section
/-! SUPPORT. The updates of Machine/IsaMem.lean keep a state sound. -/
namespace Sys2Proof.Machine

variable {cq : List Instr}

@[simp] theorem State.dataMatch_sound (s : State) (p kind v a : Nat) (hk : s.Sound cq) :
    (State.dataMatch s p kind v a).Sound cq := by
  unfold State.dataMatch; grind [State.updProc_sound, State.cmpHit_sound, forN_sound, foldl_sound]

@[simp] theorem State.loaded_sound (s : State) (p : Nat) (d : RegNo) (upd : Option (RegNo × Word)) (w : Word) (hk : s.Sound cq) :
    (State.loaded s p d upd w).Sound cq := by
  unfold State.loaded; split <;> simp +contextual (maxDischargeDepth := 40) [hk]

@[simp] theorem State.loadFrom_sound (s : State) (p : Nat) (v : Word) (a : Nat) (dev : Bool) (d : RegNo) (upd : Option (RegNo × Word)) (word : Word) (hk : s.Sound cq) :
    RunSound cq (State.loadFrom s p v a dev d upd word) := by
  unfold State.loadFrom
  (try dsimp only)
  (try rw [outSound_next])
  repeat' split
  all_goals simp +contextual (maxDischargeDepth := 40) [hk]

@[simp] theorem State.load_sound (s : State) (p : Nat) (v : Word) (d : RegNo) (upd : Option (RegNo × Word)) (word : Word) (hk : s.Sound cq) :
    RunSound cq (State.load s p v d upd word) := by
  unfold State.load; split <;> simp +contextual (maxDischargeDepth := 40) [hk]

@[simp] theorem execLd_sound (p : Proc) (d a : RegNo) (imm : BitVec 8) (s : State) (hk : s.Sound cq) :
    OutSound cq (execLd p d a imm s) := by
  unfold execLd; simp +contextual (maxDischargeDepth := 40) [hk]

@[simp] theorem execLdx_sound (p : Proc) (d a b : RegNo) (s : State) (hk : s.Sound cq) :
    OutSound cq (execLdx p d a b s) := by
  unfold execLdx; simp +contextual (maxDischargeDepth := 40) [hk]

@[simp] theorem execLdp_sound (p : Proc) (d a : RegNo) (imm : BitVec 8) (s : State) (hk : s.Sound cq) :
    OutSound cq (execLdp p d a imm s) := by
  unfold execLdp; simp +contextual (maxDischargeDepth := 40) [hk]

@[simp] theorem execPop_sound (p : Proc) (d : RegNo) (s : State) (hk : s.Sound cq) :
    OutSound cq (execPop p d s) := by
  unfold execPop; simp +contextual (maxDischargeDepth := 40) [hk]

@[simp] theorem State.failAccess_sound (s : State) (p : Nat) (c : Nat) (v : Word) (hk : s.Sound cq) :
    (State.failAccess s p c v).Sound cq := by
  unfold State.failAccess; simp +contextual (maxDischargeDepth := 40) [hk]

@[simp] theorem State.loadAnswer_sound (s : State) (p : Nat) (r : BusResp) (hk : s.Sound cq) :
    (State.loadAnswer s p r).Sound cq := by
  unfold State.loadAnswer; split <;> simp +contextual (maxDischargeDepth := 40) [hk]

@[simp] theorem execLoadResponse_sound (p : Proc) (r : BusResp) (s : State) (hk : s.Sound cq) :
    OutSound cq (execLoadResponse p r s) := by
  unfold execLoadResponse; simp +contextual (maxDischargeDepth := 40) [hk]

@[simp] theorem State.updBase_sound (s : State) (p : Nat) (upd : Option (RegNo × Word)) (hk : s.Sound cq) :
    (State.updBase s p upd).Sound cq := by
  unfold State.updBase; split <;> simp +contextual (maxDischargeDepth := 40) [hk]

@[simp] theorem State.storeTo_sound (s : State) (p : Nat) (v : Word) (a : Nat) (dev : Bool) (w : Word) (upd : Option (RegNo × Word)) (word : Word) (hk : s.Sound cq) :
    RunSound cq (State.storeTo s p v a dev w upd word) := by
  unfold State.storeTo; repeat' split
  all_goals simp +contextual (maxDischargeDepth := 40) [hk]

@[simp] theorem State.store_sound (s : State) (p : Nat) (v w : Word) (upd : Option (RegNo × Word)) (word : Word) (hk : s.Sound cq) :
    RunSound cq (State.store s p v w upd word) := by
  unfold State.store; split <;> simp +contextual (maxDischargeDepth := 40) [hk]

@[simp] theorem execSt_sound (p : Proc) (d a : RegNo) (imm : BitVec 8) (s : State) (hk : s.Sound cq) :
    OutSound cq (execSt p d a imm s) := by
  unfold execSt; simp +contextual (maxDischargeDepth := 40) [hk]

@[simp] theorem execStx_sound (p : Proc) (d a b : RegNo) (s : State) (hk : s.Sound cq) :
    OutSound cq (execStx p d a b s) := by
  unfold execStx; simp +contextual (maxDischargeDepth := 40) [hk]

@[simp] theorem execStp_sound (p : Proc) (d a : RegNo) (imm : BitVec 8) (s : State) (hk : s.Sound cq) :
    OutSound cq (execStp p d a imm s) := by
  unfold execStp; simp +contextual (maxDischargeDepth := 40) [hk]

@[simp] theorem execPush_sound (p : Proc) (d : RegNo) (s : State) (hk : s.Sound cq) :
    OutSound cq (execPush p d s) := by
  unfold execPush; simp +contextual (maxDischargeDepth := 40) [hk]

@[simp] theorem State.poisoned_sound (s : State) (p : Nat) (v : Word) (a : Nat) (dev : Bool) (w : Word) (hk : s.Sound cq) :
    (State.poisoned s p v a dev w).Sound cq := by
  unfold State.poisoned; simp +contextual (maxDischargeDepth := 40) [hk]

@[simp] theorem State.storeAnswer_sound (s : State) (p : Nat) (r : BusResp) (hk : s.Sound cq) :
    (State.storeAnswer s p r).Sound cq := by
  unfold State.storeAnswer; repeat' split
  all_goals simp +contextual (maxDischargeDepth := 40) [hk]

@[simp] theorem execStoreResponse_sound (p : Proc) (r : BusResp) (s : State) (hk : s.Sound cq) :
    OutSound cq (execStoreResponse p r s) := by
  unfold execStoreResponse; simp +contextual (maxDischargeDepth := 40) [hk]

@[simp] theorem State.waitAnswer_sound (s : State) (p : Nat) (r : BusResp) (hk : s.Sound cq) :
    (State.waitAnswer s p r).Sound cq := by
  unfold State.waitAnswer; split <;> simp +contextual (maxDischargeDepth := 40) [hk]

@[simp] theorem State.retireCore_sound (s : State) (c : Nat) (hk : s.Sound cq) :
    (State.retireCore s c).Sound cq := by
  unfold State.retireCore; simp +contextual (maxDischargeDepth := 40) [hk]

@[simp] theorem State.fenceRetire_sound (s : State) (p : Nat) (hk : s.Sound cq) :
    (State.fenceRetire s p).Sound cq := by
  unfold State.fenceRetire; simp +contextual (maxDischargeDepth := 40) [hk]

@[simp] theorem execFenceTimeout_sound (p : Fin 8) (s : State) (hk : s.Sound cq) :
    OutSound cq (execFenceTimeout p s) := by
  unfold execFenceTimeout; simp +contextual (maxDischargeDepth := 40) [hk]

@[simp] theorem State.timeoutPort_sound (s : State) (port r : Nat) (hk : s.Sound cq) :
    (State.timeoutPort s port r).Sound cq := by
  unfold State.timeoutPort; grind [State.countTimeout_sound, State.dropAtPort_sound, State.storeAnswer_sound, State.waitAnswer_sound, forN_sound, foldl_sound]

@[simp] theorem execHandshakeTimeout_sound (port : BitVec 6) (req : Req) (s : State) (hk : s.Sound cq) :
    OutSound cq (execHandshakeTimeout port req s) := by
  unfold execHandshakeTimeout; simp +contextual (maxDischargeDepth := 40) [hk]

@[simp] theorem State.swap_sound (s : State) (p a : Nat) (w : Word) (hk : s.Sound cq) :
    (State.swap s p a w).1.Sound cq := by
  unfold State.swap; grind [State.wakeFor_sound, State.cohStore_sound, State.refuse_sound, State.passTag_sound, State.serveAt_sound, State.busRead_sound, State.busWrite_sound, forN_sound, foldl_sound]

@[simp] theorem execSwp_sound (p : Proc) (d a b : RegNo) (s : State) (hk : s.Sound cq) :
    OutSound cq (execSwp p d a b s) := by
  unfold execSwp
  (try rw [outSound_next])
  refine State.issue_sound _ _ _ _ hk ?_
  intro t ht
  (try dsimp only)
  repeat' split
  all_goals simp +contextual (maxDischargeDepth := 40) [ht, hk]

@[simp] theorem State.cacheOp_sound (s : State) (p : Nat) (a : RegNo) (op : Nat) (f : State → Nat → State) (hk : s.Sound cq) (hkf : ∀ t i, t.Sound cq → (f t i).Sound cq) :
    (State.cacheOp s p a op f).Sound cq := by
  unfold State.cacheOp
  refine State.issue_sound _ _ _ _ hk ?_
  intro t ht
  (try dsimp only)
  repeat' split
  all_goals simp +contextual (maxDischargeDepth := 40) [ht, hk, hkf]

@[simp] theorem State.dropLine_sound (s : State) (c ln : Nat) (hk : s.Sound cq) :
    (State.dropLine s c ln).Sound cq := by
  unfold State.dropLine; simp +contextual (maxDischargeDepth := 40) [hk]

@[simp] theorem State.writebackLine_sound (s : State) (c ln : Nat) (hk : s.Sound cq) :
    (State.writebackLine s c ln).Sound cq := by
  unfold State.writebackLine; split <;> simp +contextual (maxDischargeDepth := 40) [hk]

@[simp] theorem execCacheWriteback_sound (p : Proc) (a : RegNo) (s : State) (hk : s.Sound cq) :
    OutSound cq (execCacheWriteback p a s) := by
  unfold execCacheWriteback; simp +contextual (maxDischargeDepth := 40) [hk]

@[simp] theorem execCacheInvalidate_sound (p : Proc) (a : RegNo) (s : State) (hk : s.Sound cq) :
    OutSound cq (execCacheInvalidate p a s) := by
  unfold execCacheInvalidate; simp +contextual (maxDischargeDepth := 40) [hk]

@[simp] theorem execCacheFlush_sound (p : Proc) (a : RegNo) (s : State) (hk : s.Sound cq) :
    OutSound cq (execCacheFlush p a s) := by
  unfold execCacheFlush; simp +contextual (maxDischargeDepth := 40) [hk]

@[simp] theorem execCacheIinvalidate_sound (p : Proc) (a : RegNo) (s : State) (hk : s.Sound cq) :
    OutSound cq (execCacheIinvalidate p a s) := by
  unfold execCacheIinvalidate; simp +contextual (maxDischargeDepth := 40) [hk]

@[simp] theorem State.storeAll_sound (s : State) (p : Nat) (ws : List (Word × Word)) (hk : s.Sound cq) : (s.storeAll p ws).1.Sound cq := by
  unfold State.storeAll
  refine foldl_fst_sound _ _ hk fun x e hx => ?_
  obtain ⟨t, o⟩ := x
  dsimp only at hx ⊢
  split
  · dsimp only; simp (maxDischargeDepth := 40) [hx]
  · exact hx

@[simp] theorem State.storeSome_sound (s : State) (p : Nat) (ws : List (Word × Word)) (hk : s.Sound cq) :
    (State.storeSome s p ws).Sound cq := by
  unfold State.storeSome; simp +contextual (maxDischargeDepth := 40) [hk]

@[simp] theorem State.call_sound (s : State) (p : Nat) (mask : BitVec 15) (target : Word) (hk : s.Sound cq) :
    RunSound cq (State.call s p mask target) := by
  unfold State.call
  (try dsimp only)
  (try rw [outSound_next])
  repeat' split
  all_goals simp +contextual (maxDischargeDepth := 40) [hk]

@[simp] theorem execCall_sound (p : Proc) (mask : BitVec 15) (target : Word) (s : State) (hk : s.Sound cq) :
    OutSound cq (execCall p mask target s) := by
  unfold execCall; simp +contextual (maxDischargeDepth := 40) [hk]

@[simp] theorem execCallr_sound (p : Proc) (mask : BitVec 15) (a : RegNo) (s : State) (hk : s.Sound cq) :
    OutSound cq (execCallr p mask a s) := by
  unfold execCallr; simp +contextual (maxDischargeDepth := 40) [hk]

@[simp] theorem State.loadAll_sound (s : State) (p : Nat) (vs : List Word) (hk : s.Sound cq) : (s.loadAll p vs).1.Sound cq := by
  unfold State.loadAll
  refine foldl_fst_sound _ _ hk fun x e hx => ?_
  obtain ⟨t, ws, bad⟩ := x
  dsimp only at hx ⊢
  split
  · exact hx
  · split
    · exact hx
    · split <;> simp (maxDischargeDepth := 40) [hx]

@[simp] theorem State.ret_sound (s : State) (p : Nat) (hk : s.Sound cq) : RunSound cq (s.ret p) := by
  unfold State.ret
  dsimp only
  split
  · rename_i t _ _ _ e
    have ht : t.Sound cq := by have := State.loadAll_sound s p [(s.proc p).reg 15, (s.proc p).reg 15 + 1] hk; rw [e] at this; exact this
    simp [ht]
  · rename_i t _ e
    have ht : t.Sound cq := by have := State.loadAll_sound s p [(s.proc p).reg 15, (s.proc p).reg 15 + 1] hk; rw [e] at this; exact this
    split
    · exact runSound_stall none
    split
    · rename_i u _ _ _ e
      have hu : u.Sound cq := by
        have h : (t.loadAll p _).1 = u := congrArg Prod.fst e
        rw [← h]; exact State.loadAll_sound _ _ _ ht
      simp [hu]
    · rename_i u _ e
      have hu : u.Sound cq := by
        have h : (t.loadAll p _).1 = u := congrArg Prod.fst e
        rw [← h]; exact State.loadAll_sound _ _ _ ht
      rw [runSound_goto]
      exact foldl_sound _ (by simp [hu]) (fun t e ht => by simp [ht])

@[simp] theorem execRet_sound (p : Proc) (s : State) (hk : s.Sound cq) :
    OutSound cq (execRet p s) := by
  unfold execRet; simp +contextual (maxDischargeDepth := 40) [hk]

end Sys2Proof.Machine
end

