-- ==== Sys2Proof/Laws/KeepSoundIsaFlow.lean ====
section
/-! SUPPORT. The updates of Machine/IsaFlow.lean keep a state sound. -/
namespace Sys2Proof.Machine

variable {cq : List Instr}

@[simp] theorem execJmp_sound (p : Proc) (off : BitVec 16) (s : State) (hk : s.Sound cq) :
    OutSound cq (execJmp p off s) := by
  unfold execJmp; simp +contextual (maxDischargeDepth := 40) [hk]

@[simp] theorem execJr_sound (p : Proc) (a : RegNo) (s : State) (hk : s.Sound cq) :
    OutSound cq (execJr p a s) := by
  unfold execJr; simp +contextual (maxDischargeDepth := 40) [hk]

@[simp] theorem execBcc_sound (p : Proc) (cond : Fin 14) (off : BitVec 16) (s : State) (hk : s.Sound cq) :
    OutSound cq (execBcc p cond off s) := by
  unfold execBcc; simp +contextual (maxDischargeDepth := 40) [hk]

@[simp] theorem State.openLoop_sound (s : State) (p op : Nat) (n : Word) (ofs : BitVec 16) (hk : s.Sound cq) :
    RunSound cq (State.openLoop s p op n ofs) := by
  unfold State.openLoop; simp +contextual (maxDischargeDepth := 40) [hk]

@[simp] theorem execLoop_sound (p : Proc) (n : BitVec 12) (ofs : BitVec 16) (s : State) (hk : s.Sound cq) :
    OutSound cq (execLoop p n ofs s) := by
  unfold execLoop; simp +contextual (maxDischargeDepth := 40) [hk]

@[simp] theorem execLoopr_sound (p : Proc) (a : RegNo) (ofs : BitVec 16) (s : State) (hk : s.Sound cq) :
    OutSound cq (execLoopr p a ofs s) := by
  unfold execLoopr; simp +contextual (maxDischargeDepth := 40) [hk]

@[simp] theorem execTrap_sound (p : Proc) (imm : BitVec 8) (s : State) (hk : s.Sound cq) :
    OutSound cq (execTrap p imm s) := by
  unfold execTrap; simp +contextual (maxDischargeDepth := 40) [hk]

@[simp] theorem execRte_sound (p : Proc) (s : State) (hk : s.Sound cq) :
    OutSound cq (execRte p s) := by
  unfold execRte; simp +contextual (maxDischargeDepth := 40) [hk]

@[simp] theorem execWait_sound (p : Proc) (s : State) (hk : s.Sound cq) :
    OutSound cq (execWait p s) := by
  unfold execWait; simp +contextual (maxDischargeDepth := 40) [hk]

@[simp] theorem execBrk_sound (p : Proc) (s : State) (hk : s.Sound cq) :
    OutSound cq (execBrk p s) := by
  unfold execBrk; simp +contextual (maxDischargeDepth := 40) [hk]

@[simp] theorem execBarrier_sound (p : Proc) (kind : BitVec 4) (s : State) (hk : s.Sound cq) :
    OutSound cq (execBarrier p kind s) := by
  unfold execBarrier
  (try rw [outSound_next])
  refine State.issue_sound _ _ _ _ hk ?_
  intro t ht
  (try dsimp only)
  repeat' split
  all_goals simp +contextual (maxDischargeDepth := 40) [ht, hk]

@[simp] theorem execMfs_sound (p : Proc) (d : RegNo) (n : BitVec 8) (s : State) (hk : s.Sound cq) :
    OutSound cq (execMfs p d n s) := by
  unfold execMfs
  (try rw [outSound_next])
  refine State.issue_sound _ _ _ _ hk ?_
  intro t ht
  (try dsimp only)
  repeat' split
  all_goals simp +contextual (maxDischargeDepth := 40) [ht, hk]

@[simp] theorem State.changeMode_sound (s : State) (p op : Nat) (v m : Word) (hk : s.Sound cq) :
    RunSound cq (State.changeMode s p op v m) := by
  unfold State.changeMode; simp +contextual (maxDischargeDepth := 40) [hk]

@[simp] theorem execMts_sound (p : Proc) (a : RegNo) (n : BitVec 8) (s : State) (hk : s.Sound cq) : OutSound cq (execMts p a n s) := by
  unfold execMts
  rw [outSound_next]
  refine State.issue_sound _ _ _ _ hk ?_
  intro t ht
  dsimp only
  split
  · simp [ht]
  · split
    · have h := State.changeMode_sound t p.val 0x4D (t.getW p.val a) 0xF0 ht
      revert h
      generalize t.changeMode p.val 0x4D (t.getW p.val a) 0xF0 = r
      intro h
      cases r with
      | done u => simp [show u.Sound cq from h]
      | goto _ _ | branch _ _ | raise _ _ _ _ | hold _ | stall _ | stop _ => exact h
    · simp [ht]

@[simp] theorem execSetm_sound (p : Proc) (imm : BitVec 8) (s : State) (hk : s.Sound cq) :
    OutSound cq (execSetm p imm s) := by
  unfold execSetm; simp +contextual (maxDischargeDepth := 40) [hk]

@[simp] theorem execClrm_sound (p : Proc) (imm : BitVec 8) (s : State) (hk : s.Sound cq) :
    OutSound cq (execClrm p imm s) := by
  unfold execClrm; simp +contextual (maxDischargeDepth := 40) [hk]

@[simp] theorem execPtw_sound (p : Proc) (a b : RegNo) (group : BitVec 4) (s : State) (hk : s.Sound cq) :
    OutSound cq (execPtw p a b group s) := by
  unfold execPtw; simp +contextual (maxDischargeDepth := 40) [hk]

@[simp] theorem execPtr_sound (p : Proc) (d : RegNo) (group : BitVec 4) (s : State) (hk : s.Sound cq) :
    OutSound cq (execPtr p d group s) := by
  unfold execPtr; simp +contextual (maxDischargeDepth := 40) [hk]

@[simp] theorem execReservedInstruction_sound (p : Proc) (op : BitVec 8) (s : State) (hk : s.Sound cq) :
    OutSound cq (execReservedInstruction p op s) := by
  unfold execReservedInstruction; simp +contextual (maxDischargeDepth := 40) [hk]

end Sys2Proof.Machine
end

