-- ==== Sys2Proof/Laws/KeepSoundMicrocode.lean ====
section
/-! SUPPORT. The updates of Machine/Microcode.lean keep a state sound. -/
namespace Sys2Proof.Machine

variable {cq : List Instr}

@[simp] theorem execLdl_sound (d a b : RegNo) (s : State) (hk : s.Sound cq) :
    OutSound cq (execLdl d a b s) := by
  unfold execLdl; simp +contextual (maxDischargeDepth := 40) [hk]

@[simp] theorem execStl_sound (d a b : RegNo) (s : State) (hk : s.Sound cq) :
    OutSound cq (execStl d a b s) := by
  unfold execStl; simp +contextual (maxDischargeDepth := 40) [hk]

@[simp] theorem execJl_sound (a b : RegNo) (s : State) (hk : s.Sound cq) :
    OutSound cq (execJl a b s) := by
  unfold execJl; simp +contextual (maxDischargeDepth := 40) [hk]

@[simp] theorem State.ucSwap_sound (s : State) (hk : s.Sound cq) :
    (State.ucSwap s).Sound cq := by
  unfold State.ucSwap; simp +contextual (maxDischargeDepth := 40) [hk]

@[simp] theorem execUcsw_sound (a : RegNo) (s : State) (hk : s.Sound cq) :
    OutSound cq (execUcsw a s) := by
  unfold execUcsw; simp +contextual (maxDischargeDepth := 40) [hk]

@[simp] theorem execWdk_sound (s : State) (hk : s.Sound cq) :
    OutSound cq (execWdk s) := by
  unfold execWdk; simp +contextual (maxDischargeDepth := 40) [hk]

@[simp] theorem State.setMicro_sound (s : State) (n : BitVec 5) (v : Word) (hk : s.Sound cq) :
    (State.setMicro s n v).Sound cq := by
  unfold State.setMicro; grind [State.updProc_sound, State.updUc_sound, State.setW_sound, forN_sound, foldl_sound]

@[simp] theorem State.ucGo_sound (s : State) (a : Nat) (hk : s.Sound cq) :
    (State.ucGo s a).Sound cq := by
  unfold State.ucGo; simp +contextual (maxDischargeDepth := 40) [hk]

@[simp] theorem State.ucStep_sound (s : State) (hk : s.Sound cq) :
    (State.ucStep s).Sound cq := by
  unfold State.ucStep; simp +contextual (maxDischargeDepth := 40) [hk]

@[simp] theorem State.endCustom_sound (s : State) (hk : s.Sound cq) :
    (State.endCustom s).Sound cq := by
  unfold State.endCustom; simp +contextual (maxDischargeDepth := 40) [hk]

@[simp] theorem State.microRaise_sound (s : State) (cause detail : Nat) (ea : Option Word) (hk : s.Sound cq) :
    (State.microRaise s cause detail ea).Sound cq := by
  unfold State.microRaise; simp +contextual (maxDischargeDepth := 40) [hk]

@[simp] theorem State.customFault_sound (s : State) (cause : Nat) (hk : s.Sound cq) :
    (State.customFault s cause).Sound cq := by
  unfold State.customFault; simp +contextual (maxDischargeDepth := 40) [hk]

@[simp] theorem State.microStep_sound (s : State) (i : MicroIns) (f : State → State) (hk : s.Sound cq) (hkf : ∀ t, t.Sound cq → (f t).Sound cq) :
    (State.microStep s i f).Sound cq := by
  unfold State.microStep; grind [State.updProc_sound, State.perf_sound, State.updUc_sound, State.machineCheck_sound, State.customFault_sound, forN_sound, foldl_sound]

@[simp] theorem State.dispatchCustom_sound (s : State) (f : Nat) (word : Word) (hk : s.Sound cq) :
    (State.dispatchCustom s f word).Sound cq := by
  unfold State.dispatchCustom; simp +contextual (maxDischargeDepth := 40) [hk]

@[simp] theorem execCustomInstruction_sound (f : BitVec 8) (d a : BitVec 4) (s : State) (hk : s.Sound cq) :
    OutSound cq (execCustomInstruction f d a s) := by
  unfold execCustomInstruction; simp +contextual (maxDischargeDepth := 40) [hk]

@[simp] theorem State.retireCustom_sound (s : State) (hk : s.Sound cq) :
    (State.retireCustom s).Sound cq := by
  unfold State.retireCustom; split <;> simp +contextual (maxDischargeDepth := 40) [hk]

@[simp] theorem State.microAluOp_sound (s : State) (op : Nat) (d : BitVec 5) (x y : Word) (fl : Bool) (hk : s.Sound cq) :
    (State.microAluOp s op d x y fl).Sound cq := by
  unfold State.microAluOp; repeat' split
  all_goals simp +contextual (maxDischargeDepth := 40) [hk]

@[simp] theorem execMicroAlu_sound (op : BitVec 4) (d a b : BitVec 5) (f : Bool) (s : State) (hk : s.Sound cq) :
    OutSound cq (execMicroAlu op d a b f s) := by
  unfold execMicroAlu; simp +contextual (maxDischargeDepth := 40) [hk]

@[simp] theorem execMicroAlui_sound (op : BitVec 4) (d a : BitVec 5) (imm : BitVec 6) (s : State) (hk : s.Sound cq) :
    OutSound cq (execMicroAlui op d a imm s) := by
  unfold execMicroAlui; simp +contextual (maxDischargeDepth := 40) [hk]

@[simp] theorem State.microMem_sound (s : State) (w lock long : Bool) (d a b : BitVec 5) (r : BusResp) (hk : s.Sound cq) :
    (State.microMem s w lock long d a b r).Sound cq := by
  unfold State.microMem; simp +contextual (maxDischargeDepth := 40) [hk]

@[simp] theorem execMicroMem_sound (w lock long : Bool) (d a b : BitVec 5) (r : BusResp) (s : State) (hk : s.Sound cq) :
    OutSound cq (execMicroMem w lock long d a b r s) := by
  unfold execMicroMem; simp +contextual (maxDischargeDepth := 40) [hk]

@[simp] theorem execMicroBr_sound (cond : BitVec 4) (target : BitVec 14) (s : State) (hk : s.Sound cq) :
    OutSound cq (execMicroBr cond target s) := by
  unfold execMicroBr; simp +contextual (maxDischargeDepth := 40) [hk]

@[simp] theorem State.stackFault_sound (s : State) (hk : s.Sound cq) :
    (State.stackFault s).Sound cq := by
  unfold State.stackFault; simp +contextual (maxDischargeDepth := 40) [hk]

@[simp] theorem State.service_sound (s : State) (o : Nat) (hk : s.Sound cq) :
    OptSound cq (State.service s o) := by
  unfold State.service; simp +contextual (maxDischargeDepth := 40) [hk]

@[simp] theorem State.microCall_sound (s : State) (t : Nat) (hk : s.Sound cq) : (s.microCall t).Sound cq := by
  unfold State.microCall
  split
  · simp [hk]
  · split
    · simp [hk]
    · split
      · simp [hk]
      · rename_i u e _; exact State.service_sound _ _ hk _ e
      · simp [hk]

@[simp] theorem execMicroCall_sound (target : BitVec 14) (s : State) (hk : s.Sound cq) :
    OutSound cq (execMicroCall target s) := by
  unfold execMicroCall; simp +contextual (maxDischargeDepth := 40) [hk]

@[simp] theorem execMicroRet_sound (s : State) (hk : s.Sound cq) :
    OutSound cq (execMicroRet s) := by
  unfold execMicroRet; grind [State.updUc_sound, State.ucGo_sound, State.microStep_sound, State.stackFault_sound, forN_sound, foldl_sound, outSound_next, outSound_refused]

@[simp] theorem State.microEnd_sound (s : State) (hk : s.Sound cq) :
    (State.microEnd s).Sound cq := by
  unfold State.microEnd; grind [State.updUc_sound, State.ucGo_sound, State.retireCustom_sound, forN_sound, foldl_sound]

@[simp] theorem execMicroEnd_sound (s : State) (hk : s.Sound cq) :
    OutSound cq (execMicroEnd s) := by
  unfold execMicroEnd; simp +contextual (maxDischargeDepth := 40) [hk]

@[simp] theorem execMicroFetch2_sound (s : State) (hk : s.Sound cq) :
    OutSound cq (execMicroFetch2 s) := by
  unfold execMicroFetch2; grind [State.updProc_sound, State.updUc_sound, State.ucStep_sound, State.microRaise_sound, State.microStep_sound, forN_sound, foldl_sound, outSound_next, outSound_refused]

@[simp] theorem execMicroRaise_sound (cause : BitVec 8) (s : State) (hk : s.Sound cq) :
    OutSound cq (execMicroRaise cause s) := by
  unfold execMicroRaise; simp +contextual (maxDischargeDepth := 40) [hk]

@[simp] theorem execMicroWaiti_sound (s : State) (hk : s.Sound cq) :
    OutSound cq (execMicroWaiti s) := by
  unfold execMicroWaiti; simp +contextual (maxDischargeDepth := 40) [hk]

@[simp] theorem execMicroSpec_sound (w : Bool) (n : BitVec 8) (r : BitVec 5) (s : State) (hk : s.Sound cq) :
    OutSound cq (execMicroSpec w n r s) := by
  unfold execMicroSpec; grind [State.updProc_sound, State.useFree_sound, State.setMicro_sound, State.ucStep_sound, State.customFault_sound, State.microStep_sound, forN_sound, foldl_sound, outSound_next, outSound_refused]

@[simp] theorem State.microMgmt_sound (s : State) (f : State → State) (hk : s.Sound cq) (hkf : ∀ t, t.Sound cq → (f t).Sound cq) :
    (State.microMgmt s f).Sound cq := by
  unfold State.microMgmt; simp +contextual (maxDischargeDepth := 40) [hk, hkf]

@[simp] theorem execMicroUcswap_sound (r : BitVec 5) (s : State) (hk : s.Sound cq) :
    OutSound cq (execMicroUcswap r s) := by
  unfold execMicroUcswap; simp +contextual (maxDischargeDepth := 40) [hk]

@[simp] theorem execMicroWdkick_sound (s : State) (hk : s.Sound cq) :
    OutSound cq (execMicroWdkick s) := by
  unfold execMicroWdkick; simp +contextual (maxDischargeDepth := 40) [hk]

@[simp] theorem execMicroLdseg_sound (r : BitVec 5) (s : State) (hk : s.Sound cq) :
    OutSound cq (execMicroLdseg r s) := by
  unfold execMicroLdseg; simp +contextual (maxDischargeDepth := 40) [hk]

@[simp] theorem execReservedMicroword_sound (w : Word) (s : State) (hk : s.Sound cq) :
    OutSound cq (execReservedMicroword w s) := by
  unfold execReservedMicroword; simp +contextual (maxDischargeDepth := 40) [hk]

end Sys2Proof.Machine
end

