-- ==== Sys2Proof/Laws/KeepSoundTyskaolo.lean ====
section
/-! SUPPORT. The updates of Machine/Tyskaolo.lean keep a state sound. -/
namespace Sys2Proof.Machine

variable {cq : List Instr}

/-- What a request does keeps a state sound. -/
def DoSound (cq : List Instr) (d : TykDo) : Prop := ∀ g, d = .ok g → ∀ t, State.Sound cq t → State.Sound cq (g t)

@[simp] theorem doSound_ok (g : State → State) : DoSound cq (.ok g) ↔ ∀ t, State.Sound cq t → State.Sound cq (g t) :=
  ⟨fun h => h g rfl, fun h g' e => by cases e; exact h⟩
@[simp] theorem doSound_error (e : TykErr) : DoSound cq (.error e) := fun _ h => by cases h
@[simp] theorem doSound_ite {c : Prop} [Decidable c] {a b : TykDo} (ha : DoSound cq a) (hb : DoSound cq b) :
    DoSound cq (if c then a else b) := by split <;> assumption

@[simp] theorem State.tykRefuse_sound (s : State) (t : Transport) (f : List Word) (e : TykErr) (hk : s.Sound cq) :
    (State.tykRefuse s t f e).Sound cq := by
  unfold State.tykRefuse; repeat' split
  all_goals simp +contextual (maxDischargeDepth := 40) [hk]

@[simp] theorem State.tykAgain_sound (s : State) (t : Transport) (f : List Word) (hk : s.Sound cq) :
    (State.tykAgain s t f).Sound cq := by
  unfold State.tykAgain; repeat' split
  all_goals simp +contextual (maxDischargeDepth := 40) [hk]

@[simp] theorem State.tykCarry_sound (s : State) (was : Tab (Nat × Nat)) (m : TykMsg) (len : List Word → LenCheck)
    (fields : List Word → List TykField)
    (t : Transport) (f : List Word) (body : State → Transport → List Word → TykDo) (hk : s.Sound cq)
    (hf : ∀ u x y, u.Sound cq → DoSound cq (body u x y)) : (s.tykCarry was m len fields t f body).Sound cq := by
  unfold State.tykCarry
  split
  · simp [hk]
  · split
    · simp [hk]
    · simp [hk]
    · split
      · simp [hk]
      · split
        · simp [hk]
        · rename_i e; exact hf s t f hk _ e _ (by simp [hk])

@[simp] theorem State.tykRelay_sound (s : State) (t : Transport) (f : List Word) (hk : s.Sound cq) :
    (State.tykRelay s t f).Sound cq := by
  unfold State.tykRelay; simp +contextual (maxDischargeDepth := 40) [hk]

@[simp] theorem State.request_sound (s : State) (m : TykMsg) (len : List Word → LenCheck) (fields : List Word → List TykField) (t : Transport) (f : List Word) (body : State → Transport → List Word → TykDo) (hk : s.Sound cq) (hkbody : ∀ u x y, u.Sound cq → DoSound cq (body u x y)) :
    (State.request s m len fields t f body).Sound cq := by
  unfold State.request; simp +contextual (maxDischargeDepth := 40) [hk, hkbody]

@[simp] theorem State.byAgent_sound (s : State) (t : Transport) (f : List Word) (own : TykDo) (hk : s.Sound cq) (hkown : DoSound cq own) :
    DoSound cq (State.byAgent s t f own) := by
  unfold State.byAgent
  (try dsimp only)
  (try rw [outSound_next])
  repeat' split
  all_goals simp +contextual (maxDischargeDepth := 40) [hk, hkown]

@[simp] theorem State.agentReply_sound (s : State) (p : Nat) (hk : s.Sound cq) :
    (State.agentReply s p).Sound cq := by
  unfold State.agentReply; simp +contextual (maxDischargeDepth := 40) [hk]

@[simp] theorem execAgentReply_sound (p : Fin 8) (s : State) (hk : s.Sound cq) :
    OutSound cq (execAgentReply p s) := by
  unfold execAgentReply; simp +contextual (maxDischargeDepth := 40) [hk]

@[simp] theorem State.agentTimeout_sound (s : State) (p : Nat) (hk : s.Sound cq) :
    (State.agentTimeout s p).Sound cq := by
  unfold State.agentTimeout; split <;> simp +contextual (maxDischargeDepth := 40) [hk]

@[simp] theorem execAgentTimeout_sound (p : Fin 8) (s : State) (hk : s.Sound cq) :
    OutSound cq (execAgentTimeout p s) := by
  unfold execAgentTimeout; simp +contextual (maxDischargeDepth := 40) [hk]

@[simp] theorem State.relayTimeout_sound (s : State) (seq : Word) (hk : s.Sound cq) :
    (State.relayTimeout s seq).Sound cq := by
  unfold State.relayTimeout; split <;> simp +contextual (maxDischargeDepth := 40) [hk]

@[simp] theorem execRelayTimeout_sound (seq : Word) (s : State) (hk : s.Sound cq) :
    OutSound cq (execRelayTimeout seq s) := by
  unfold execRelayTimeout; simp +contextual (maxDischargeDepth := 40) [hk]

@[simp] theorem execReportResend_sound (p : Fin 8) (s : State) (hk : s.Sound cq) :
    OutSound cq (execReportResend p s) := by
  unfold execReportResend; simp +contextual (maxDischargeDepth := 40) [hk]

@[simp] theorem execAck_sound (t : Transport) (f : List Word) (s : State) (hk : s.Sound cq) :
    OutSound cq (execAck t f s) := by
  unfold execAck; simp +contextual (maxDischargeDepth := 40) [hk]

end Sys2Proof.Machine
end

