-- ==== Sys2Proof/Laws/KeepSoundMessages.lean ====
section
/-! SUPPORT. The updates of Machine/Messages.lean keep a state sound. -/
namespace Sys2Proof.Machine

variable {cq : List Instr}

@[simp] theorem replyOnly_sound (ws : State → List Word) (t : Transport) (f : List Word)  :
    DoSound cq (replyOnly ws t f) := by
  unfold replyOnly; simp +contextual (maxDischargeDepth := 40) []

@[simp] theorem execHello_sound (t : Transport) (f : List Word) (s : State) (hk : s.Sound cq) :
    OutSound cq (execHello t f s) := by
  unfold execHello; simp +contextual (maxDischargeDepth := 40) [hk]

@[simp] theorem execDirRead_sound (t : Transport) (f : List Word) (s : State) (hk : s.Sound cq) :
    OutSound cq (execDirRead t f s) := by
  unfold execDirRead; simp +contextual (maxDischargeDepth := 40) [hk]

@[simp] theorem execLinkStatus_sound (t : Transport) (f : List Word) (s : State) (hk : s.Sound cq) :
    OutSound cq (execLinkStatus t f s) := by
  unfold execLinkStatus; simp +contextual (maxDischargeDepth := 40) [hk]

@[simp] theorem State.sceneDo_sound (s : State) (f : List Word) (hk : s.Sound cq) :
    (State.sceneDo s f).Sound cq := by
  unfold State.sceneDo; simp +contextual (maxDischargeDepth := 40) [hk]

@[simp] theorem execSceneSet_sound (t : Transport) (f : List Word) (s : State) (hk : s.Sound cq) :
    OutSound cq (execSceneSet t f s) := by
  unfold execSceneSet
  (try rw [outSound_next])
  refine State.request_sound _ _ _ _ _ _ _ hk ?_
  intro t x y ht
  (try dsimp only)
  repeat' split
  all_goals simp +contextual (maxDischargeDepth := 40) [ht, hk]

@[simp] theorem execMemWrite_sound (t : Transport) (f : List Word) (s : State) (hk : s.Sound cq) :
    OutSound cq (execMemWrite t f s) := by
  unfold execMemWrite
  (try rw [outSound_next])
  refine State.request_sound _ _ _ _ _ _ _ hk ?_
  intro t x y ht
  (try dsimp only)
  repeat' split
  all_goals simp +contextual (maxDischargeDepth := 40) [ht, hk]

@[simp] theorem execMemRead_sound (t : Transport) (f : List Word) (s : State) (hk : s.Sound cq) :
    OutSound cq (execMemRead t f s) := by
  unfold execMemRead
  (try rw [outSound_next])
  refine State.request_sound _ _ _ _ _ _ _ hk ?_
  intro t x y ht
  (try dsimp only)
  repeat' split
  all_goals simp +contextual (maxDischargeDepth := 40) [ht, hk]

@[simp] theorem execAgent_sound (t : Transport) (f : List Word) (s : State) (hk : s.Sound cq) :
    OutSound cq (execAgent t f s) := by
  unfold execAgent; simp +contextual (maxDischargeDepth := 40) [hk]

@[simp] theorem execSheaf_sound (t : Transport) (f : List Word) (s : State) (hk : s.Sound cq) :
    OutSound cq (execSheaf t f s) := by
  unfold execSheaf
  (try rw [outSound_next])
  refine State.request_sound _ _ _ _ _ _ _ hk ?_
  intro t x y ht
  (try dsimp only)
  repeat' split
  all_goals simp +contextual (maxDischargeDepth := 40) [ht, hk]

@[simp] theorem execSheafCancel_sound (t : Transport) (f : List Word) (s : State) (hk : s.Sound cq) :
    OutSound cq (execSheafCancel t f s) := by
  unfold execSheafCancel; simp +contextual (maxDischargeDepth := 40) [hk]

@[simp] theorem State.startPage_sound (s : State) (page : Nat) (ws : List Word) (hk : s.Sound cq) :
    (State.startPage s page ws).Sound cq := by
  unfold State.startPage; simp +contextual (maxDischargeDepth := 40) [hk]

@[simp] theorem State.startPages_sound (s : State) (t : Transport) (f : List Word) (ps : List (Nat × List Word)) (hk : s.Sound cq) :
    (State.startPages s t f ps).Sound cq := by
  unfold State.startPages; split <;> simp +contextual (maxDischargeDepth := 40) [hk]

@[simp] theorem State.pageEnded_sound (s : State) (ok : Bool) (hk : s.Sound cq) :
    (State.pageEnded s ok).Sound cq := by
  unfold State.pageEnded; repeat' split
  all_goals simp +contextual (maxDischargeDepth := 40) [hk]

@[simp] theorem execGrnProgramDone_sound (ok : Bool) (s : State) (hk : s.Sound cq) :
    OutSound cq (execGrnProgramDone ok s) := by
  unfold execGrnProgramDone; split <;> simp +contextual (maxDischargeDepth := 40) [hk]

@[simp] theorem State.pagesMay_sound (s : State) (g : State → State) (hk : s.Sound cq) (hkg : ∀ t, t.Sound cq → (g t).Sound cq) :
    DoSound cq (State.pagesMay s g) := by
  unfold State.pagesMay; simp +contextual (maxDischargeDepth := 40) [hk, hkg]

@[simp] theorem execStageData_sound (t : Transport) (f : List Word) (s : State) (hk : s.Sound cq) :
    OutSound cq (execStageData t f s) := by
  unfold execStageData; simp +contextual (maxDischargeDepth := 40) [hk]

@[simp] theorem execStageCommit_sound (t : Transport) (f : List Word) (s : State) (hk : s.Sound cq) :
    OutSound cq (execStageCommit t f s) := by
  unfold execStageCommit; simp +contextual (maxDischargeDepth := 40) [hk]

@[simp] theorem execStageStart_sound (t : Transport) (f : List Word) (s : State) (hk : s.Sound cq) :
    OutSound cq (execStageStart t f s) := by
  unfold execStageStart; simp +contextual (maxDischargeDepth := 40) [hk]

@[simp] theorem execStageList_sound (t : Transport) (f : List Word) (s : State) (hk : s.Sound cq) :
    OutSound cq (execStageList t f s) := by
  unfold execStageList; simp +contextual (maxDischargeDepth := 40) [hk]

@[simp] theorem execNrCtrl_sound (t : Transport) (f : List Word) (s : State) (hk : s.Sound cq) :
    OutSound cq (execNrCtrl t f s) := by
  unfold execNrCtrl; simp +contextual (maxDischargeDepth := 40) [hk]

@[simp] theorem execNrLog_sound (t : Transport) (f : List Word) (s : State) (hk : s.Sound cq) :
    OutSound cq (execNrLog t f s) := by
  unfold execNrLog; simp +contextual (maxDischargeDepth := 40) [hk]

@[simp] theorem State.ovrClearAll_sound (s : State) (t : Transport) (f : List Word) (hk : s.Sound cq) :
    (State.ovrClearAll s t f).Sound cq := by
  unfold State.ovrClearAll; simp +contextual (maxDischargeDepth := 40) [hk]

@[simp] theorem execOvrClear_sound (t : Transport) (f : List Word) (s : State) (hk : s.Sound cq) :
    OutSound cq (execOvrClear t f s) := by
  unfold execOvrClear; simp +contextual (maxDischargeDepth := 40) [hk]

@[simp] theorem execPlotAssign_sound (t : Transport) (f : List Word) (s : State) (hk : s.Sound cq) :
    OutSound cq (execPlotAssign t f s) := by
  unfold execPlotAssign; simp +contextual (maxDischargeDepth := 40) [hk]

@[simp] theorem execPlotCtrl_sound (t : Transport) (f : List Word) (s : State) (hk : s.Sound cq) :
    OutSound cq (execPlotCtrl t f s) := by
  unfold execPlotCtrl
  (try rw [outSound_next])
  refine State.request_sound _ _ _ _ _ _ _ hk ?_
  intro t x y ht
  (try dsimp only)
  repeat' split
  all_goals simp +contextual (maxDischargeDepth := 40) [ht, hk]

@[simp] theorem execPlotDelegate_sound (t : Transport) (f : List Word) (s : State) (hk : s.Sound cq) :
    OutSound cq (execPlotDelegate t f s) := by
  unfold execPlotDelegate; simp +contextual (maxDischargeDepth := 40) [hk]

@[simp] theorem execPlotQos_sound (t : Transport) (f : List Word) (s : State) (hk : s.Sound cq) :
    OutSound cq (execPlotQos t f s) := by
  unfold execPlotQos; simp +contextual (maxDischargeDepth := 40) [hk]

@[simp] theorem execCertRead_sound (t : Transport) (f : List Word) (s : State) (hk : s.Sound cq) :
    OutSound cq (execCertRead t f s) := by
  unfold execCertRead; simp +contextual (maxDischargeDepth := 40) [hk]

@[simp] theorem State.enrolInstall_sound (s : State) (cert root key : List (BitVec 8)) (hk : s.Sound cq) :
    (State.enrolInstall s cert root key).Sound cq := by
  unfold State.enrolInstall; simp +contextual (maxDischargeDepth := 40) [hk]

@[simp] theorem execCertEnrol_sound (t : Transport) (f : List Word) (s : State) (hk : s.Sound cq) : OutSound cq (execCertEnrol t f s) := by
  unfold execCertEnrol
  rw [outSound_next]
  refine State.request_sound _ _ _ _ _ _ _ hk ?_
  intro u x y hu
  rw [doSound_ok]
  intro v hv
  dsimp only
  split
  · simp [hv]
  · split
    · simp (maxDischargeDepth := 40) [hv]
    · exact State.tykFinish_sound _ _ _ _ _ _ (State.enrolInstall_sound _ _ _ _ (State.updTyk_sound _ _ hv))

@[simp] theorem execFwWrite_sound (t : Transport) (f : List Word) (s : State) (hk : s.Sound cq) :
    OutSound cq (execFwWrite t f s) := by
  unfold execFwWrite; simp +contextual (maxDischargeDepth := 40) [hk]

@[simp] theorem State.swapCustomer_sound (s : State) (k : Nat) (hk : s.Sound cq) :
    (State.swapCustomer s k).Sound cq := by
  unfold State.swapCustomer; simp +contextual (maxDischargeDepth := 40) [hk]

@[simp] theorem execFwActivate_sound (t : Transport) (f : List Word) (s : State) (hk : s.Sound cq) :
    OutSound cq (execFwActivate t f s) := by
  unfold execFwActivate; simp +contextual (maxDischargeDepth := 40) [hk]

@[simp] theorem State.stageRoute_sound (s : State) (e lanes : Word) (hk : s.Sound cq) :
    OptSound cq (State.stageRoute s e lanes) := by
  unfold State.stageRoute; grind [State.setReg_sound, forN_sound, foldl_sound, optSound_of_eq, getD_sound, optSound_some, optSound_none]

@[simp] theorem State.stageRoutes_sound (s : State) (f : List Word) (hk : s.Sound cq) : OptSound cq (s.stageRoutes f) := by
  unfold State.stageRoutes
  have h : ∀ (l : List Nat) (o : Option State), OptSound cq o → OptSound cq (l.foldl (fun o i => o.bind
      (fun s => s.stageRoute (pay f (1 + 2 * i)) (pay f (2 + 2 * i)))) o) := by
    intro l
    induction l with
    | nil => intro o ho; exact ho
    | cons i l ih =>
      intro o ho
      refine ih _ ?_
      cases o with
      | none => simp
      | some u => exact State.stageRoute_sound _ _ _ (ho u rfl)
  exact h _ _ (by simp [hk])

@[simp] theorem execLinkRoute_sound (t : Transport) (f : List Word) (s : State) (hk : s.Sound cq) :
    OutSound cq (execLinkRoute t f s) := by
  unfold execLinkRoute
  (try rw [outSound_next])
  refine State.request_sound _ _ _ _ _ _ _ hk ?_
  intro t x y ht
  (try dsimp only)
  repeat' split
  all_goals simp +contextual (maxDischargeDepth := 40) [ht, hk]

end Sys2Proof.Machine
end

