-- ==== Sys2Proof/Laws/KeepSoundPorts.lean ====
section
/-! SUPPORT. The updates of Machine/Ports.lean keep a state sound. -/
namespace Sys2Proof.Machine

variable {cq : List Instr}

@[simp] theorem State.setSpiErr_sound (s : State) (b : Bool) (hk : s.Sound cq) :
    (State.setSpiErr s b).Sound cq := by
  unfold State.setSpiErr; simp +contextual (maxDischargeDepth := 40) [hk]

@[simp] theorem State.spiDrop_sound (s : State) (hk : s.Sound cq) :
    (State.spiDrop s).Sound cq := by
  unfold State.spiDrop; simp +contextual (maxDischargeDepth := 40) [hk]

@[simp] theorem State.spiDo_sound (s : State) (f : State → State) (hk : s.Sound cq) (hkf : ∀ t, t.Sound cq → (f t).Sound cq) :
    (State.spiDo s f).Sound cq := by
  unfold State.spiDo; simp +contextual (maxDischargeDepth := 40) [hk, hkf]

@[simp] theorem State.spiStatus_sound (s : State) (hk : s.Sound cq) :
    (State.spiStatus s).Sound cq := by
  unfold State.spiStatus; simp +contextual (maxDischargeDepth := 40) [hk]

@[simp] theorem execSpiStatus_sound (s : State) (hk : s.Sound cq) :
    OutSound cq (execSpiStatus s) := by
  unfold execSpiStatus; simp +contextual (maxDischargeDepth := 40) [hk]

@[simp] theorem State.spiWrite_sound (s : State) (bytes : List (BitVec 8)) (hk : s.Sound cq) :
    (State.spiWrite s bytes).Sound cq := by
  unfold State.spiWrite; simp +contextual (maxDischargeDepth := 40) [hk]

@[simp] theorem execSpiWrite_sound (bytes : List (BitVec 8)) (s : State) (hk : s.Sound cq) :
    OutSound cq (execSpiWrite bytes s) := by
  unfold execSpiWrite; simp +contextual (maxDischargeDepth := 40) [hk]

@[simp] theorem State.spiRead_sound (s : State) (hk : s.Sound cq) :
    (State.spiRead s).Sound cq := by
  unfold State.spiRead; split <;> simp +contextual (maxDischargeDepth := 40) [hk]

@[simp] theorem execSpiRead_sound (s : State) (hk : s.Sound cq) :
    OutSound cq (execSpiRead s) := by
  unfold execSpiRead; simp +contextual (maxDischargeDepth := 40) [hk]

@[simp] theorem execSpiCsTimeout_sound (s : State) (hk : s.Sound cq) :
    OutSound cq (execSpiCsTimeout s) := by
  unfold execSpiCsTimeout; simp +contextual (maxDischargeDepth := 40) [hk]

@[simp] theorem State.updDbg_sound (s : State) (f : DbgSt → DbgSt) (hk : s.Sound cq) :
    (State.updDbg s f).Sound cq := by
  unfold State.updDbg; simp +contextual (maxDischargeDepth := 40) [hk]

@[simp] theorem State.dbgReply_sound (s : State) (ack : Nat) (v : Word) (hk : s.Sound cq) :
    (State.dbgReply s ack v).Sound cq := by
  unfold State.dbgReply; simp +contextual (maxDischargeDepth := 40) [hk]

@[simp] theorem State.dbgAccess_sound (s : State) (a : Nat) (w : Option Word) (hk : s.Sound cq) :
    (State.dbgAccess s a w).1.Sound cq := by
  unfold State.dbgAccess; split <;> simp +contextual (maxDischargeDepth := 40) [hk]

@[simp] theorem State.dbgRequest_sound (s : State) (a : Nat) (w : Option Word) (wait : Bool) (hk : s.Sound cq) :
    (State.dbgRequest s a w wait).Sound cq := by
  unfold State.dbgRequest; simp +contextual (maxDischargeDepth := 40) [hk]

@[simp] theorem execDbgRead_sound (a : Addr) (wait : Bool) (s : State) (hk : s.Sound cq) :
    OutSound cq (execDbgRead a wait s) := by
  unfold execDbgRead; simp +contextual (maxDischargeDepth := 40) [hk]

@[simp] theorem execDbgWrite_sound (a : Addr) (v : Word) (wait : Bool) (s : State) (hk : s.Sound cq) :
    OutSound cq (execDbgWrite a v wait s) := by
  unfold execDbgWrite; simp +contextual (maxDischargeDepth := 40) [hk]

@[simp] theorem execDbgReadPlus_sound (wait : Bool) (s : State) (hk : s.Sound cq) :
    OutSound cq (execDbgReadPlus wait s) := by
  unfold execDbgReadPlus; simp +contextual (maxDischargeDepth := 40) [hk]

@[simp] theorem execDbgWritePlus_sound (v : Word) (wait : Bool) (s : State) (hk : s.Sound cq) :
    OutSound cq (execDbgWritePlus v wait s) := by
  unfold execDbgWritePlus; simp +contextual (maxDischargeDepth := 40) [hk]

@[simp] theorem State.dbgResult_sound (s : State) (hk : s.Sound cq) :
    (State.dbgResult s).Sound cq := by
  unfold State.dbgResult; repeat' split
  all_goals simp +contextual (maxDischargeDepth := 40) [hk]

@[simp] theorem execDbgResult_sound (s : State) (hk : s.Sound cq) :
    OutSound cq (execDbgResult s) := by
  unfold execDbgResult; simp +contextual (maxDischargeDepth := 40) [hk]

@[simp] theorem execDbgStatus_sound (s : State) (hk : s.Sound cq) :
    OutSound cq (execDbgStatus s) := by
  unfold execDbgStatus; simp +contextual (maxDischargeDepth := 40) [hk]

@[simp] theorem execDbgClose_sound (s : State) (hk : s.Sound cq) :
    OutSound cq (execDbgClose s) := by
  unfold execDbgClose; simp +contextual (maxDischargeDepth := 40) [hk]

@[simp] theorem State.dbgDone_sound (s : State) (hk : s.Sound cq) :
    (State.dbgDone s).Sound cq := by
  unfold State.dbgDone; split <;> simp +contextual (maxDischargeDepth := 40) [hk]

@[simp] theorem execDebugAccessDone_sound (s : State) (hk : s.Sound cq) :
    OutSound cq (execDebugAccessDone s) := by
  unfold execDebugAccessDone; simp +contextual (maxDischargeDepth := 40) [hk]

end Sys2Proof.Machine
end

