-- ==== Sys2Proof/Laws/KeepSoundUnits.lean ====
section
/-! SUPPORT. The updates of Machine/Units.lean keep a state sound. -/
namespace Sys2Proof.Machine

variable {cq : List Instr}

@[simp] theorem State.secInput_sound (s : State) (p n : Nat) (hk : s.Sound cq) :
    (State.secInput s p n).1.Sound cq := by
  unfold State.secInput; simp +contextual (maxDischargeDepth := 40) [hk]

@[simp] theorem State.secEnd_sound (s : State) (p res : Nat) (hk : s.Sound cq) :
    (State.secEnd s p res).Sound cq := by
  unfold State.secEnd; simp +contextual (maxDischargeDepth := 40) [hk]

@[simp] theorem State.secDone_sound (s : State) (p : Nat) (hk : s.Sound cq) :
    (State.secDone s p).Sound cq := by
  unfold State.secDone; grind [State.secCompute_sound, State.busWrites_sound, State.secInput_sound, State.secEnd_sound, forN_sound, foldl_sound]

@[simp] theorem execSecOpDone_sound (p : Fin 8) (s : State) (hk : s.Sound cq) :
    OutSound cq (execSecOpDone p s) := by
  unfold execSecOpDone; simp +contextual (maxDischargeDepth := 40) [hk]

@[simp] theorem State.glnStore_sound (s : State) (base : Nat) (ws : List Word) (hk : s.Sound cq) :
    (State.glnStore s base ws).Sound cq := by
  unfold State.glnStore; simp +contextual (maxDischargeDepth := 40) [hk]

@[simp] theorem State.glnRecordDone_sound (s : State) (r : BusResp) (hk : s.Sound cq) :
    (State.glnRecordDone s r).Sound cq := by
  unfold State.glnRecordDone; split <;> simp +contextual (maxDischargeDepth := 40) [hk]

@[simp] theorem execGleanRecordDone_sound (r : BusResp) (s : State) (hk : s.Sound cq) :
    OutSound cq (execGleanRecordDone r s) := by
  unfold execGleanRecordDone; simp +contextual (maxDischargeDepth := 40) [hk]

@[simp] theorem State.gateUnits_sound (s : State) (t : Nat) (hk : s.Sound cq) :
    (State.gateUnits s t).Sound cq := by
  unfold State.gateUnits; simp +contextual (maxDischargeDepth := 40) [hk]

@[simp] theorem State.tineSeen_sound (s : State) (t : Nat) (hk : s.Sound cq) :
    (State.tineSeen s t).Sound cq := by
  unfold State.tineSeen; simp +contextual (maxDischargeDepth := 40) [hk]

@[simp] theorem State.tineDeliver_sound (s : State) (t : Nat) (hk : s.Sound cq) :
    (State.tineDeliver s t).Sound cq := by
  unfold State.tineDeliver; split <;> simp +contextual (maxDischargeDepth := 40) [hk]

@[simp] theorem execTineDelivery_sound (tine : Tine) (s : State) (hk : s.Sound cq) :
    OutSound cq (execTineDelivery tine s) := by
  unfold execTineDelivery; simp +contextual (maxDischargeDepth := 40) [hk]

end Sys2Proof.Machine
end

