-- ==== Sys2Proof/Laws/State.lean ====
section
/-! SUPPORT. What each primitive update leaves of each field, and what reading gives after it. -/
namespace Sys2Proof.Machine

variable (s : State)

@[simp] theorem State.setReg_pending (a : Nat) (v : Word) : (s.setReg a v).pending = s.pending := rfl
@[simp] theorem State.setReg_eff (a : Nat) (v : Word) : (s.setReg a v).eff = s.eff := rfl
@[simp] theorem State.setReg_mem (a : Nat) (v : Word) : (s.setReg a v).mem = s.mem := rfl
@[simp] theorem State.setReg_gran (a : Nat) (v : Word) : (s.setReg a v).gran = s.gran := rfl
@[simp] theorem State.setReg_timebase (a : Nat) (v : Word) : (s.setReg a v).timebase = s.timebase := rfl
@[simp] theorem State.setReg_freeCtr (a : Nat) (v : Word) : (s.setReg a v).freeCtr = s.freeCtr := rfl
@[simp] theorem State.setReg_resp (a : Nat) (v : Word) : (s.setReg a v).resp = s.resp := rfl
@[simp] theorem State.setReg_fab (a : Nat) (v : Word) : (s.setReg a v).fab = s.fab := rfl
@[simp] theorem State.setReg_irqHeld (a : Nat) (v : Word) : (s.setReg a v).irqHeld = s.irqHeld := rfl
@[simp] theorem State.setReg_tin (a : Nat) (v : Word) : (s.setReg a v).tin = s.tin := rfl
@[simp] theorem State.setReg_tmr (a : Nat) (v : Word) : (s.setReg a v).tmr = s.tmr := rfl
@[simp] theorem State.setReg_drl (a : Nat) (v : Word) : (s.setReg a v).drl = s.drl := rfl
@[simp] theorem State.setReg_grn (a : Nat) (v : Word) : (s.setReg a v).grn = s.grn := rfl
@[simp] theorem State.setReg_pads (a : Nat) (v : Word) : (s.setReg a v).pads = s.pads := rfl
@[simp] theorem State.setReg_acw (a : Nat) (v : Word) : (s.setReg a v).acw = s.acw := rfl
@[simp] theorem State.setReg_sec (a : Nat) (v : Word) : (s.setReg a v).sec = s.sec := rfl
@[simp] theorem State.setReg_pwr (a : Nat) (v : Word) : (s.setReg a v).pwr = s.pwr := rfl
@[simp] theorem State.setReg_procs (a : Nat) (v : Word) : (s.setReg a v).procs = s.procs := rfl
@[simp] theorem State.setReg_work (a : Nat) (v : Word) : (s.setReg a v).work = s.work := rfl
@[simp] theorem State.setReg_beams (a : Nat) (v : Word) : (s.setReg a v).beams = s.beams := rfl
@[simp] theorem State.setReg_tyk (a : Nat) (v : Word) : (s.setReg a v).tyk = s.tyk := rfl
@[simp] theorem State.setReg_hrw (a : Nat) (v : Word) : (s.setReg a v).hrw = s.hrw := rfl
@[simp] theorem State.setReg_sup (a : Nat) (v : Word) : (s.setReg a v).sup = s.sup := rfl
@[simp] theorem State.setReg_aud (a : Nat) (v : Word) : (s.setReg a v).aud = s.aud := rfl
@[simp] theorem State.setReg_lnk (a : Nat) (v : Word) : (s.setReg a v).lnk = s.lnk := rfl
@[simp] theorem State.setReg_uc (a : Nat) (v : Word) : (s.setReg a v).uc = s.uc := rfl
@[simp] theorem State.setReg_dbg (a : Nat) (v : Word) : (s.setReg a v).dbg = s.dbg := rfl
@[simp] theorem State.setReg_gln (a : Nat) (v : Word) : (s.setReg a v).gln = s.gln := rfl
@[simp] theorem State.inEff_setReg (a : Nat) (v : Word) (b : Nat) : (s.setReg a v).inEff b = s.inEff b := rfl
@[simp] theorem State.memAt_setReg (a : Nat) (v : Word) (b : Nat) : (s.setReg a v).memAt b = s.memAt b := rfl
@[simp] theorem State.granAt_setReg (a : Nat) (v : Word) (b : Nat) : (s.setReg a v).granAt b = s.granAt b := rfl
@[simp] theorem State.proc_setReg (a : Nat) (v : Word) (b : Nat) : (s.setReg a v).proc b = s.proc b := rfl
@[simp] theorem State.beam_setReg (a : Nat) (v : Word) (b : Nat) : (s.setReg a v).beam b = s.beam b := rfl
@[simp] theorem State.respOf_setReg (a : Nat) (v : Word) (b : Nat) : (s.setReg a v).respOf b = s.respOf b := rfl

@[simp] theorem State.setEff_pending (a : Nat) (v : Word) : (s.setEff a v).pending = s.pending := rfl
@[simp] theorem State.setEff_regs (a : Nat) (v : Word) : (s.setEff a v).regs = s.regs := rfl
@[simp] theorem State.setEff_mem (a : Nat) (v : Word) : (s.setEff a v).mem = s.mem := rfl
@[simp] theorem State.setEff_gran (a : Nat) (v : Word) : (s.setEff a v).gran = s.gran := rfl
@[simp] theorem State.setEff_timebase (a : Nat) (v : Word) : (s.setEff a v).timebase = s.timebase := rfl
@[simp] theorem State.setEff_freeCtr (a : Nat) (v : Word) : (s.setEff a v).freeCtr = s.freeCtr := rfl
@[simp] theorem State.setEff_resp (a : Nat) (v : Word) : (s.setEff a v).resp = s.resp := rfl
@[simp] theorem State.setEff_fab (a : Nat) (v : Word) : (s.setEff a v).fab = s.fab := rfl
@[simp] theorem State.setEff_irqHeld (a : Nat) (v : Word) : (s.setEff a v).irqHeld = s.irqHeld := rfl
@[simp] theorem State.setEff_tin (a : Nat) (v : Word) : (s.setEff a v).tin = s.tin := rfl
@[simp] theorem State.setEff_tmr (a : Nat) (v : Word) : (s.setEff a v).tmr = s.tmr := rfl
@[simp] theorem State.setEff_drl (a : Nat) (v : Word) : (s.setEff a v).drl = s.drl := rfl
@[simp] theorem State.setEff_grn (a : Nat) (v : Word) : (s.setEff a v).grn = s.grn := rfl
@[simp] theorem State.setEff_pads (a : Nat) (v : Word) : (s.setEff a v).pads = s.pads := rfl
@[simp] theorem State.setEff_acw (a : Nat) (v : Word) : (s.setEff a v).acw = s.acw := rfl
@[simp] theorem State.setEff_sec (a : Nat) (v : Word) : (s.setEff a v).sec = s.sec := rfl
@[simp] theorem State.setEff_pwr (a : Nat) (v : Word) : (s.setEff a v).pwr = s.pwr := rfl
@[simp] theorem State.setEff_procs (a : Nat) (v : Word) : (s.setEff a v).procs = s.procs := rfl
@[simp] theorem State.setEff_work (a : Nat) (v : Word) : (s.setEff a v).work = s.work := rfl
@[simp] theorem State.setEff_beams (a : Nat) (v : Word) : (s.setEff a v).beams = s.beams := rfl
@[simp] theorem State.setEff_tyk (a : Nat) (v : Word) : (s.setEff a v).tyk = s.tyk := rfl
@[simp] theorem State.setEff_hrw (a : Nat) (v : Word) : (s.setEff a v).hrw = s.hrw := rfl
@[simp] theorem State.setEff_sup (a : Nat) (v : Word) : (s.setEff a v).sup = s.sup := rfl
@[simp] theorem State.setEff_aud (a : Nat) (v : Word) : (s.setEff a v).aud = s.aud := rfl
@[simp] theorem State.setEff_lnk (a : Nat) (v : Word) : (s.setEff a v).lnk = s.lnk := rfl
@[simp] theorem State.setEff_uc (a : Nat) (v : Word) : (s.setEff a v).uc = s.uc := rfl
@[simp] theorem State.setEff_dbg (a : Nat) (v : Word) : (s.setEff a v).dbg = s.dbg := rfl
@[simp] theorem State.setEff_gln (a : Nat) (v : Word) : (s.setEff a v).gln = s.gln := rfl
@[simp] theorem State.reg_setEff (a : Nat) (v : Word) (b : Nat) : (s.setEff a v).reg b = s.reg b := rfl
@[simp] theorem State.memAt_setEff (a : Nat) (v : Word) (b : Nat) : (s.setEff a v).memAt b = s.memAt b := rfl
@[simp] theorem State.granAt_setEff (a : Nat) (v : Word) (b : Nat) : (s.setEff a v).granAt b = s.granAt b := rfl
@[simp] theorem State.proc_setEff (a : Nat) (v : Word) (b : Nat) : (s.setEff a v).proc b = s.proc b := rfl
@[simp] theorem State.beam_setEff (a : Nat) (v : Word) (b : Nat) : (s.setEff a v).beam b = s.beam b := rfl
@[simp] theorem State.respOf_setEff (a : Nat) (v : Word) (b : Nat) : (s.setEff a v).respOf b = s.respOf b := rfl

@[simp] theorem State.setMem_pending (a : Nat) (v : Word) : (s.setMem a v).pending = s.pending := rfl
@[simp] theorem State.setMem_regs (a : Nat) (v : Word) : (s.setMem a v).regs = s.regs := rfl
@[simp] theorem State.setMem_eff (a : Nat) (v : Word) : (s.setMem a v).eff = s.eff := rfl
@[simp] theorem State.setMem_gran (a : Nat) (v : Word) : (s.setMem a v).gran = s.gran := rfl
@[simp] theorem State.setMem_timebase (a : Nat) (v : Word) : (s.setMem a v).timebase = s.timebase := rfl
@[simp] theorem State.setMem_freeCtr (a : Nat) (v : Word) : (s.setMem a v).freeCtr = s.freeCtr := rfl
@[simp] theorem State.setMem_resp (a : Nat) (v : Word) : (s.setMem a v).resp = s.resp := rfl
@[simp] theorem State.setMem_fab (a : Nat) (v : Word) : (s.setMem a v).fab = s.fab := rfl
@[simp] theorem State.setMem_irqHeld (a : Nat) (v : Word) : (s.setMem a v).irqHeld = s.irqHeld := rfl
@[simp] theorem State.setMem_tin (a : Nat) (v : Word) : (s.setMem a v).tin = s.tin := rfl
@[simp] theorem State.setMem_tmr (a : Nat) (v : Word) : (s.setMem a v).tmr = s.tmr := rfl
@[simp] theorem State.setMem_drl (a : Nat) (v : Word) : (s.setMem a v).drl = s.drl := rfl
@[simp] theorem State.setMem_grn (a : Nat) (v : Word) : (s.setMem a v).grn = s.grn := rfl
@[simp] theorem State.setMem_pads (a : Nat) (v : Word) : (s.setMem a v).pads = s.pads := rfl
@[simp] theorem State.setMem_acw (a : Nat) (v : Word) : (s.setMem a v).acw = s.acw := rfl
@[simp] theorem State.setMem_sec (a : Nat) (v : Word) : (s.setMem a v).sec = s.sec := rfl
@[simp] theorem State.setMem_pwr (a : Nat) (v : Word) : (s.setMem a v).pwr = s.pwr := rfl
@[simp] theorem State.setMem_procs (a : Nat) (v : Word) : (s.setMem a v).procs = s.procs := rfl
@[simp] theorem State.setMem_work (a : Nat) (v : Word) : (s.setMem a v).work = s.work := rfl
@[simp] theorem State.setMem_beams (a : Nat) (v : Word) : (s.setMem a v).beams = s.beams := rfl
@[simp] theorem State.setMem_tyk (a : Nat) (v : Word) : (s.setMem a v).tyk = s.tyk := rfl
@[simp] theorem State.setMem_hrw (a : Nat) (v : Word) : (s.setMem a v).hrw = s.hrw := rfl
@[simp] theorem State.setMem_sup (a : Nat) (v : Word) : (s.setMem a v).sup = s.sup := rfl
@[simp] theorem State.setMem_aud (a : Nat) (v : Word) : (s.setMem a v).aud = s.aud := rfl
@[simp] theorem State.setMem_lnk (a : Nat) (v : Word) : (s.setMem a v).lnk = s.lnk := rfl
@[simp] theorem State.setMem_uc (a : Nat) (v : Word) : (s.setMem a v).uc = s.uc := rfl
@[simp] theorem State.setMem_dbg (a : Nat) (v : Word) : (s.setMem a v).dbg = s.dbg := rfl
@[simp] theorem State.setMem_gln (a : Nat) (v : Word) : (s.setMem a v).gln = s.gln := rfl
@[simp] theorem State.reg_setMem (a : Nat) (v : Word) (b : Nat) : (s.setMem a v).reg b = s.reg b := rfl
@[simp] theorem State.inEff_setMem (a : Nat) (v : Word) (b : Nat) : (s.setMem a v).inEff b = s.inEff b := rfl
@[simp] theorem State.granAt_setMem (a : Nat) (v : Word) (b : Nat) : (s.setMem a v).granAt b = s.granAt b := rfl
@[simp] theorem State.proc_setMem (a : Nat) (v : Word) (b : Nat) : (s.setMem a v).proc b = s.proc b := rfl
@[simp] theorem State.beam_setMem (a : Nat) (v : Word) (b : Nat) : (s.setMem a v).beam b = s.beam b := rfl
@[simp] theorem State.respOf_setMem (a : Nat) (v : Word) (b : Nat) : (s.setMem a v).respOf b = s.respOf b := rfl

@[simp] theorem State.setGran_pending (a : Nat) (v : Word) : (s.setGran a v).pending = s.pending := rfl
@[simp] theorem State.setGran_regs (a : Nat) (v : Word) : (s.setGran a v).regs = s.regs := rfl
@[simp] theorem State.setGran_eff (a : Nat) (v : Word) : (s.setGran a v).eff = s.eff := rfl
@[simp] theorem State.setGran_mem (a : Nat) (v : Word) : (s.setGran a v).mem = s.mem := rfl
@[simp] theorem State.setGran_timebase (a : Nat) (v : Word) : (s.setGran a v).timebase = s.timebase := rfl
@[simp] theorem State.setGran_freeCtr (a : Nat) (v : Word) : (s.setGran a v).freeCtr = s.freeCtr := rfl
@[simp] theorem State.setGran_resp (a : Nat) (v : Word) : (s.setGran a v).resp = s.resp := rfl
@[simp] theorem State.setGran_fab (a : Nat) (v : Word) : (s.setGran a v).fab = s.fab := rfl
@[simp] theorem State.setGran_irqHeld (a : Nat) (v : Word) : (s.setGran a v).irqHeld = s.irqHeld := rfl
@[simp] theorem State.setGran_tin (a : Nat) (v : Word) : (s.setGran a v).tin = s.tin := rfl
@[simp] theorem State.setGran_tmr (a : Nat) (v : Word) : (s.setGran a v).tmr = s.tmr := rfl
@[simp] theorem State.setGran_drl (a : Nat) (v : Word) : (s.setGran a v).drl = s.drl := rfl
@[simp] theorem State.setGran_grn (a : Nat) (v : Word) : (s.setGran a v).grn = s.grn := rfl
@[simp] theorem State.setGran_pads (a : Nat) (v : Word) : (s.setGran a v).pads = s.pads := rfl
@[simp] theorem State.setGran_acw (a : Nat) (v : Word) : (s.setGran a v).acw = s.acw := rfl
@[simp] theorem State.setGran_sec (a : Nat) (v : Word) : (s.setGran a v).sec = s.sec := rfl
@[simp] theorem State.setGran_pwr (a : Nat) (v : Word) : (s.setGran a v).pwr = s.pwr := rfl
@[simp] theorem State.setGran_procs (a : Nat) (v : Word) : (s.setGran a v).procs = s.procs := rfl
@[simp] theorem State.setGran_work (a : Nat) (v : Word) : (s.setGran a v).work = s.work := rfl
@[simp] theorem State.setGran_beams (a : Nat) (v : Word) : (s.setGran a v).beams = s.beams := rfl
@[simp] theorem State.setGran_tyk (a : Nat) (v : Word) : (s.setGran a v).tyk = s.tyk := rfl
@[simp] theorem State.setGran_hrw (a : Nat) (v : Word) : (s.setGran a v).hrw = s.hrw := rfl
@[simp] theorem State.setGran_sup (a : Nat) (v : Word) : (s.setGran a v).sup = s.sup := rfl
@[simp] theorem State.setGran_aud (a : Nat) (v : Word) : (s.setGran a v).aud = s.aud := rfl
@[simp] theorem State.setGran_lnk (a : Nat) (v : Word) : (s.setGran a v).lnk = s.lnk := rfl
@[simp] theorem State.setGran_uc (a : Nat) (v : Word) : (s.setGran a v).uc = s.uc := rfl
@[simp] theorem State.setGran_dbg (a : Nat) (v : Word) : (s.setGran a v).dbg = s.dbg := rfl
@[simp] theorem State.setGran_gln (a : Nat) (v : Word) : (s.setGran a v).gln = s.gln := rfl
@[simp] theorem State.reg_setGran (a : Nat) (v : Word) (b : Nat) : (s.setGran a v).reg b = s.reg b := rfl
@[simp] theorem State.inEff_setGran (a : Nat) (v : Word) (b : Nat) : (s.setGran a v).inEff b = s.inEff b := rfl
@[simp] theorem State.memAt_setGran (a : Nat) (v : Word) (b : Nat) : (s.setGran a v).memAt b = s.memAt b := rfl
@[simp] theorem State.proc_setGran (a : Nat) (v : Word) (b : Nat) : (s.setGran a v).proc b = s.proc b := rfl
@[simp] theorem State.beam_setGran (a : Nat) (v : Word) (b : Nat) : (s.setGran a v).beam b = s.beam b := rfl
@[simp] theorem State.respOf_setGran (a : Nat) (v : Word) (b : Nat) : (s.setGran a v).respOf b = s.respOf b := rfl

@[simp] theorem State.setProc_pending (p : Nat) (x : ProcSt) : (s.setProc p x).pending = s.pending := rfl
@[simp] theorem State.setProc_regs (p : Nat) (x : ProcSt) : (s.setProc p x).regs = s.regs := rfl
@[simp] theorem State.setProc_eff (p : Nat) (x : ProcSt) : (s.setProc p x).eff = s.eff := rfl
@[simp] theorem State.setProc_mem (p : Nat) (x : ProcSt) : (s.setProc p x).mem = s.mem := rfl
@[simp] theorem State.setProc_gran (p : Nat) (x : ProcSt) : (s.setProc p x).gran = s.gran := rfl
@[simp] theorem State.setProc_timebase (p : Nat) (x : ProcSt) : (s.setProc p x).timebase = s.timebase := rfl
@[simp] theorem State.setProc_freeCtr (p : Nat) (x : ProcSt) : (s.setProc p x).freeCtr = s.freeCtr := rfl
@[simp] theorem State.setProc_resp (p : Nat) (x : ProcSt) : (s.setProc p x).resp = s.resp := rfl
@[simp] theorem State.setProc_fab (p : Nat) (x : ProcSt) : (s.setProc p x).fab = s.fab := rfl
@[simp] theorem State.setProc_irqHeld (p : Nat) (x : ProcSt) : (s.setProc p x).irqHeld = s.irqHeld := rfl
@[simp] theorem State.setProc_tin (p : Nat) (x : ProcSt) : (s.setProc p x).tin = s.tin := rfl
@[simp] theorem State.setProc_tmr (p : Nat) (x : ProcSt) : (s.setProc p x).tmr = s.tmr := rfl
@[simp] theorem State.setProc_drl (p : Nat) (x : ProcSt) : (s.setProc p x).drl = s.drl := rfl
@[simp] theorem State.setProc_grn (p : Nat) (x : ProcSt) : (s.setProc p x).grn = s.grn := rfl
@[simp] theorem State.setProc_pads (p : Nat) (x : ProcSt) : (s.setProc p x).pads = s.pads := rfl
@[simp] theorem State.setProc_acw (p : Nat) (x : ProcSt) : (s.setProc p x).acw = s.acw := rfl
@[simp] theorem State.setProc_sec (p : Nat) (x : ProcSt) : (s.setProc p x).sec = s.sec := rfl
@[simp] theorem State.setProc_pwr (p : Nat) (x : ProcSt) : (s.setProc p x).pwr = s.pwr := rfl
@[simp] theorem State.setProc_work (p : Nat) (x : ProcSt) : (s.setProc p x).work = s.work := rfl
@[simp] theorem State.setProc_beams (p : Nat) (x : ProcSt) : (s.setProc p x).beams = s.beams := rfl
@[simp] theorem State.setProc_tyk (p : Nat) (x : ProcSt) : (s.setProc p x).tyk = s.tyk := rfl
@[simp] theorem State.setProc_hrw (p : Nat) (x : ProcSt) : (s.setProc p x).hrw = s.hrw := rfl
@[simp] theorem State.setProc_sup (p : Nat) (x : ProcSt) : (s.setProc p x).sup = s.sup := rfl
@[simp] theorem State.setProc_aud (p : Nat) (x : ProcSt) : (s.setProc p x).aud = s.aud := rfl
@[simp] theorem State.setProc_lnk (p : Nat) (x : ProcSt) : (s.setProc p x).lnk = s.lnk := rfl
@[simp] theorem State.setProc_uc (p : Nat) (x : ProcSt) : (s.setProc p x).uc = s.uc := rfl
@[simp] theorem State.setProc_dbg (p : Nat) (x : ProcSt) : (s.setProc p x).dbg = s.dbg := rfl
@[simp] theorem State.setProc_gln (p : Nat) (x : ProcSt) : (s.setProc p x).gln = s.gln := rfl
@[simp] theorem State.reg_setProc (p : Nat) (x : ProcSt) (b : Nat) : (s.setProc p x).reg b = s.reg b := rfl
@[simp] theorem State.inEff_setProc (p : Nat) (x : ProcSt) (b : Nat) : (s.setProc p x).inEff b = s.inEff b := rfl
@[simp] theorem State.memAt_setProc (p : Nat) (x : ProcSt) (b : Nat) : (s.setProc p x).memAt b = s.memAt b := rfl
@[simp] theorem State.granAt_setProc (p : Nat) (x : ProcSt) (b : Nat) : (s.setProc p x).granAt b = s.granAt b := rfl
@[simp] theorem State.beam_setProc (p : Nat) (x : ProcSt) (b : Nat) : (s.setProc p x).beam b = s.beam b := rfl
@[simp] theorem State.respOf_setProc (p : Nat) (x : ProcSt) (b : Nat) : (s.setProc p x).respOf b = s.respOf b := rfl

@[simp] theorem State.setBeam_pending (b : Nat) (x : BeamSt) : (s.setBeam b x).pending = s.pending := rfl
@[simp] theorem State.setBeam_regs (b : Nat) (x : BeamSt) : (s.setBeam b x).regs = s.regs := rfl
@[simp] theorem State.setBeam_eff (b : Nat) (x : BeamSt) : (s.setBeam b x).eff = s.eff := rfl
@[simp] theorem State.setBeam_mem (b : Nat) (x : BeamSt) : (s.setBeam b x).mem = s.mem := rfl
@[simp] theorem State.setBeam_gran (b : Nat) (x : BeamSt) : (s.setBeam b x).gran = s.gran := rfl
@[simp] theorem State.setBeam_timebase (b : Nat) (x : BeamSt) : (s.setBeam b x).timebase = s.timebase := rfl
@[simp] theorem State.setBeam_freeCtr (b : Nat) (x : BeamSt) : (s.setBeam b x).freeCtr = s.freeCtr := rfl
@[simp] theorem State.setBeam_resp (b : Nat) (x : BeamSt) : (s.setBeam b x).resp = s.resp := rfl
@[simp] theorem State.setBeam_fab (b : Nat) (x : BeamSt) : (s.setBeam b x).fab = s.fab := rfl
@[simp] theorem State.setBeam_irqHeld (b : Nat) (x : BeamSt) : (s.setBeam b x).irqHeld = s.irqHeld := rfl
@[simp] theorem State.setBeam_tin (b : Nat) (x : BeamSt) : (s.setBeam b x).tin = s.tin := rfl
@[simp] theorem State.setBeam_tmr (b : Nat) (x : BeamSt) : (s.setBeam b x).tmr = s.tmr := rfl
@[simp] theorem State.setBeam_drl (b : Nat) (x : BeamSt) : (s.setBeam b x).drl = s.drl := rfl
@[simp] theorem State.setBeam_grn (b : Nat) (x : BeamSt) : (s.setBeam b x).grn = s.grn := rfl
@[simp] theorem State.setBeam_pads (b : Nat) (x : BeamSt) : (s.setBeam b x).pads = s.pads := rfl
@[simp] theorem State.setBeam_acw (b : Nat) (x : BeamSt) : (s.setBeam b x).acw = s.acw := rfl
@[simp] theorem State.setBeam_sec (b : Nat) (x : BeamSt) : (s.setBeam b x).sec = s.sec := rfl
@[simp] theorem State.setBeam_pwr (b : Nat) (x : BeamSt) : (s.setBeam b x).pwr = s.pwr := rfl
@[simp] theorem State.setBeam_procs (b : Nat) (x : BeamSt) : (s.setBeam b x).procs = s.procs := rfl
@[simp] theorem State.setBeam_work (b : Nat) (x : BeamSt) : (s.setBeam b x).work = s.work := rfl
@[simp] theorem State.setBeam_tyk (b : Nat) (x : BeamSt) : (s.setBeam b x).tyk = s.tyk := rfl
@[simp] theorem State.setBeam_hrw (b : Nat) (x : BeamSt) : (s.setBeam b x).hrw = s.hrw := rfl
@[simp] theorem State.setBeam_sup (b : Nat) (x : BeamSt) : (s.setBeam b x).sup = s.sup := rfl
@[simp] theorem State.setBeam_aud (b : Nat) (x : BeamSt) : (s.setBeam b x).aud = s.aud := rfl
@[simp] theorem State.setBeam_lnk (b : Nat) (x : BeamSt) : (s.setBeam b x).lnk = s.lnk := rfl
@[simp] theorem State.setBeam_uc (b : Nat) (x : BeamSt) : (s.setBeam b x).uc = s.uc := rfl
@[simp] theorem State.setBeam_dbg (b : Nat) (x : BeamSt) : (s.setBeam b x).dbg = s.dbg := rfl
@[simp] theorem State.setBeam_gln (b : Nat) (x : BeamSt) : (s.setBeam b x).gln = s.gln := rfl
@[simp] theorem State.reg_setBeam (c : Nat) (x : BeamSt) (b : Nat) : (s.setBeam c x).reg b = s.reg b := rfl
@[simp] theorem State.inEff_setBeam (c : Nat) (x : BeamSt) (b : Nat) : (s.setBeam c x).inEff b = s.inEff b := rfl
@[simp] theorem State.memAt_setBeam (c : Nat) (x : BeamSt) (b : Nat) : (s.setBeam c x).memAt b = s.memAt b := rfl
@[simp] theorem State.granAt_setBeam (c : Nat) (x : BeamSt) (b : Nat) : (s.setBeam c x).granAt b = s.granAt b := rfl
@[simp] theorem State.proc_setBeam (c : Nat) (x : BeamSt) (b : Nat) : (s.setBeam c x).proc b = s.proc b := rfl
@[simp] theorem State.respOf_setBeam (c : Nat) (x : BeamSt) (b : Nat) : (s.setBeam c x).respOf b = s.respOf b := rfl

@[simp] theorem State.setWork_pending (a : Nat) (v : Word) : (s.setWork a v).pending = s.pending := rfl
@[simp] theorem State.setWork_regs (a : Nat) (v : Word) : (s.setWork a v).regs = s.regs := rfl
@[simp] theorem State.setWork_eff (a : Nat) (v : Word) : (s.setWork a v).eff = s.eff := rfl
@[simp] theorem State.setWork_mem (a : Nat) (v : Word) : (s.setWork a v).mem = s.mem := rfl
@[simp] theorem State.setWork_gran (a : Nat) (v : Word) : (s.setWork a v).gran = s.gran := rfl
@[simp] theorem State.setWork_timebase (a : Nat) (v : Word) : (s.setWork a v).timebase = s.timebase := rfl
@[simp] theorem State.setWork_freeCtr (a : Nat) (v : Word) : (s.setWork a v).freeCtr = s.freeCtr := rfl
@[simp] theorem State.setWork_resp (a : Nat) (v : Word) : (s.setWork a v).resp = s.resp := rfl
@[simp] theorem State.setWork_fab (a : Nat) (v : Word) : (s.setWork a v).fab = s.fab := rfl
@[simp] theorem State.setWork_irqHeld (a : Nat) (v : Word) : (s.setWork a v).irqHeld = s.irqHeld := rfl
@[simp] theorem State.setWork_tin (a : Nat) (v : Word) : (s.setWork a v).tin = s.tin := rfl
@[simp] theorem State.setWork_tmr (a : Nat) (v : Word) : (s.setWork a v).tmr = s.tmr := rfl
@[simp] theorem State.setWork_drl (a : Nat) (v : Word) : (s.setWork a v).drl = s.drl := rfl
@[simp] theorem State.setWork_grn (a : Nat) (v : Word) : (s.setWork a v).grn = s.grn := rfl
@[simp] theorem State.setWork_pads (a : Nat) (v : Word) : (s.setWork a v).pads = s.pads := rfl
@[simp] theorem State.setWork_acw (a : Nat) (v : Word) : (s.setWork a v).acw = s.acw := rfl
@[simp] theorem State.setWork_sec (a : Nat) (v : Word) : (s.setWork a v).sec = s.sec := rfl
@[simp] theorem State.setWork_pwr (a : Nat) (v : Word) : (s.setWork a v).pwr = s.pwr := rfl
@[simp] theorem State.setWork_procs (a : Nat) (v : Word) : (s.setWork a v).procs = s.procs := rfl
@[simp] theorem State.setWork_beams (a : Nat) (v : Word) : (s.setWork a v).beams = s.beams := rfl
@[simp] theorem State.setWork_tyk (a : Nat) (v : Word) : (s.setWork a v).tyk = s.tyk := rfl
@[simp] theorem State.setWork_hrw (a : Nat) (v : Word) : (s.setWork a v).hrw = s.hrw := rfl
@[simp] theorem State.setWork_sup (a : Nat) (v : Word) : (s.setWork a v).sup = s.sup := rfl
@[simp] theorem State.setWork_aud (a : Nat) (v : Word) : (s.setWork a v).aud = s.aud := rfl
@[simp] theorem State.setWork_lnk (a : Nat) (v : Word) : (s.setWork a v).lnk = s.lnk := rfl
@[simp] theorem State.setWork_uc (a : Nat) (v : Word) : (s.setWork a v).uc = s.uc := rfl
@[simp] theorem State.setWork_dbg (a : Nat) (v : Word) : (s.setWork a v).dbg = s.dbg := rfl
@[simp] theorem State.setWork_gln (a : Nat) (v : Word) : (s.setWork a v).gln = s.gln := rfl
@[simp] theorem State.reg_setWork (a : Nat) (v : Word) (b : Nat) : (s.setWork a v).reg b = s.reg b := rfl
@[simp] theorem State.inEff_setWork (a : Nat) (v : Word) (b : Nat) : (s.setWork a v).inEff b = s.inEff b := rfl
@[simp] theorem State.memAt_setWork (a : Nat) (v : Word) (b : Nat) : (s.setWork a v).memAt b = s.memAt b := rfl
@[simp] theorem State.granAt_setWork (a : Nat) (v : Word) (b : Nat) : (s.setWork a v).granAt b = s.granAt b := rfl
@[simp] theorem State.proc_setWork (a : Nat) (v : Word) (b : Nat) : (s.setWork a v).proc b = s.proc b := rfl
@[simp] theorem State.beam_setWork (a : Nat) (v : Word) (b : Nat) : (s.setWork a v).beam b = s.beam b := rfl
@[simp] theorem State.respOf_setWork (a : Nat) (v : Word) (b : Nat) : (s.setWork a v).respOf b = s.respOf b := rfl

@[simp] theorem State.dropWork_pending (a : Nat) : (s.dropWork a).pending = s.pending := rfl
@[simp] theorem State.dropWork_regs (a : Nat) : (s.dropWork a).regs = s.regs := rfl
@[simp] theorem State.dropWork_eff (a : Nat) : (s.dropWork a).eff = s.eff := rfl
@[simp] theorem State.dropWork_mem (a : Nat) : (s.dropWork a).mem = s.mem := rfl
@[simp] theorem State.dropWork_gran (a : Nat) : (s.dropWork a).gran = s.gran := rfl
@[simp] theorem State.dropWork_timebase (a : Nat) : (s.dropWork a).timebase = s.timebase := rfl
@[simp] theorem State.dropWork_freeCtr (a : Nat) : (s.dropWork a).freeCtr = s.freeCtr := rfl
@[simp] theorem State.dropWork_resp (a : Nat) : (s.dropWork a).resp = s.resp := rfl
@[simp] theorem State.dropWork_fab (a : Nat) : (s.dropWork a).fab = s.fab := rfl
@[simp] theorem State.dropWork_irqHeld (a : Nat) : (s.dropWork a).irqHeld = s.irqHeld := rfl
@[simp] theorem State.dropWork_tin (a : Nat) : (s.dropWork a).tin = s.tin := rfl
@[simp] theorem State.dropWork_tmr (a : Nat) : (s.dropWork a).tmr = s.tmr := rfl
@[simp] theorem State.dropWork_drl (a : Nat) : (s.dropWork a).drl = s.drl := rfl
@[simp] theorem State.dropWork_grn (a : Nat) : (s.dropWork a).grn = s.grn := rfl
@[simp] theorem State.dropWork_pads (a : Nat) : (s.dropWork a).pads = s.pads := rfl
@[simp] theorem State.dropWork_acw (a : Nat) : (s.dropWork a).acw = s.acw := rfl
@[simp] theorem State.dropWork_sec (a : Nat) : (s.dropWork a).sec = s.sec := rfl
@[simp] theorem State.dropWork_pwr (a : Nat) : (s.dropWork a).pwr = s.pwr := rfl
@[simp] theorem State.dropWork_procs (a : Nat) : (s.dropWork a).procs = s.procs := rfl
@[simp] theorem State.dropWork_beams (a : Nat) : (s.dropWork a).beams = s.beams := rfl
@[simp] theorem State.dropWork_tyk (a : Nat) : (s.dropWork a).tyk = s.tyk := rfl
@[simp] theorem State.dropWork_hrw (a : Nat) : (s.dropWork a).hrw = s.hrw := rfl
@[simp] theorem State.dropWork_sup (a : Nat) : (s.dropWork a).sup = s.sup := rfl
@[simp] theorem State.dropWork_aud (a : Nat) : (s.dropWork a).aud = s.aud := rfl
@[simp] theorem State.dropWork_lnk (a : Nat) : (s.dropWork a).lnk = s.lnk := rfl
@[simp] theorem State.dropWork_uc (a : Nat) : (s.dropWork a).uc = s.uc := rfl
@[simp] theorem State.dropWork_dbg (a : Nat) : (s.dropWork a).dbg = s.dbg := rfl
@[simp] theorem State.dropWork_gln (a : Nat) : (s.dropWork a).gln = s.gln := rfl
@[simp] theorem State.reg_dropWork (a : Nat) (b : Nat) : (s.dropWork a).reg b = s.reg b := rfl
@[simp] theorem State.inEff_dropWork (a : Nat) (b : Nat) : (s.dropWork a).inEff b = s.inEff b := rfl
@[simp] theorem State.memAt_dropWork (a : Nat) (b : Nat) : (s.dropWork a).memAt b = s.memAt b := rfl
@[simp] theorem State.granAt_dropWork (a : Nat) (b : Nat) : (s.dropWork a).granAt b = s.granAt b := rfl
@[simp] theorem State.proc_dropWork (a : Nat) (b : Nat) : (s.dropWork a).proc b = s.proc b := rfl
@[simp] theorem State.beam_dropWork (a : Nat) (b : Nat) : (s.dropWork a).beam b = s.beam b := rfl
@[simp] theorem State.respOf_dropWork (a : Nat) (b : Nat) : (s.dropWork a).respOf b = s.respOf b := rfl

@[simp] theorem State.answer_pending (r : Nat) (v : Resp) : (s.answer r v).pending = s.pending := rfl
@[simp] theorem State.answer_regs (r : Nat) (v : Resp) : (s.answer r v).regs = s.regs := rfl
@[simp] theorem State.answer_eff (r : Nat) (v : Resp) : (s.answer r v).eff = s.eff := rfl
@[simp] theorem State.answer_mem (r : Nat) (v : Resp) : (s.answer r v).mem = s.mem := rfl
@[simp] theorem State.answer_gran (r : Nat) (v : Resp) : (s.answer r v).gran = s.gran := rfl
@[simp] theorem State.answer_timebase (r : Nat) (v : Resp) : (s.answer r v).timebase = s.timebase := rfl
@[simp] theorem State.answer_freeCtr (r : Nat) (v : Resp) : (s.answer r v).freeCtr = s.freeCtr := rfl
@[simp] theorem State.answer_fab (r : Nat) (v : Resp) : (s.answer r v).fab = s.fab := rfl
@[simp] theorem State.answer_irqHeld (r : Nat) (v : Resp) : (s.answer r v).irqHeld = s.irqHeld := rfl
@[simp] theorem State.answer_tin (r : Nat) (v : Resp) : (s.answer r v).tin = s.tin := rfl
@[simp] theorem State.answer_tmr (r : Nat) (v : Resp) : (s.answer r v).tmr = s.tmr := rfl
@[simp] theorem State.answer_drl (r : Nat) (v : Resp) : (s.answer r v).drl = s.drl := rfl
@[simp] theorem State.answer_grn (r : Nat) (v : Resp) : (s.answer r v).grn = s.grn := rfl
@[simp] theorem State.answer_pads (r : Nat) (v : Resp) : (s.answer r v).pads = s.pads := rfl
@[simp] theorem State.answer_acw (r : Nat) (v : Resp) : (s.answer r v).acw = s.acw := rfl
@[simp] theorem State.answer_sec (r : Nat) (v : Resp) : (s.answer r v).sec = s.sec := rfl
@[simp] theorem State.answer_pwr (r : Nat) (v : Resp) : (s.answer r v).pwr = s.pwr := rfl
@[simp] theorem State.answer_procs (r : Nat) (v : Resp) : (s.answer r v).procs = s.procs := rfl
@[simp] theorem State.answer_work (r : Nat) (v : Resp) : (s.answer r v).work = s.work := rfl
@[simp] theorem State.answer_beams (r : Nat) (v : Resp) : (s.answer r v).beams = s.beams := rfl
@[simp] theorem State.answer_tyk (r : Nat) (v : Resp) : (s.answer r v).tyk = s.tyk := rfl
@[simp] theorem State.answer_hrw (r : Nat) (v : Resp) : (s.answer r v).hrw = s.hrw := rfl
@[simp] theorem State.answer_sup (r : Nat) (v : Resp) : (s.answer r v).sup = s.sup := rfl
@[simp] theorem State.answer_aud (r : Nat) (v : Resp) : (s.answer r v).aud = s.aud := rfl
@[simp] theorem State.answer_lnk (r : Nat) (v : Resp) : (s.answer r v).lnk = s.lnk := rfl
@[simp] theorem State.answer_uc (r : Nat) (v : Resp) : (s.answer r v).uc = s.uc := rfl
@[simp] theorem State.answer_dbg (r : Nat) (v : Resp) : (s.answer r v).dbg = s.dbg := rfl
@[simp] theorem State.answer_gln (r : Nat) (v : Resp) : (s.answer r v).gln = s.gln := rfl
@[simp] theorem State.reg_answer (r : Nat) (v : Resp) (b : Nat) : (s.answer r v).reg b = s.reg b := rfl
@[simp] theorem State.inEff_answer (r : Nat) (v : Resp) (b : Nat) : (s.answer r v).inEff b = s.inEff b := rfl
@[simp] theorem State.memAt_answer (r : Nat) (v : Resp) (b : Nat) : (s.answer r v).memAt b = s.memAt b := rfl
@[simp] theorem State.granAt_answer (r : Nat) (v : Resp) (b : Nat) : (s.answer r v).granAt b = s.granAt b := rfl
@[simp] theorem State.proc_answer (r : Nat) (v : Resp) (b : Nat) : (s.answer r v).proc b = s.proc b := rfl
@[simp] theorem State.beam_answer (r : Nat) (v : Resp) (b : Nat) : (s.answer r v).beam b = s.beam b := rfl

@[simp] theorem State.publish_pending (n : Nat) : (s.publish n).pending = s.pending := rfl
@[simp] theorem State.publish_regs (n : Nat) : (s.publish n).regs = s.regs := rfl
@[simp] theorem State.publish_eff (n : Nat) : (s.publish n).eff = s.eff := rfl
@[simp] theorem State.publish_mem (n : Nat) : (s.publish n).mem = s.mem := rfl
@[simp] theorem State.publish_gran (n : Nat) : (s.publish n).gran = s.gran := rfl
@[simp] theorem State.publish_timebase (n : Nat) : (s.publish n).timebase = s.timebase := rfl
@[simp] theorem State.publish_freeCtr (n : Nat) : (s.publish n).freeCtr = s.freeCtr := rfl
@[simp] theorem State.publish_resp (n : Nat) : (s.publish n).resp = s.resp := rfl
@[simp] theorem State.publish_fab (n : Nat) : (s.publish n).fab = s.fab := rfl
@[simp] theorem State.publish_irqHeld (n : Nat) : (s.publish n).irqHeld = s.irqHeld := rfl
@[simp] theorem State.publish_tmr (n : Nat) : (s.publish n).tmr = s.tmr := rfl
@[simp] theorem State.publish_drl (n : Nat) : (s.publish n).drl = s.drl := rfl
@[simp] theorem State.publish_grn (n : Nat) : (s.publish n).grn = s.grn := rfl
@[simp] theorem State.publish_pads (n : Nat) : (s.publish n).pads = s.pads := rfl
@[simp] theorem State.publish_acw (n : Nat) : (s.publish n).acw = s.acw := rfl
@[simp] theorem State.publish_sec (n : Nat) : (s.publish n).sec = s.sec := rfl
@[simp] theorem State.publish_pwr (n : Nat) : (s.publish n).pwr = s.pwr := rfl
@[simp] theorem State.publish_procs (n : Nat) : (s.publish n).procs = s.procs := rfl
@[simp] theorem State.publish_work (n : Nat) : (s.publish n).work = s.work := rfl
@[simp] theorem State.publish_beams (n : Nat) : (s.publish n).beams = s.beams := rfl
@[simp] theorem State.publish_tyk (n : Nat) : (s.publish n).tyk = s.tyk := rfl
@[simp] theorem State.publish_hrw (n : Nat) : (s.publish n).hrw = s.hrw := rfl
@[simp] theorem State.publish_sup (n : Nat) : (s.publish n).sup = s.sup := rfl
@[simp] theorem State.publish_aud (n : Nat) : (s.publish n).aud = s.aud := rfl
@[simp] theorem State.publish_lnk (n : Nat) : (s.publish n).lnk = s.lnk := rfl
@[simp] theorem State.publish_uc (n : Nat) : (s.publish n).uc = s.uc := rfl
@[simp] theorem State.publish_dbg (n : Nat) : (s.publish n).dbg = s.dbg := rfl
@[simp] theorem State.publish_gln (n : Nat) : (s.publish n).gln = s.gln := rfl
@[simp] theorem State.reg_publish (n : Nat) (b : Nat) : (s.publish n).reg b = s.reg b := rfl
@[simp] theorem State.inEff_publish (n : Nat) (b : Nat) : (s.publish n).inEff b = s.inEff b := rfl
@[simp] theorem State.memAt_publish (n : Nat) (b : Nat) : (s.publish n).memAt b = s.memAt b := rfl
@[simp] theorem State.granAt_publish (n : Nat) (b : Nat) : (s.publish n).granAt b = s.granAt b := rfl
@[simp] theorem State.proc_publish (n : Nat) (b : Nat) : (s.publish n).proc b = s.proc b := rfl
@[simp] theorem State.beam_publish (n : Nat) (b : Nat) : (s.publish n).beam b = s.beam b := rfl
@[simp] theorem State.respOf_publish (n : Nat) (b : Nat) : (s.publish n).respOf b = s.respOf b := rfl

@[simp] theorem State.useFree_pending : s.useFree.pending = s.pending := rfl
@[simp] theorem State.useFree_regs : s.useFree.regs = s.regs := rfl
@[simp] theorem State.useFree_eff : s.useFree.eff = s.eff := rfl
@[simp] theorem State.useFree_mem : s.useFree.mem = s.mem := rfl
@[simp] theorem State.useFree_gran : s.useFree.gran = s.gran := rfl
@[simp] theorem State.useFree_timebase : s.useFree.timebase = s.timebase := rfl
@[simp] theorem State.useFree_resp : s.useFree.resp = s.resp := rfl
@[simp] theorem State.useFree_fab : s.useFree.fab = s.fab := rfl
@[simp] theorem State.useFree_irqHeld : s.useFree.irqHeld = s.irqHeld := rfl
@[simp] theorem State.useFree_tin : s.useFree.tin = s.tin := rfl
@[simp] theorem State.useFree_tmr : s.useFree.tmr = s.tmr := rfl
@[simp] theorem State.useFree_drl : s.useFree.drl = s.drl := rfl
@[simp] theorem State.useFree_grn : s.useFree.grn = s.grn := rfl
@[simp] theorem State.useFree_pads : s.useFree.pads = s.pads := rfl
@[simp] theorem State.useFree_acw : s.useFree.acw = s.acw := rfl
@[simp] theorem State.useFree_sec : s.useFree.sec = s.sec := rfl
@[simp] theorem State.useFree_pwr : s.useFree.pwr = s.pwr := rfl
@[simp] theorem State.useFree_procs : s.useFree.procs = s.procs := rfl
@[simp] theorem State.useFree_work : s.useFree.work = s.work := rfl
@[simp] theorem State.useFree_beams : s.useFree.beams = s.beams := rfl
@[simp] theorem State.useFree_tyk : s.useFree.tyk = s.tyk := rfl
@[simp] theorem State.useFree_hrw : s.useFree.hrw = s.hrw := rfl
@[simp] theorem State.useFree_sup : s.useFree.sup = s.sup := rfl
@[simp] theorem State.useFree_aud : s.useFree.aud = s.aud := rfl
@[simp] theorem State.useFree_lnk : s.useFree.lnk = s.lnk := rfl
@[simp] theorem State.useFree_uc : s.useFree.uc = s.uc := rfl
@[simp] theorem State.useFree_dbg : s.useFree.dbg = s.dbg := rfl
@[simp] theorem State.useFree_gln : s.useFree.gln = s.gln := rfl
@[simp] theorem State.reg_useFree  (b : Nat) : (s.useFree).reg b = s.reg b := rfl
@[simp] theorem State.inEff_useFree  (b : Nat) : (s.useFree).inEff b = s.inEff b := rfl
@[simp] theorem State.memAt_useFree  (b : Nat) : (s.useFree).memAt b = s.memAt b := rfl
@[simp] theorem State.granAt_useFree  (b : Nat) : (s.useFree).granAt b = s.granAt b := rfl
@[simp] theorem State.proc_useFree  (b : Nat) : (s.useFree).proc b = s.proc b := rfl
@[simp] theorem State.beam_useFree  (b : Nat) : (s.useFree).beam b = s.beam b := rfl
@[simp] theorem State.respOf_useFree  (b : Nat) : (s.useFree).respOf b = s.respOf b := rfl

/-! ## Reading what was written -/

theorem State.reg_setReg (a b : Nat) (v : Word) : (s.setReg a v).reg b = if b = a then v else s.reg b := by
  unfold State.reg State.setReg
  by_cases h : b = a
  · subst h; simp
  · simp [h, Tab.get_put_ne _ _ _ _ h]

@[simp] theorem State.reg_setReg_same (a : Nat) (v : Word) : (s.setReg a v).reg a = v := by simp [State.reg_setReg]

theorem State.reg_setReg_ne {a b : Nat} (v : Word) (h : b ≠ a) : (s.setReg a v).reg b = s.reg b := by
  simp [State.reg_setReg, h]

theorem State.inEff_setEff (a b : Nat) (v : Word) : (s.setEff a v).inEff b = if b = a then v else s.inEff b := by
  unfold State.inEff State.setEff
  by_cases h : b = a
  · subst h; simp
  · simp [h, Tab.get_put_ne _ _ _ _ h]

@[simp] theorem State.inEff_setEff_same (a : Nat) (v : Word) : (s.setEff a v).inEff a = v := by simp [State.inEff_setEff]

theorem State.memAt_setMem (a b : Nat) (v : Word) : (s.setMem a v).memAt b = if b = a then v else s.memAt b := by
  unfold State.memAt State.setMem; exact Tab.get_put _ _ _ _ _

@[simp] theorem State.memAt_setMem_same (a : Nat) (v : Word) : (s.setMem a v).memAt a = v := by simp [State.memAt_setMem]

theorem State.granAt_setGran (a b : Nat) (v : Word) : (s.setGran a v).granAt b = if b = a then v else s.granAt b := by
  unfold State.granAt State.setGran; exact Tab.get_put _ _ _ _ _

theorem State.proc_setProc (p q : Nat) (x : ProcSt) : (s.setProc p x).proc q = if q = p then x else s.proc q := by
  unfold State.proc State.setProc; exact Tab.get_put _ _ _ _ _

@[simp] theorem State.proc_setProc_same (p : Nat) (x : ProcSt) : (s.setProc p x).proc p = x := by simp [State.proc_setProc]

theorem State.beam_setBeam (b c : Nat) (x : BeamSt) : (s.setBeam b x).beam c = if c = b then x else s.beam c := by
  unfold State.beam State.setBeam; exact Tab.get_put _ _ _ _ _

@[simp] theorem State.beam_setBeam_same (b : Nat) (x : BeamSt) : (s.setBeam b x).beam b = x := by simp [State.beam_setBeam]

theorem State.respOf_answer (r q : Nat) (v : Resp) : (s.answer r v).respOf q = if q = r then v else s.respOf q := by
  unfold State.respOf State.answer; exact Tab.get_put _ _ _ _ _

@[simp] theorem State.respOf_answer_same (r : Nat) (v : Resp) : (s.answer r v).respOf r = v := by simp [State.respOf_answer]

@[simp] theorem State.publish_waiting (n : Nat) :
    (s.publish n).tin.waiting = s.tin.waiting ++ [⟨n % 64, false⟩] := rfl

@[simp] theorem State.publish_transit (n : Nat) : (s.publish n).tin.transit = s.tin.transit := rfl

@[simp] theorem State.useFree_freeCtr : s.useFree.freeCtr = s.freeCtr + 1 := rfl

/-! ## Bits and fields of a register -/

/-- A bit set in a register: that bit reads 1, the others as before. -/
theorem State.bitAt_setBit {n : Nat} (hn : n < 24) (a b m : Nat) :
    (s.setBit a n).bitAt b m = if b = a ∧ m = n then true else s.bitAt b m := by
  simp only [State.bitAt, State.setBit, State.orReg, State.reg_setReg]
  by_cases h : b = a
  · subst h; simp only [if_true, true_and, bit_or_oneBit hn]
    by_cases hm : m = n <;> simp [hm]
  · simp [h]

/-- A bit cleared in a register: that bit reads 0, the others as before. -/
theorem State.bitAt_clrBit {n : Nat} (hn : n < 24) (a b m : Nat) :
    (s.clrBit a n).bitAt b m = if b = a ∧ m = n then false else s.bitAt b m := by
  simp only [State.bitAt, State.clrBit, State.clrReg, State.reg_setReg]
  by_cases h : b = a
  · subst h; simp only [if_true, true_and, bit_and_not_oneBit hn]
    by_cases hm : m = n <;> simp [hm]
  · simp [h]

theorem State.bitAt_putBit {n : Nat} (hn : n < 24) (a b m : Nat) (v : Bool) :
    (s.putBit a n v).bitAt b m = if b = a ∧ m = n then v else s.bitAt b m := by
  cases v <;> simp [State.putBit, State.bitAt_setBit s hn, State.bitAt_clrBit s hn]

theorem State.reg_setBit_ne {a b : Nat} (n : Nat) (h : b ≠ a) : (s.setBit a n).reg b = s.reg b := State.reg_setReg_ne s _ h

theorem State.reg_clrBit_ne {a b : Nat} (n : Nat) (h : b ≠ a) : (s.clrBit a n).reg b = s.reg b := State.reg_setReg_ne s _ h

theorem State.reg_putBit_ne {a b : Nat} (n : Nat) (v : Bool) (h : b ≠ a) : (s.putBit a n v).reg b = s.reg b := by
  cases v
  · exact State.reg_clrBit_ne s n h
  · exact State.reg_setBit_ne s n h

theorem State.reg_setFld_ne {a b : Nat} (f : Fld) (n : Nat) (h : b ≠ a) : (s.setFld a f n).reg b = s.reg b :=
  State.reg_setReg_ne s _ h

/-- A field set to `n` reads `n` modulo the field's width. -/
theorem State.fld_setFld_same (a : Nat) (f : Fld) (n : Nat) (h : f.lo ≤ f.hi) (h' : f.hi < 24) :
    (s.setFld a f n).fld a f = n % 2 ^ (f.hi - f.lo + 1) := by
  simp [State.fld, State.setFld, getF_putF_same _ _ _ h h']

/-- A field of the same register that shares no bit with the one set reads as before. -/
theorem State.fld_setFld_other (a : Nat) (f g : Fld) (n : Nat) (h : g.hi < f.lo ∨ f.hi < g.lo) (h' : f.hi < 24) (h1 : f.lo ≤ f.hi)
    (hg : g.lo ≤ g.hi) (hg' : g.hi < 24) : (s.setFld a f n).fld a g = s.fld a g := by
  simp [State.fld, State.setFld, getF_putF_other _ _ _ _ h h' h1 hg hg']

end Sys2Proof.Machine
end

