-- ==== Sys2Proof/Laws/Ops.lean ====
section
/-! SUPPORT. What the shared operations can do: counting, errors, performance counters and the way to a register change
registers only. -/
namespace Sys2Proof.Machine

variable {s t : State} {touched : Nat → Prop}

/-! ## Frames -/

theorem State.OnlyRegs.refl (touched : Nat → Prop) (s : State) : State.OnlyRegs touched s s := ⟨fun _ _ => rfl, rfl⟩

theorem State.OnlyRegs.mono {T : Nat → Prop} (h : State.OnlyRegs touched s t) (hm : ∀ a, touched a → T a) :
    State.OnlyRegs T s t := ⟨fun a ha => h.1 a (fun hb => ha (hm a hb)), h.2⟩

theorem State.OnlyRegs.trans {u : State} (h : State.OnlyRegs touched s t) (h' : State.OnlyRegs touched t u) :
    State.OnlyRegs touched s u := by
  refine ⟨fun a ha => (h'.1 a ha).trans (h.1 a ha), ?_⟩
  have e := h'.2
  rw [← h.2, ← e]

theorem State.onlyRegs_setReg {a : Nat} (v : Word) (h : State.OnlyRegs touched s t) (ha : touched a) :
    State.OnlyRegs touched s (t.setReg a v) :=
  ⟨fun b hb => (State.reg_setReg_ne t v (fun e => hb (by rw [e]; exact ha))).trans (h.1 b hb), h.2⟩

theorem State.onlyRegs_answer {r : Nat} (v : Resp) (h : State.OnlyRegs touched s t) :
    State.OnlyRegs touched s (t.answer r v) := h

theorem State.onlyRegs_setFld {a : Nat} (f : Fld) (n : Nat) (h : State.OnlyRegs touched s t) (ha : touched a) :
    State.OnlyRegs touched s (t.setFld a f n) := State.onlyRegs_setReg _ h ha

theorem State.onlyRegs_setBit {a : Nat} (n : Nat) (h : State.OnlyRegs touched s t) (ha : touched a) :
    State.OnlyRegs touched s (t.setBit a n) := State.onlyRegs_setReg _ h ha

theorem State.onlyRegs_clrBit {a : Nat} (n : Nat) (h : State.OnlyRegs touched s t) (ha : touched a) :
    State.OnlyRegs touched s (t.clrBit a n) := State.onlyRegs_setReg _ h ha

theorem State.onlyRegs_putBit {a : Nat} (n : Nat) (v : Bool) (h : State.OnlyRegs touched s t) (ha : touched a) :
    State.OnlyRegs touched s (t.putBit a n v) := by
  cases v
  · exact State.onlyRegs_clrBit n h ha
  · exact State.onlyRegs_setBit n h ha

theorem State.onlyRegs_clrReg {a : Nat} (m : Word) (h : State.OnlyRegs touched s t) (ha : touched a) :
    State.OnlyRegs touched s (t.clrReg a m) := State.onlyRegs_setReg _ h ha

theorem State.onlyRegs_orReg {a : Nat} (m : Word) (h : State.OnlyRegs touched s t) (ha : touched a) :
    State.OnlyRegs touched s (t.orReg a m) := State.onlyRegs_setReg _ h ha

theorem State.onlyRegs_bump {a : Nat} (h : State.OnlyRegs touched s t) (ha : touched a) :
    State.OnlyRegs touched s (t.bump a) := by
  unfold State.bump
  dsimp only
  split
  · exact h
  · split
    · exact State.onlyRegs_setReg _ h ha
    · exact State.onlyRegs_setReg _ h ha

theorem State.onlyRegs_flag (x : Option (Nat × Nat)) (h : State.OnlyRegs touched s t) (hx : ∀ y, x = some y → touched y.1) :
    State.OnlyRegs touched s (t.flag x) := by
  cases x with
  | none => exact h
  | some y => exact State.onlyRegs_setBit _ h (hx y rfl)

/-- The registers that counting an error at a place may change. -/
def ErrPlace.touches (p : ErrPlace) (a : Nat) : Prop :=
  a = p.cnt ∨ (∃ y, p.last = some y ∧ a = y.1) ∨ (∃ y, p.errEvt = some y ∧ a = y.1) ∨ ∃ y, p.satEvt = some y ∧ a = y.1

theorem State.onlyRegs_countAt (p : ErrPlace) (c : Nat) (h : State.OnlyRegs touched s t) (hp : ∀ a, p.touches a → touched a) :
    State.OnlyRegs touched s (t.countAt p c) := by
  unfold State.countAt
  extract_lets sat s1 s2 s3
  have h1 : State.OnlyRegs touched s s1 := State.onlyRegs_bump h (hp _ (Or.inl rfl))
  have h2 : State.OnlyRegs touched s s2 := by
    simp only [s2]
    cases hl : p.last with
    | none => exact h1
    | some y => exact State.onlyRegs_setFld _ _ h1 (hp _ (Or.inr (Or.inl ⟨y, hl, rfl⟩)))
  have h3 : State.OnlyRegs touched s s3 :=
    State.onlyRegs_flag _ h2 (fun y hy => hp _ (Or.inr (Or.inr (Or.inl ⟨y, hy, rfl⟩))))
  split
  · exact State.onlyRegs_flag _ h3 (fun y hy => hp _ (Or.inr (Or.inr (Or.inr ⟨y, hy, rfl⟩))))
  · exact h3

/-- Counting an error changes the registers of its place only. -/
theorem State.onlyRegs_err (w c : Nat) (h : State.OnlyRegs touched s t) (hp : ∀ a, (errPlace w).touches a → touched a) :
    State.OnlyRegs touched s (t.err w c) := State.onlyRegs_countAt _ _ h hp

theorem State.onlyRegs_foldl {α : Type} {f : State → α → State} (l : List α) (h : State.OnlyRegs touched s t)
    (hf : ∀ u a, State.OnlyRegs touched s u → State.OnlyRegs touched s (f u a)) :
    State.OnlyRegs touched s (l.foldl f t) := by
  induction l generalizing t with
  | nil => exact h
  | cons a l ih => exact ih (hf t a h)

theorem State.onlyRegs_forN {f : Nat → State → State} (n : Nat) (h : State.OnlyRegs touched s t)
    (hf : ∀ i u, i < n → State.OnlyRegs touched s u → State.OnlyRegs touched s (f i u)) :
    State.OnlyRegs touched s (forN n f t) := by
  unfold forN
  have key : ∀ (l : List Nat) (u : State), (∀ i ∈ l, i < n) → State.OnlyRegs touched s u →
      State.OnlyRegs touched s (l.foldl (fun acc i => f i acc) u) := by
    intro l
    induction l with
    | nil => intro u _ hu; exact hu
    | cons i l ih =>
      intro u hl hu
      exact ih _ (fun j hj => hl j (List.mem_cons_of_mem i hj)) (hf i u (hl i List.mem_cons_self) hu)
  exact key _ t (fun i hi => List.mem_range.mp hi) h

theorem State.onlyRegs_glnAdd (u fuel k n : Nat) (hu : u < 24) (hk : k < 4) (h : State.OnlyRegs touched s t)
    (hg : ∀ a, inGlean a → touched a) : State.OnlyRegs touched s (t.glnAdd u fuel k n) := by
  have hc : ∀ k, k < 4 → inGlean (Reg.GLN_CNT u k) := by
    intro k hk; unfold inGlean Reg.GLN_CNT; omega
  have hf : ∀ k, k < 4 → inGlean (Reg.GLN_CCFG u k) := by
    intro k hk; unfold inGlean Reg.GLN_CCFG; omega
  induction fuel generalizing t k n with
  | zero => exact h
  | succ m ih =>
    unfold State.glnAdd
    dsimp only
    split
    · exact h
    · split
      · exact State.onlyRegs_setReg _ h (hg _ (hc k hk))
      · split
        · rename_i hb
          simp only [Bool.and_eq_true, decide_eq_true_eq] at hb
          exact ih _ _ (by omega) (State.onlyRegs_setReg _ h (hg _ (hc k hk)))
        · exact State.onlyRegs_setBit _ (State.onlyRegs_setBit _ (State.onlyRegs_setReg _ h (hg _ (hc k hk))) (hg _ (hf k hk)))
            (hg _ (by unfold inGlean Reg.GLN_EVT; omega))

/-- A counted event changes performance counters only (R464, R465). -/
theorem State.onlyRegs_perf (u c n : Nat) (hu : u < 24) (h : State.OnlyRegs touched s t) (hg : ∀ a, inGlean a → touched a) :
    State.OnlyRegs touched s (t.perf u c n) := by
  unfold State.perf
  split
  · exact h
  · refine State.onlyRegs_forN 4 h (fun k v hk hv => ?_)
    split
    · exact State.onlyRegs_glnAdd u 4 k n hu hk hv hg
    · exact hv

/-! ## Counting -/

/-- Counting adds one up to 0xFFFF (R59). -/
theorem State.bump_count (s : State) (a : Nat) :
    (s.bump a).fld a ⟨15, 0⟩ = min 65535 (s.fld a ⟨15, 0⟩ + 1) := by
  have hg : ∀ w : Word, getF w ⟨15, 0⟩ = w.toNat % 65536 := by
    intro w
    have : maskF ⟨15, 0⟩ = 65535#24 := by decide
    simp only [getF, this, BitVec.ushiftRight_zero]
    rw [BitVec.toNat_and]
    exact Nat.and_two_pow_sub_one_eq_mod w.toNat 16
  unfold State.bump State.fld
  simp only [hg]
  have hw := (s.reg a).isLt
  split
  · rename_i h; rw [h]; rfl
  · split
    · rename_i h1 h2
      rw [State.reg_setReg_same, BitVec.toNat_or]
      have h3 : (s.reg a + 1).toNat % 65536 = 65535 := by
        rw [BitVec.toNat_add]; simp; omega
      have h4 : (oneBit 23).toNat = 8388608 := by decide
      rw [h4]
      have : ∀ x : Nat, x % 65536 = 65535 → (x ||| 8388608) % 65536 = 65535 := by
        intro x hx
        have h5 : (65536 : Nat) = 2 ^ 16 := rfl
        rw [h5, Nat.or_mod_two_pow, ← h5, hx]; rfl
      rw [this _ h3, h2]; rfl
    · rename_i h1 h2
      rw [State.reg_setReg_same, BitVec.toNat_add]
      simp
      omega

/-- The way open, the write happens and the answer is good. -/
theorem State.regCmd_open {r a : Nat} (f : State → State) (h : s.Opens r a) :
    s.regCmd r a f = (f s).answer r ⟨0, [], .ok⟩ := by
  unfold State.Opens at h
  simp [State.regCmd, h]

end Sys2Proof.Machine
end

