-- ==== Sys2Proof/WellFormed.lean ====
section
/-! DEFINITION. Which commands have operands of the shape that their rule allows. Every number in a command has the width of
its field; what is left to check is how many words, samples or values an operand lists. -/
namespace Sys2Proof

/-- A transaction moves 1 to 12 words (R45). -/
def TxnOp.wf : TxnOp → Bool
  | .read n => decide (1 ≤ n ∧ n ≤ 12)
  | .write ws => decide (1 ≤ ws.length ∧ ws.length ≤ 12)

/-- A Tyskaolo frame holds its 4-word header and LEN payload words, LEN at most 1,020 (R320). -/
def tykFrameWf (f : List Word) : Bool := decide (4 ≤ f.length ∧ f.length = 4 + (f.getD 0 0).toNat % 65536 ∧ f.length ≤ 1024)

/-- A lane frame holds at most 1,020 payload words, and a check of 2 words or a tag of 6 (R368). -/
def LinkFrame.wf (f : LinkFrame) : Bool :=
  decide (f.payload.length ≤ 1020) && (f.cut || decide (f.check.length = if f.keyid = 0 then 2 else 6))

/-- The command's operands list as many words as its rule says: a transaction 1 to 12 (R45), WRN 1 to 16 values (R149), a Drill
burst the numbers of at most 14 peripheral FIFOs (R427), a TDM frame 8 slots (R199), the microphones and the analog inputs 4
samples each (R179, R227), a watcher frame 320 samples of each of 4 microphones (R234), a CAP block 5 words (R363); a lane frame
and a Tyskaolo frame have their lengths (R368, R320). -/
def Instr.wf : Instr → Bool
  | .transactionIssue _ _ _ op => op.wf
  | .drillBurst fifo _ _ => decide (fifo.length ≤ 14)
  | .furrowWrn _ _ vs => decide (1 ≤ vs.length ∧ vs.length ≤ 16)
  | .tdmFrame _ slots => decide (slots.length = 8)
  | .audioIndexCompute pdm sns => decide (pdm.length = 4 ∧ sns.length = 4)
  | .watcherFrame mics => decide (mics.length = 4) && mics.all (fun m => decide (m.length = 320))
  | .capFrame _ f => f.wf && decide (f.payload.length = 5)
  | .timeFrame _ f | .streamFrame _ f | .ctrlFrame _ f | .joinFrame _ f | .joinAccept _ f | .joinRefuse _ f
  | .ringFrame _ f | .beatFrame _ f => f.wf
  | .hello _ f | .ack _ f | .dirRead _ f | .sceneSet _ f | .memWrite _ f | .memRead _ f | .agent _ f | .sheaf _ f
  | .sheafCancel _ f | .stageData _ f | .stageCommit _ f | .stageStart _ f | .stageList _ f | .nrCtrl _ f | .nrLog _ f
  | .ovrClear _ f | .plotAssign _ f | .plotCtrl _ f | .plotDelegate _ f | .plotQos _ f | .certRead _ f | .certEnrol _ f
  | .fwWrite _ f | .fwActivate _ f | .linkStatus _ f | .linkRoute _ f => tykFrameWf f
  | _ => true

end Sys2Proof
end

