-- ==== Sys2Proof/Tests/Slice0.lean ====
section
/-! SUPPORT. Tests: operands of a shape that no rule allows are refused, worked examples of the spec, and for every statement
that has hypotheses concrete states and operands that meet them, clause by clause, at boundary values. -/
namespace Sys2Proof.Tests
open Sys2Proof Sys2Proof.Machine
set_option Elab.async false

/-! ## The states of the tests -/

/-- The device after start-up: every domain on, field memory ready, all banks awake, cores and Steward free to run. -/
def up : State :=
  ({ State.reset with
      procs := (List.range 17).map (fun p => (p, { parked := false }))
      pwr := { pd0Runs := true, started := true, booted := true } : State }.setReg Reg.PWR_DOMSTAT 0xFFFFF
    |>.setBit Reg.FAB_STAT 0).setBit Reg.FAB_CTRL 0

/-- What holds of the state that a command leaves; false where it leaves none. -/
def after (i : Instr) (s : State) (P : State → Bool) : Bool :=
  match exec i s with
  | .next t => P t
  | _ => false

/-- The command is refused as ill formed. -/
def refuses (i : Instr) : Bool :=
  match exec i up with
  | .refused r => r == .illFormed
  | _ => false

/-! ## Operands that no rule allows -/

theorem test_transactions_of_no_word_and_of_13_words_are_ill_formed :
    (Instr.transactionIssue 0 0 0 (.read 0)).wf = false ∧
    (Instr.transactionIssue 0 0 0 (.write (List.replicate 13 0))).wf = false ∧
    refuses (.transactionIssue 0 0 0 (.read 0)) = true ∧
    refuses (.transactionIssue 0 0 0 (.write (List.replicate 13 0))) = true := by decide +kernel

theorem test_wrn_of_no_value_and_of_17_values_is_ill_formed :
    (Instr.furrowWrn 0 0 []).wf = false ∧ (Instr.furrowWrn 0 0 (List.replicate 17 0)).wf = false ∧
    (Instr.furrowWrn 0 0 [0]).wf = true ∧ (Instr.furrowWrn 0 0 (List.replicate 16 0)).wf = true ∧
    refuses (.furrowWrn 0 0 []) = true ∧ refuses (.furrowWrn 0 0 (List.replicate 17 0)) = true := by decide +kernel

theorem test_lists_of_slots_samples_bins_and_capabilities_have_their_length :
    (Instr.tdmFrame 0 (List.replicate 7 0)).wf = false ∧ (Instr.tdmFrame 0 (List.replicate 8 0)).wf = true ∧
    (Instr.audioIndexCompute (List.replicate 3 0) (List.replicate 4 0)).wf = false ∧
    (Instr.audioIndexCompute (List.replicate 4 0) (List.replicate 4 0)).wf = true ∧
    (Instr.watcherFrame (List.replicate 4 (List.replicate 319 0))).wf = false ∧
    (Instr.watcherFrame (List.replicate 3 (List.replicate 320 0))).wf = false ∧
    (Instr.watcherFrame (List.replicate 4 (List.replicate 320 0))).wf = true ∧
    (Instr.drillBurst (List.replicate 15 0) .ok .ok).wf = false ∧ (Instr.drillBurst (List.replicate 14 0) .ok .ok).wf = true := by
  decide +kernel

theorem test_lane_frames_have_a_check_or_a_tag_of_their_length :
    (Instr.capFrame 0 { payload := List.replicate 4 0, check := [0, 0] }).wf = false ∧
    (Instr.capFrame 0 { payload := List.replicate 5 0, check := [0, 0] }).wf = true ∧
    (Instr.timeFrame 0 { keyid := 1, payload := [0], check := [0, 0] }).wf = false ∧
    (Instr.timeFrame 0 { keyid := 1, payload := [0], check := List.replicate 6 0 }).wf = true := by decide +kernel

theorem test_frames_have_the_length_that_their_header_gives :
    tykFrameWf [0, 0, 0] = false ∧ tykFrameWf [0, 0, 0, 0] = true ∧ tykFrameWf [1, 0, 0, 0] = false ∧
    tykFrameWf [1, 0, 0, 0, 7] = true ∧ tykFrameWf (wd 1021 :: List.replicate 1024 0) = false ∧
    tykFrameWf (wd 1020 :: List.replicate 1023 0) = true := by decide +kernel

/-! ## The statements' hypotheses can be met -/

/-- As `up`, with `FAB_CTRL.FMEN` still 0 and the initialisation not done. -/
def cold : State := (up.clrBit Reg.FAB_CTRL 0).clrBit Reg.FAB_STAT 0

/-- A transaction of plot 3's core 2 in flight. -/
def txn3 (op : TxnOp) : Txn := ⟨5, 2, 3, .normal, 0xFFFFFF, op, none, 1⟩

theorem witness_FabricMeasuresAndTimeouts :
    ((16 : Nat) ≤ 16 → (up.proc 16).wait = none ∧ (up.proc 16).drains = []) ∧
    (∀ s, s = up.updProc 15 (fun x => { x with wait := some (.load 1 0x8120000 24 none 0 false) }) →
      s.waitsAtPort 15 15 = true ∧ s.waitsAtPort 15 0 = false ∧ (s.proc 15).exit = none) := by
  simp only [forall_eq]; and_intros <;> decide +kernel

theorem witness_FieldMemoryStartAndBankSleep :
    (cold.Opens 25 Reg.FAB_CTRL ∧ cold.bitAt Reg.FAB_CTRL 0 = false) ∧
    (cold.setBit Reg.FAB_STAT 1).bitAt Reg.FAB_STAT 1 = true ∧
    (up.bitAt Reg.FAB_CTRL 1 = true ∧ (∀ x ∈ up.fab.inflight, up.txnBank x.addr ≠ some 31) ∧
      150 + 4 * up.fld Reg.FAB_SLPCFG Fd.FAB_SLPCFG_GUARD < up.declareAll.fld Reg.FAB_TOL Fd.FAB_TOL_TOL) ∧
    (∀ s, s = up.setBit (slpReg 31) 15 → s.sleeps 31 = true ∧ s.fab.waking.getLsbD 31 = false) ∧
    (∀ s, s = { up with fab := { up.fab with waking := 1 } } → s.fab.waking.getLsbD 0 = true) ∧
    up.Opens 25 Reg.FAB_TAGPEAK := by
  unfold State.Opens; simp only [forall_eq]; and_intros <;> decide +kernel

/-- Plot 7 may use semaphore 255. -/
def semOpen : State := up.setReg (Reg.FAB_SEMACL 255) 0x80
/-- As `semOpen`, held by core 3 for plot 7. -/
def semHeld : State := semOpen.setHolder 255 (some (7, 3))
/-- Core 3 belongs to plot 7. -/
def core3 (s : State) : State := s.setFld (Reg.PLT_OWN 0 3) Fd.PLT_OWN_OWNER 7

theorem witness_SemaphoreReadsAcquireForThePlotOfTheView :
    (∀ s, s = core3 semOpen → s.gate 3 (s.reqPlot 3) (Reg.FAB_SEMV 7 255) false = none ∧
      s.semMay 7 255 = true ∧ s.semHolder 255 = none ∧ s.semMay 7 0 = false) ∧
    (∀ s, s = core3 semHeld → s.gate 3 (s.reqPlot 3) (Reg.FAB_SEMV 7 255) false = none ∧
      s.semMay 7 255 = true ∧ s.semHolder 255 = some (7, 3)) ∧
    (∀ s, s = semHeld → s.gate 25 (s.reqPlot 25) (Reg.FAB_SEMV 7 255) false = none ∧ s.semHolder 255 = some (7, 3)) ∧
    (semOpen.gate 25 (semOpen.reqPlot 25) (Reg.FAB_SEMV 7 255) false = none ∧ semOpen.semHolder 255 = none) := by
  simp only [forall_eq]; and_intros <;> decide +kernel

theorem witness_SemaphoreReleaseWaitAndCreditWrites :
    (∀ s, s = core3 semHeld → s.Opens 3 (Reg.FAB_SEMV 7 255) ∧ s.semHolder 255 = some (7, 3) ∧
      s.semMay 7 255 = true ∧ s.semHolder 255 ≠ none) ∧
    (∀ s, s = core3 semOpen → s.Opens 3 (Reg.FAB_SEMV 7 255) ∧ s.semHolder 255 ≠ some (7, 3)) ∧
    up.Opens 16 (Reg.FAB_SEMACL 255) ∧
    (up.Opens 25 (Reg.FAB_CRD 25) ∧
      (List.range 26).foldl (fun a m => a + if m = 25 then getF 0x004 Fd.FAB_CRD_GUAR
        else up.fld (Reg.FAB_CRD m) Fd.FAB_CRD_GUAR) 0 ≤ 4032 ∧
      getF 0xFFF004 Fd.FAB_CRD_GUAR ≤ getF 0xFFF004 Fd.FAB_CRD_LIMIT ∧
      getF 0x001002 Fd.FAB_CRD_LIMIT < getF 0x001002 Fd.FAB_CRD_GUAR) := by
  unfold State.Opens; simp only [forall_eq]; and_intros <;> decide +kernel

/-- Plot 3 fenced at the fabric, not done. -/
def fencing : State := up.setBit Reg.FAB_FENCE 3

theorem witness_FabricFenceOfAPlot :
    (up.Opens 16 Reg.FAB_FENCE ∧ up.bitAt Reg.FAB_FENCE 7 = false) ∧
    (∀ s, s = { fencing with fab := { fencing.fab with inflight := [txn3 (.read 12)] } } →
      s.bitAt Reg.FAB_FENCE 3 = true ∧ s.bitAt Reg.FAB_FENCE 11 = false ∧
      (∀ x ∈ s.fab.inflight, x.plot = 3 → opWrites x.op = false) ∧
      ∀ c, c < 16 → s.corePlot c = 3 → (s.proc c).wait = none ∧ (s.proc c).drains = []) ∧
    (fencing.bitAt Reg.FAB_FENCE 3 = true ∧ fencing.bitAt Reg.FAB_FENCE 11 = false ∧
      fencing.reg (Reg.FAB_PLOTOUT 3) = 0) := by
  unfold State.Opens; simp only [forall_eq]; and_intros <;> decide +kernel

theorem witness_FenceReleaseNeedsDone :
    (fencing.Opens 16 Reg.FAB_FENCE ∧ fencing.bitAt Reg.FAB_FENCE 11 = false) ∧
    ((fencing.setBit Reg.FAB_FENCE 11).Opens 16 Reg.FAB_FENCE ∧
      (fencing.setBit Reg.FAB_FENCE 11).bitAt Reg.FAB_FENCE 11 = true) := by
  unfold State.Opens; and_intros <;> decide +kernel

theorem witness_WritesFollowAccessCodeAndClass :
    (up.Opens 25 (0x8120000 + 0x17) ∧ up.Opens 25 (0x8120000 + 0x1F) ∧ up.Opens 25 (0x8120000 + 9) ∧
      up.lockRefuses (0x8120000 + 0x1F) 5 = false) ∧
    (up.Opens 25 Reg.FAB_REFCFG ∧ up.lockRefuses Reg.FAB_REFCFG 1 = false) ∧
    (up.Opens 25 Reg.FAB_MAPCFG ∧ up.bitAt Reg.FAB_CTRL 0 = true ∧ up.lockRefuses Reg.FAB_MAPCFG 1 = false ∧
      bit (0 : Word) 0 = up.bitAt Reg.FAB_MAPCFG 0 ∧ bit (1 : Word) 0 ≠ up.bitAt Reg.FAB_MAPCFG 0) ∧
    (regionOf 0xFFFFFFF = .unmapped ∧ up.refuses (up.reqPlot 16) = false) ∧
    up.refuses (up.corePlot 15) = false ∧
    (∀ s, s = { up with acw := { up.acw with mirror := [0, 7] } } → (7 : BitVec 16).toNat ∈ s.acw.mirror) := by
  unfold State.Opens; simp only [forall_eq]; and_intros <;> decide +kernel

/-- No requester may hold a tag. -/
def tagless : State := up.setReg (Reg.FAB_CRD 21) 0

theorem witness_TransactionsSnoopsAndWritebacks :
    (opOk (.write (List.replicate 12 0)) = true ∧ 0 % 12 + opLen (.write (List.replicate 12 0)) ≤ 12 ∧
      up.gate 21 (up.txnPlot 21 0) 0 true = none ∧ (up.drawTag 21 (classOf 21 (.write (List.replicate 12 0)))).isSome = true) ∧
    (∀ s, s = tagless → opOk (.read 1) = true ∧ 11 % 12 + opLen (.read 1) ≤ 12 ∧
      s.gate 21 (s.txnPlot 21 0) 11 false = none ∧ s.drawTag 21 (classOf 21 (.read 1)) = none) ∧
    (opOk (.read 2) = true ∧ 11 + opLen (.read 2) ≤ fieldWords ∧ 12 < 11 % 12 + opLen (.read 2) ∧
      up.gate 21 (up.txnPlot 21 0) 11 false = none) ∧
    (∀ s, s = { up with fab := { up.fab with inflight := [⟨5, 2, 3, .normal, fieldWords - 1, .read 1, none, 1⟩] } } →
      fieldWords - 1 < fieldWords ∧ s.fab.inflight = [⟨5, 2, 3, .normal, fieldWords - 1, .read 1, none, 1⟩] ∧
      s.sleeps (s.bank (fieldWords - 1)) = false ∧ s.memReady = true ∧ s.fab.snoops = [] ∧ s.uc.lock = none ∧
      s.fab.waiters = []) ∧
    (∀ l : CLine, l = ⟨0x3FFF, .modified, List.replicate 12 7⟩ → ∀ s, s = { up with procs := Tab.put {} up.procs 15 { dcache := [l] }, fab := { up.fab with snoops := [⟨15, 0x3FFF, true⟩] } } →
      s.fab.snoops = [⟨15, 0x3FFF, true⟩] ∧ s.cached 15 0x3FFF = some l ∧ l.st = .modified) ∧
    (∀ s, s = { up with fab := { up.fab with wbs := [⟨15, 0, List.replicate 12 7⟩] } } →
      s.fab.wbs = [⟨15, 0, List.replicate 12 7⟩]) := by
  simp only [forall_eq]; and_intros <;> decide +kernel

theorem witness_AnEmptyQueueIsOneTimebaseTick :
    (up.pending = [] ∧ up.dom 2 = true) ∧ (State.reset.pending = [] ∧ State.reset.dom 2 = false) := by and_intros <;> decide +kernel

theorem witness_EveryStepKeepsTheStateSound :
    ∀ s, s = { up with pending := [.plotFence 16 3, .refreshCycle 0] } →
      s.Canon ∧ (match step s with
        | .next t => t.pending == [.refreshCycle 0]
        | _ => false) = true := by
  simp only [forall_eq]
  exact ⟨⟨by decide +kernel, by decide +kernel, by decide +kernel, by decide +kernel, by decide +kernel, by decide +kernel,
    by decide +kernel, by decide +kernel⟩, by decide +kernel⟩

/-- 640 × 480 in 800 × 525 at 60 Hz, staged at beam 1. -/
def timed : State :=
  ((((((((up.setReg (Reg.BM_HACT 1) 640).setReg (Reg.BM_HTOTAL 1) 800).setReg (Reg.BM_HSYNC 1) 0x060010).setReg (Reg.BM_VACT 1)
    480).setReg (Reg.BM_VTOTAL 1) 525).setReg (Reg.BM_VSYNC 1) 0x00200A).setReg (Reg.BM_FRNUM 1) 60).setReg (Reg.BM_FRDEN 1) 1)

/-- Beam 0 runs, locked to `GLK_IN`, 60 Hz in effect, its last edge at tick 0. -/
def locked : State :=
  { (((up.setFld (Reg.BM_TCTRL 0) Fd.BM_TCTRL_STATE 2).setEff (Reg.BM_FRNUM 0) 60).setEff (Reg.BM_FRDEN 0) 1).setEff
      (Reg.BM_TCTRL 0) (putF 0 Fd.BM_TCTRL_SRC 1) with timebase := 4166667 }.updGen 0 (fun g => { g with last := some 0 })

theorem witness_TimingGeneratorStartsStopsAndLocks :
    (timed.Opens 25 (Reg.BM_TCTRL 1) ∧ timed.bitAt (Reg.BM_TCTRL 1) 0 = false ∧ timingValid (timed.stagedSet 1) = true) ∧
    (∀ s, s = timed.setReg (Reg.BM_FRDEN 1) 0 → s.Opens 25 (Reg.BM_TCTRL 1) ∧ s.bitAt (Reg.BM_TCTRL 1) 0 = false ∧
      timingValid (s.stagedSet 1) = false) ∧
    (∀ s, s = timed.setBit (Reg.BM_TCTRL 1) 0 → s.Opens 25 (Reg.BM_TCTRL 1) ∧ s.bitAt (Reg.BM_TCTRL 1) 0 = true) ∧
    (∀ s, s = timed.setFld (Reg.BM_TCTRL 1) Fd.BM_TCTRL_STATE 3 → s.Opens 25 (Reg.BM_TCTRL 1) ∧
      timingValid (s.stagedSet 1) = true ∧ s.genState 1 ≠ 0) ∧
    ((up.updGen 1 (fun g => { g with acq := .pll })).beam 1).gen.acq = .pll ∧
    (locked.genState 0 = 2 ∧ locked.extLock 0 = true) ∧
    (locked.genState 1 = 0 ∧ true ≠ locked.bitAt (Reg.BM_GLKCFG 0) 23 ∧ (locked.beam 0).gen.last = some 0 ∧
      locked.onePeriod 0 (locked.timebase.toNat - 0) = true) := by
  unfold State.Opens; simp only [forall_eq]; and_intros <;> decide +kernel

/-- Beam 1 runs with 2 active lines of 65 pixels in 10 lines. -/
def beam1 : State :=
  (((up.setFld (Reg.BM_TCTRL 1) Fd.BM_TCTRL_STATE 2).setEff (Reg.BM_VACT 1) 2).setEff (Reg.BM_HACT 1) 65).setEff
    (Reg.BM_VTOTAL 1) 10

theorem witness_BeamRunsThroughHeadlandsAndLines :
    (∀ s, s = beam1.updOut 1 (fun o => { o with sending := some 0, framed := true }) → s.inFH 1 = false ∧
      (s.beam 1).out.sending = some 0 ∧ (s.beam 1).out.framed = true ∧ (s.beam 1).gen.acq ≠ .grid ∧ 0 + 1 < s.vact 1) ∧
    (∀ s, s = beam1.setTpos 1 true true 8 → s.inFH 1 = true ∧ (s.beam 1).gen.acq ≠ .grid ∧
      (s.beam 1).out.framed = false ∧ s.lineNow 1 + 1 < (s.inEff (Reg.BM_VTOTAL 1)).toNat ∧
      (s.inEff (Reg.BM_VTOTAL 1)).toNat ≤ 8191) ∧
    (∀ s, s = beam1.updOut 1 (fun o => { o with sending := some 1, framed := true }) → s.genState 1 = 2 ∧
      (s.beam 1).out.sending = some (s.vact 1 - 1) ∧ (s.beam 1).out.framed = true ∧ (s.beam 1).gen.tgo = none ∧
      (s.beam 1).gen.acq = .none ∧ s.pwr.target = none ∧ ((s.beam 1).out.capOn = true → 16 * (s.inEff (Reg.BM_CAPBASE 1)).toNat +
        s.vact 1 * s.effFld (Reg.BM_CAPSTRIDE 1) Fd.BM_CAPSTRIDE_STRIDE + s.hact 1 ≤ fieldWords)) ∧
    (beam1.setTpos 1 true true 8191).inFH 1 = true ∧
    (∀ s, s = beam1.updOut 1 (fun o => { o with sending := some 0 }) →
      (s.beam 1).out.sending = some 0 ∧ (s.beam 1).out.framed = false ∧ (s.beam 1).gen.acq ≠ .grid ∧ s.inFH 1 = false) ∧
    (∀ s, s = (beam1.setTpos 1 true true 0).updComp 1 (fun c => { c with next := 1, store := [(0, []), (0, [])] }) →
      (s.beam 1).comp.line = none ∧ (s.beam 1).comp.next < s.vact 1 ∧ (s.beam 1).comp.store.length < 3 ∧
      s.lineOpen 1 (s.beam 1).comp.next = true ∧ s.furEnded 1 (s.beam 1).comp.next = true) ∧
    (∀ s, s = beam1.updComp 1 (fun c => { c with line := some 1, seg := 0 }) → (s.beam 1).comp.line = some 1 ∧
      (∀ h, h < 65 → s.flatAddr 1 h 1 < fieldWords) ∧ s.hact 1 = 65 ∧ 64 * ((s.beam 1).comp.seg + 1) < s.hact 1) ∧
    (∀ s, s = beam1.updComp 1 (fun c => { c with line := some 1, seg := 1 }) → (s.beam 1).comp.line = some 1 ∧
      (∀ h, h < 65 → s.flatAddr 1 h 1 < fieldWords) ∧ s.hact 1 = 65 ∧ s.hact 1 ≤ 64 * ((s.beam 1).comp.seg + 1)) := by
  simp only [forall_eq]; and_intros <;> decide +kernel

theorem witness_PaletteCopyAndWatchedRegions :
    (up.Opens 25 (Reg.BM_PAL 1 0) ∧ up.Opens 25 (Reg.BM_PAL 1 4095)) ∧
    ((up.updOut 1 (fun o => { o with capEnd := some (65536, true, true) })).beam 1).out.capEnd = some (65536, true, true) ∧
    (∀ m ∈ [1, 2], ((up.updRegion 1 15 (fun r => { r with ended := some (m, 0, 0, 3) })).region 1 15).ended =
      some (m, 0, 0, 3)) ∧
    (~~~ ((up.updRegion 1 15 (fun r => { r with ended := some (2, 0, 1, 3) })).region 1 15).crc).toNat = 0 ∧
    ((up.updRegion 1 15 (fun r => { r with noframeAt := some 0 })).region 1 15).noframeAt = some 0 ∧ 0 ≤ up.timebase.toNat ∧
    (∀ s, s = up.updRegion 1 15 (fun r => { r with sig := some (0xCBF43926, 65536) }) →
      s.Opens 25 (Reg.BM_WR_CTRL 1 15) ∧ (s.region 1 15).sig = some (0xCBF43926, 65536)) := by
  unfold State.Opens; simp only [forall_eq]; and_intros <;> decide +kernel

/-- Beam 0's Furrow engine runs the section of line 4095 and has come to the last program word, with `ws` from there on. -/
def fur0 (ws : List Word) : State :=
  up.updFur 0 (fun f => { f with run := some 4095, words := 254, writes := 63, pos := 2 ^ 20 - 1, win := 2 ^ 20 - 1, held := ws })

theorem witness_FurrowWritesAreQueuedForTheirLine :
    (∀ s, s = fur0 [0x101FFF, 7] → s.furIns 0 = some (.wr 0x1FFF 7) ∧
      s.furReady 0 = true ∧ (s.fur 0).run = some 4095 ∧ (s.fur 0).skip = 0 ∧ (s.fur 0).writes < 64 ∧ (s.fur 0).words + 2 ≤ 256 ∧
      (∀ o ∈ [0x20, 0x30, 0x3F, 0x81, 0x82, 0x101, 0x179, 0x189, 0x1AF, 0x1000, 0x1FFF], furWritable o = true ∧
        (s.ownerBM 0 o).allows (s.ownerRes 1 0) true = true)) ∧
    (∀ s, s = fur0 [0x400020, 0xFFFFFF] → s.furIns 0 = some (.add 0x20 0xFFFFFF)) ∧
    (∀ s, s = up.updFur 0 (fun f => { f with run := some 0, words := 239, writes := 48, held := 0x201FF0 :: List.replicate 16 5 }) →
      s.furReady 0 = true ∧ s.furIns 0 = some (.wrn 0x1FF0 (List.replicate 16 5)) ∧
      (s.fur 0).words + 1 + 16 ≤ 256 ∧ (s.fur 0).writes + 16 ≤ 64 ∧
      ∀ i, i < 16 → furWritable (0x1FF0 + i) = true ∧ (s.ownerBM 0 (0x1FF0 + i)).allows (s.ownerRes 1 0) true = true) ∧
    (∀ s, s = up.updFur 0 (fun f => { f with run := some 0, words := 253, held := [0x301000, 1, 2] }) →
      s.furReady 0 = true ∧ s.furIns 0 = some (.wrf 0x1000 1 2) ∧ (s.fur 0).words + 3 ≤ 256) := by
  simp only [forall_eq]; and_intros <;> decide +kernel

theorem witness_FurrowControlFlow :
    (∀ s, s = fur0 [0x70003F] → (s.fur 0).run = some 4095 ∧ s.dom (domOfBeam 0) = true ∧ s.frozen 3 = false ∧
      (s.fur 0).skip = 0 ∧ (s.fur 0).words + 2 ≤ 256 ∧ (s.fur 0).fetching = false ∧ (s.fur 0).loop = none ∧ (s.fur 0).todo = []) ∧
    (fur0 [0x5FFFFF]).furIns 0 = some (.jmp 0xFFFFF) ∧ (fur0 [0x600000, 0]).furIns 0 = some (.loop 0 0) ∧
    (fur0 [0x600FFF, 0xFFFFF]).furIns 0 = some (.loop 0xFFF 0xFFFFF) ∧ (fur0 [0x70003F]).furIns 0 = some (.pub 63) ∧
    (fur0 [0x900003]).furIns 0 = some (.skipev 3) ∧ (fur0 [0x0FFFFF]).furIns 0 = some (.fin 0xFFFFF) ∧
    (fur0 [0x801FFF]).furIns 0 = some (.waitl 0x1FFF) ∧ (fur0 [0xF00000]).furIns 0 = some .halt ∧
    (fur0 [0xA00000]).furIns 0 = some (.reserved 10) ∧ (fur0 [0xE00000]).furIns 0 = some (.reserved 14) ∧
    ((fur0 []).setBit (Reg.HRW_FW_SUB 0 3) 23).bitAt (Reg.HRW_FW_SUB 0 3) 23 = true ∧
    (((fur0 []).updFur 0 (fun f => { f with fetching := true })).fur 0).fetching = true := by
  simp only [forall_eq]; and_intros <;> decide +kernel

/-- The Harrow runs the list `l` of queue 3. -/
def harrow (l : HrwList) : State :=
  { (up.setBit Reg.HRW_CTRL 0).setQueue 3 [l] with hrw := { ((up.setBit Reg.HRW_CTRL 0).setQueue 3 [l]).hrw with active := some 3 } }

/-- A list that has fetched the command `ws`. -/
def cmdList (ws : List Word) : HrwList := { id := 7, base := 0, cmd := some ws, started := true }

theorem witness_HarrowListCommands :
    (∀ l, l = cmdList [0] → (harrow l).hrwRuns = true ∧ (harrow l).hrw.active = some 3 ∧ (harrow l).hrwQueue 3 = [l] ∧
      l.ended = false ∧ l.wait = none ∧ l.job = none ∧ l.cmd = some [0]) ∧
    (decodeHarrow [0x130001, 0xFFFFFF, 16383] = .surf 3 true 0xFFFFFF 16383 ∧
      decodeHarrow [0x200001, 0, 1, 8190, 8191] = .clip true 0 1 8190 8191 ∧ decodeHarrow [0x300000, 0xFFFFFF] = .lut 0xFFFFFF ∧
      decodeHarrow [0x400001, 0x123456] = .key true 0x123456 ∧
      decodeHarrow [0x5FC000 + 0x3000, 7, 8191, 0, 1, 8192] = .fill 63 true true 7 8191 0 1 8192 ∧
      decodeHarrow [0x6001FF, 1, 2, 3, 4, 5, 6] = .copy 0 false false 511 1 2 3 4 5 6 ∧
      decodeHarrow [0x700001] = .waitwm 1 ∧ decodeHarrow [0x80003F] = .pub 63 ∧ decodeHarrow [0] = .fin ∧
      decodeHarrow [0x900000] = .reserved 9 ∧ decodeHarrow [0xF00000] = .reserved 15) ∧
    (surfOk 3 true 1 = true ∧ surfOk 0 false 16383 = true ∧ surfOk 0 false 0 = false ∧ surfOk 1 false 1 = false) ∧
    (clipOk true 8191 8191 8191 8191 = true ∧ clipOk true 1 0 0 0 = false ∧ clipOk false 1 0 0 0 = true) ∧
    (rectOk [0, 8191] 8192 1 = true ∧ rectOk [8191, 8191, 0, 0] 1 1 = true) := by
  simp only [forall_eq]; and_intros <;> decide +kernel

/-- A FILL of 13 × 2 pixels from word 0, row `r`, from column `c`. -/
def fill (r c : Nat) : HrwList :=
  { id := 7, base := 0, pos := 6, job := some ⟨false, 63, false, false, 0, 5, 0, 0, 0, 0, 13, 2, r, c, [], none, []⟩, started := true }

/-- The same FILL, blended. -/
def blendIn : HrwList :=
  { id := 7, base := 0, pos := 6, job := some ⟨false, 62, false, false, 0, 5, 0, 0, 0, 0, 13, 2, 0, 0, [], none, []⟩, started := true }

/-- A COPY of 13 × 2 pixels of 24 bits from word 1200 to word 0. -/
def copy24 : HrwList :=
  { id := 7, base := 0, pos := 7, src := (75, 1, 0),
    job := some ⟨true, 63, false, false, 0, 0, 0, 0, 0, 0, 13, 2, 0, 0, [], none, []⟩, started := true }

theorem witness_HarrowFetchesBurstsAndRows :
    (∀ l, l = { fill 0 0 with job := none } → ∀ s, s = harrow l → s.hrwRuns = true ∧ s.hrwQueue 3 = [l] ∧
      l.cmd = none ∧ s.fetchBad (s.hrwPlot 3) (16 * l.base + l.pos) = false ∧ hrwLen (s.fetchZ (s.hrwPlot 3) (16 * l.base + l.pos)) = 1 ∧
      (decodeHarrow [s.fetchZ (s.hrwPlot 3) (16 * l.base + l.pos)]).ok = true) ∧
    (∀ l, l = { fill 0 0 with job := none } → ∀ s, s = (harrow l).setMem 6 0x100000 → s.hrwRuns = true ∧ s.hrwQueue 3 = [l] ∧
      hrwLen (s.fetchZ (s.hrwPlot 3) 6) = 3 ∧ (∀ i, i < 3 → s.fetchBad (s.hrwPlot 3) (6 + i) = false) ∧
      (decodeHarrow ((List.range 3).map (fun i => s.fetchZ (s.hrwPlot 3) (6 + i)))).ok = false) ∧
    (∀ l, l = { fill 0 0 with job := none, base := 0xFFFFFF } → (harrow l).fetchBad ((harrow l).hrwPlot 3) (16 * l.base + l.pos) = true) ∧
    (∀ s, s = harrow (fill 0 0) → s.hrwRuns = true ∧ s.hrw.active = some 3 ∧ s.hrwQueue 3 = [fill 0 0] ∧
      (s.drawTag 19 .normal).isSome = true ∧ s.memReady = true ∧ s.refuses (s.hrwPlot 3) = false ∧ s.fab.inflight = [] ∧ s.fab.snoops = []) ∧
    (∀ j, (fill 0 0).job = some j → (fill 0 0).missing j = [] ∧ ∀ c ∈ (fill 0 0).burstSteps j, (fill 0 0).dstWord (j.dstAt c) < fieldWords) ∧
    (∀ j, copy24.job = some j → copy24.burstSteps j ≠ [] ∧ j.copy = true ∧ (harrow copy24).hrwNeeds copy24 j.pal = false ∧
      (copy24.missing j).head? = some 1200) ∧
    (∀ l, l = { copy24 with src := (75, 1, 1) } → ∀ j, l.job = some j → (harrow l).hrwNeeds l j.pal = true) ∧
    (∀ j, blendIn.job = some j → blendIn.burstSteps j ≠ [] ∧ j.copy = false ∧ j.alpha < 63 ∧ j.under = none) ∧
    (∀ l, l = { fill 0 0 with clip := some (20, 0, 30, 0) } → ∀ j, l.job = some j → l.burstSteps j = []) ∧
    (∀ j, (fill 0 0).job = some j → j.copy = false ∧ (fill 0 0).burstSteps j = [0, 1, 2, 3, 4, 5, 6, 7, 8, 9, 10, 11] ∧
      ∀ d ∈ (fill 0 0).burstSteps j, regionOf ((fill 0 0).dstWord (j.dstAt d)) = .field d) ∧
    (∀ j, (fill 0 12).job = some j → (fill 0 12).burstSteps j = [12] ∧ (fill 0 12).stepsLeft j ≠ [] ∧ j.row + 1 < j.h) ∧
    (∀ j, (fill 1 13).job = some j → (fill 1 13).stepsLeft j = [] ∧ j.h ≤ j.row + 1) := by
  simp only [fill, copy24, blendIn, Option.some.injEq, forall_eq', forall_eq]; and_intros <;> decide +kernel

theorem witness_HarrowQueuesAndCompletion :
    (up.Opens 25 (Reg.HRW_Q_SUBMIT 3) ∧ up.plotFenced (up.hrwPlot 3) = false ∧ up.refuses (up.hrwPlot 3) = false ∧ (up.hrwQueue 3).length < 8) ∧
    (∀ s, s = up.setQueue 3 (List.replicate 8 (fill 0 0)) → s.Opens 25 (Reg.HRW_Q_SUBMIT 3) ∧
      s.plotFenced (s.hrwPlot 3) = false ∧ 8 ≤ (s.hrwQueue 3).length) ∧
    (up.Opens 25 (Reg.HRW_Q_CFG 3) ∧ up.Opens 25 Reg.HRW_CTRL) ∧
    (∀ s, s = up.setQueue 3 [{ fill 0 0 with ended := true }] → s.hrwQueue 3 = [{ fill 0 0 with ended := true }] ∧
      s.bitAt (Reg.HRW_Q_CFG 3) 4 = false) ∧
    (∀ s, s = (up.setQueue 3 [{ fill 0 0 with ended := true }]).setBit (Reg.HRW_Q_CFG 3) 4 →
      s.hrwQueue 3 = [{ fill 0 0 with ended := true }] ∧ s.bitAt (Reg.HRW_Q_CFG 3) 4 = true) ∧
    (∀ s, s = up.setHeld 3 [⟨1, some 63⟩] → s.hrwHeld 3 = [⟨1, some 63⟩]) ∧
    (∀ s, s = up.setQueue 3 [{ fill 0 0 with wait := some 1 }] → s.hrwHeld 3 = [] ∧
      s.hrwQueue 3 = [{ fill 0 0 with wait := some 1 }]) := by
  unfold State.Opens; simp only [forall_eq]; and_intros <;> decide +kernel

/-- The audio engine in the given STATE. -/
def audio (n : Nat) : State := up.setFld Reg.AUD_STAT Fd.AUD_STAT_STATE n

theorem witness_AudioStartsRunsAndStops :
    (up.Opens 25 Reg.AUD_CTRL ∧ up.bitAt Reg.AUD_CTRL 0 = false ∧
      up.fld Reg.AUD_PHASE Fd.AUD_PHASE_PHASE * up.audFs < 250000000) ∧
    (∀ s, s = (up.setReg Reg.AUD_PHASE 5209) → s.Opens 25 Reg.AUD_CTRL ∧ s.bitAt Reg.AUD_CTRL 0 = false ∧
      250000000 ≤ s.fld Reg.AUD_PHASE Fd.AUD_PHASE_PHASE * s.audFs) ∧
    ((audio 1).audState = 1 ∧ (audio 1).bitAt Reg.AUD_STAT 21 = false ∧
      (audio 1).fld Reg.AUD_PHASE Fd.AUD_PHASE_PHASE ≤ (audio 1).timebase.toNat) ∧
    (∀ s, s = (audio 1).setBit Reg.AUD_STAT 21 → s.audState = 1 ∧ s.bitAt Reg.AUD_STAT 21 = true) ∧
    (∀ s, s = ((audio 2).setBit Reg.AUD_STAT 21).updAud (fun a => { a with next := some 0 }) → s.aud.next = some 0 ∧
      s.dom 15 = true ∧ s.audState ≠ 0 ∧ s.bitAt Reg.AUD_STAT 21 = true ∧ s.audMay 0 = true) ∧
    (∀ s, s = (((audio 2).setBit (Reg.AUD_TDM_CFG 3) 23).setBit (Reg.AUD_TDM_STAT 3) 23).updPort 3
        (fun x => { x with outq := [(0, [1])] }) →
      s.audState = 2 ∧ s.dom 15 = true ∧ s.bitAt (Reg.AUD_TDM_CFG 3) 23 = true ∧ s.bitAt (Reg.AUD_TDM_STAT 3) 23 = true ∧
      (s.port 3).outq.find? (fun e => e.1 == (s.port 3).next) = some ((s.port 3).next, [1])) ∧
    (∀ s, s = (audio 2).setBit Reg.AUD_CTRL 0 → s.Opens 25 Reg.AUD_CTRL ∧ s.bitAt Reg.AUD_CTRL 0 = true) := by
  unfold State.Opens; simp only [forall_eq]; and_intros <;> decide +kernel

theorem witness_NodesVoicesSheavesAndAmbientLoops :
    (up.Opens 25 (Reg.AUD_NODE 127 63) ∧ getF (putF 0 Fd.AUD_NODE_GAIN 280) Fd.AUD_NODE_GAIN ≤ 280 ∧
      280 < getF (putF 0 Fd.AUD_NODE_GAIN 281) Fd.AUD_NODE_GAIN) ∧
    (up.Opens 25 (Reg.AUD_V_CTRL 63)) ∧
    (∀ s, s = up.setVoiceState 63 2 → s.Opens 25 (Reg.AUD_V_CTRL 63) ∧ s.voiceState 63 ≠ 0 ∧ s.voiceState 63 = 2) ∧
    ((audio 1).audState ≠ 0 ∧ (audio 1).dom 15 = true) ∧
    (up.Opens 25 (Reg.AUD_SHF_CTRL 7) ∧ up.shfState 7 = 0) ∧
    (∀ k ∈ [1, 2], (up.setShfState 7 k).Opens 25 (Reg.AUD_SHF_CTRL 7) ∧ (up.setShfState 7 k).shfState 7 = k) ∧
    (∀ s, s = ((up.setShfState 0 1).setMem 0 1).setMem 1 0x802000 → s.shfState 0 = 1 ∧ (s.shfRead 0).2.isSome = true) ∧
    (∀ s, s = (up.setShfState 7 1).setMem 0 257 → s.shfState 7 = 1 ∧ (s.shfRead 7).2 = none) ∧
    (∀ s, s = (audio 2).setReg (Reg.AUD_AMB_CFG 3) 0x800000 → s.bitAt (Reg.AUD_AMB_CFG 3) 23 = true ∧ s.audState = 2 ∧
      max 1 (s.fld (Reg.AUD_AMB_CFG 3) Fd.AUD_AMB_CFG_UPD) * s.audFs / 10 = 4800 ∧
      signed 8 (s.fld (Reg.AUD_AMB_WIN 3) Fd.AUD_AMB_WIN_MIN) ≤ signed 8 (s.fld (Reg.AUD_AMB_WIN 3) Fd.AUD_AMB_WIN_MAX)) ∧
    (∀ q ∈ [479, 480], ∀ s, s = up.updAud (fun a => { a with amb := Tab.put {} a.amb 3 { n := 4800, q := q } }) →
      (Tab.get {} s.aud.amb 3).n = 4800 ∧ (Tab.get {} s.aud.amb 3).q = q) ∧ (10 * 479 < 4800 ∧ 4800 ≤ 10 * 480) := by
  unfold State.Opens; simp only [forall_eq]; and_intros <;> decide +kernel

/-- The software source of the staged-message starter runs, with descriptor words 0 and 1 as given. -/
def staged (w0 w1 : Word) (wait : StgWait) : State :=
  ((up.setGran 0 w0).setGran 1 w1).updStg (fun g => { g with src := some 8, desc := [w0, w1], wait := wait })

theorem witness_StagedMessagesStartWaitAndStop :
    (∀ k ∈ [8, 15], ∀ s, s = up.setFld Reg.SUP_STGSTAT Fd.SUP_STGSTAT_PLAYING k → s.Opens 25 Reg.SUP_STGGO ∧ s.playing = k ∧
      s.sup.stg.stop = false) ∧
    (∀ s, s = (up.setFld Reg.SUP_STGSTAT Fd.SUP_STGSTAT_PLAYING 8).updStg (fun g => { g with stop := true }) →
      s.Opens 25 Reg.SUP_STGGO ∧ s.playing = 8 ∧ s.sup.stg.stop = true) ∧
    (∀ s, s = up.setFld Reg.SUP_STGSTAT Fd.SUP_STGSTAT_PLAYING 7 → s.Opens 25 Reg.SUP_STGGO ∧ s.playing < 8 ∧ s.playing ≠ 8) ∧
    ((staged 0x800000 0x800000 .begin').sup.stg.src = some 8 ∧ (staged 0x800000 0x800000 .begin').sup.stg.wait = .begin' ∧
      (staged 0x800000 0x800000 .begin').sup.stg.stop = false ∧
      (staged 0x800000 0x800000 .begin').dom 3 = true ∧ (staged 0x800000 0x800000 .begin').audState ≠ 2 ∧
      (staged 0x800000 0x800000 .begin').granAt
        (256 * ((staged 0x800000 0x800000 .begin').fld Reg.SUP_STGBASE Fd.SUP_STGBASE_PAGE + 0)) = 0x800000) ∧
    (∀ s, s = (staged 0x800000 0x800000 .sheaf).setFld Reg.AUD_STAT Fd.AUD_STAT_STATE 2 → s.sup.stg.src.isSome = true ∧
      s.sup.stg.wait = .sheaf ∧ s.audState = 2 ∧ s.shfState (s.fld Reg.SUP_STGCFG Fd.SUP_STGCFG_SSLOT) ≠ 3) ∧
    (∀ s, s = staged 0x800000 0 .harrowDone → s.sup.stg.src.isSome = true ∧ s.sup.stg.stop = false ∧
      s.sup.stg.wait = .harrowDone ∧ bit (s.sup.stg.desc.getD 1 0) 21 = false ∧ bit (s.sup.stg.desc.getD 1 0) 22 = false ∧
      s.sup.stg.wait ≠ .begin') := by
  unfold State.Opens; simp only [forall_eq]; and_intros <;> decide +kernel

/-- Override input 7 on, in the given STATE, with the given record. -/
def override (n : Nat) (x : OvSt) : State :=
  ((up.setFld (Reg.SUP_OV_CFG 7) Fd.SUP_OV_CFG_DISC 2).setBit (Reg.SUP_OV_CFG 7) 23
    |>.setFld (Reg.SUP_OV_STAT 7) Fd.SUP_OV_STAT_STATE n).updOv 7 (fun _ => x)

theorem witness_OverrideInputsFilterAgreeAndFault :
    (up.ovOn = true ∧ { up with pwr := { up.pwr with dormant := true } }.ovOn = true ∧ up.pwr.dormant = false ∧
      (0x80 : BitVec 8).getLsbD 7 ≠ (up.ov 7).fa ∧
      10 * max 1 (up.fld (Reg.SUP_OV_DEB 7) Fd.SUP_OV_DEB_DEB) <
        ((override 0 { ca := 10 * max 1 (up.fld (Reg.SUP_OV_DEB 7) Fd.SUP_OV_DEB_DEB) }).ov 7).ca + 1) ∧
    (∀ s, s = override 3 {} → s.dom 16 = true ∧ s.pwr.dormant = false ∧ s.bitAt (Reg.SUP_OV_CFG 7) 23 = true ∧
      s.ovState 7 = 3 ∧ s.ovA 7 = s.ovB 7) ∧
    (∀ s, s = override 1 { fa := true } → s.dom 16 = true ∧ s.bitAt (Reg.SUP_OV_CFG 7) 23 = true ∧ s.ovState 7 ≤ 1 ∧
      s.ovState 7 ≠ 3 ∧ s.ovA 7 ≠ s.ovB 7) ∧
    (∀ s, s = override 2 { fa := true, since := 0 } → s.bitAt (Reg.SUP_OV_CFG 7) 23 = true ∧ s.ovState 7 = 2 ∧
      s.ovA 7 ≠ s.ovB 7 ∧ ((if (s.ov 7).firstB then s.ovB 7 else s.ovA 7) == ((s.ov 7).left == 1)) = false ∧ (s.ov 7).since + 1 < s.fld (Reg.SUP_OV_CFG 7) Fd.SUP_OV_CFG_DISC) ∧
    (∀ s, s = override 2 { fa := true, since := 1 } → s.bitAt (Reg.SUP_OV_CFG 7) 23 = true ∧ s.ovState 7 = 2 ∧
      s.ovA 7 ≠ s.ovB 7 ∧ s.fld (Reg.SUP_OV_CFG 7) Fd.SUP_OV_CFG_DISC ≤ (s.ov 7).since + 1) ∧
    (∀ s, s = override 2 { fa := true, left := 1 } → s.bitAt (Reg.SUP_OV_CFG 7) 23 = true ∧ s.ovState 7 = 2 ∧
      s.ovA 7 ≠ s.ovB 7 ∧ ((if (s.ov 7).firstB then s.ovB 7 else s.ovA 7) == ((s.ov 7).left == 1)) = true) ∧
    ((override 3 {}).Opens 25 (Reg.SUP_OV_CTRL 7) ∧ (override 3 { fa := true }).ovA 7 ≠ (override 3 { fa := true }).ovB 7 ∧
      (override 3 { fa := true }).Opens 25 (Reg.SUP_OV_CTRL 7)) := by
  unfold State.Opens; simp only [forall_eq]; and_intros <;> decide +kernel

/-- The night round in the given STATE with these channels left and this phase, whose samples have come. -/
def night (n phase : Nat) (cs : List Nat) : State :=
  ((up.setNrState n).updNr (fun x => { x with imp := cs, ac := cs, phase := phase })).updAud (fun a => { a with next := some 200000 })

theorem witness_NightRoundStepsResultsAndLog :
    (up.Opens 25 Reg.SUP_NRCTRL ∧ up.nrState = 0 ∧ up.nrMayRun = false) ∧
    (∀ s, s = (up.setBit Reg.SUP_NRCTRL 7).setFld Reg.SUP_NRCTRL Fd.SUP_NRCTRL_STINE 63 → s.bitAt Reg.SUP_NRCTRL 7 = true ∧
      s.fld Reg.SUP_NRCTRL Fd.SUP_NRCTRL_STINE = 63 ∧ s.dom 16 = true ∧ s.fld Reg.SUP_NRCTRL Fd.SUP_NRCTRL_STINE ≠ 62) ∧
    (∀ s, s = ((night 2 3 [31, 30]).updNr (fun x => { x with imp := [] })).setBit (Reg.SUP_CH_ACCFG 30) 23 →
      s.nrState = 2 ∧ s.sup.nr.imp = [] ∧ s.sup.nr.ac = [31, 30] ∧ s.bitAt (Reg.SUP_CH_ACCFG 30) 23 = true ∧
      s.nrHas (s.nrEnds.getD 3 0) = true) ∧
    (∀ s, s = ((audio 2).setFld Reg.SUP_STGSTAT Fd.SUP_STGSTAT_PLAYING 15).setBit Reg.SUP_NRMASK1 7 →
      s.Opens 25 Reg.SUP_NRCTRL ∧ s.nrState = 0 ∧ s.nrMayRun = true ∧ s.bitAt Reg.SUP_NRMASK1 (31 % 24) = true ∧
      ∀ d, d < 31 → s.bitAt (if d < 24 then Reg.SUP_NRMASK0 else Reg.SUP_NRMASK1) (d % 24) = false) ∧
    (∀ k ∈ [1, 2], (night k 0 [31]).Opens 25 Reg.SUP_NRCTRL ∧ (night k 0 [31]).nrState = k ∧ (night k 0 [31]).nrState ≠ 0) ∧
    (∀ ph ∈ [0, 1, 2, 3], (night 1 ph [31, 0]).nrState = 1 ∧ (night 1 ph [31, 0]).nrHas ((night 1 ph [31, 0]).nrEnds.getD ph 0) = true ∧ (night 1 ph [31, 0]).sup.nr.imp = [31, 0] ∧
      (night 1 ph [31, 0]).sup.nr.phase = ph) ∧
    (∀ ph ∈ [0, 1, 2], (night 2 ph [31]).nrState = 2 ∧ (night 2 ph [31]).nrHas ((night 2 ph [31]).nrEnds.getD ph 0) = true ∧ (night 2 ph [31]).sup.nr.ac = [31] ∧
      (night 2 ph [31]).sup.nr.phase = ph) ∧
    (∀ s, s = { up with grn := [⟨true, 0x3FFF, List.replicate 248 1⟩] } → s.grn = [⟨true, 0x3FFF, List.replicate 248 1⟩]) := by
  unfold State.Opens; simp only [forall_eq]; and_intros <;> decide +kernel

theorem witness_WatcherFramesEnrolmentAndClock :
    (bit ((up.setEff Reg.ACW_CTRL 0x800000).inEff Reg.ACW_CTRL) 23 = true ∧ bit (up.inEff Reg.ACW_CTRL) 23 = false) ∧
    (up.Opens 25 (Reg.ACW_SIG_CTRL 3) ∧ up.bitAt (Reg.ACW_SIG_CFG 3) 22 = false) ∧
    ((up.setBit (Reg.ACW_SIG_CFG 3) 22).Opens 25 (Reg.ACW_SIG_CTRL 3) ∧
      (up.setBit (Reg.ACW_SIG_CFG 3) 22).bitAt (Reg.ACW_SIG_CFG 3) 22 = true) := by
  unfold State.Opens; and_intros <;> decide +kernel

/-! ### Processors -/

/-- `State.Plain` as a check. -/
def plainNow (s : State) (p : Nat) : Bool :=
  (s.proc p).slot.isNone && (s.proc p).exit.isNone && (s.proc p).shadows.isEmpty && (s.proc p).lc == 0 &&
  (s.proc p).haltDue.isNone && !(s.proc p).stepping && !s.bitAt (Reg.GLN_SMP_CFG p) 23 &&
  (List.range 8).all (fun k => !s.bitAt (Reg.DBG_CMP_CFG p k) 23)

/-- `State.FetchOk` as a check. -/
def fetchNow (s : State) (p : Nat) (v : Word) : Bool :=
  if p = 16 then (s.gate 16 0 ((s.proc 16).cseg.toNat % 16 * 2 ^ 24 + v.toNat) false).isNone
  else match s.translate p v needX with
    | .ok (a, _) => (s.gate p (s.plotOf p) a false).isNone
    | .error _ => false

/-- `State.Ready` as a check. -/
def readyNow (s : State) (p len : Nat) : Bool :=
  plainNow s p && s.canRun p && (p != 16 || !s.inMicro) && (p != 16 || s.uc.bad.isEmpty) && (s.proc p).imprecise.isEmpty && (s.proc p).longs.isEmpty &&
  !(s.proc p).waiting && (List.range len).all (fun i => fetchNow s p ((s.proc p).pc + wd i))

theorem plain_of_plainNow {s : State} {p : Nat} (h : plainNow s p = true) : s.Plain p := by
  simp only [plainNow, Bool.and_eq_true, Option.isNone_iff_eq_none, List.isEmpty_iff, beq_iff_eq, Bool.not_eq_eq_eq_not,
    Bool.not_true, List.all_eq_true, List.mem_range] at h
  obtain ⟨⟨⟨⟨⟨⟨⟨h1, h2⟩, h3⟩, h4⟩, h5⟩, h6⟩, h7⟩, h8⟩ := h
  exact ⟨h1, h2, h3, h4, h5, h6, h7, h8⟩

theorem fetchOk_of_fetchNow {s : State} {p : Nat} {v : Word} (h : fetchNow s p v = true) : s.FetchOk p v := by
  unfold fetchNow at h; unfold State.FetchOk
  split
  · rename_i hp; simpa [hp] using h
  · rename_i hp
    rw [if_neg hp] at h
    split at h
    · rename_i a dev ht; exact ⟨a, dev, ht, by simpa using h⟩
    · cases h

theorem ready_of_readyNow {s : State} {p len : Nat} (h : readyNow s p len = true) : s.Ready p len := by
  simp only [readyNow, Bool.and_eq_true, Bool.or_eq_true, bne_iff_ne, ne_eq, List.isEmpty_iff, Bool.not_eq_eq_eq_not, Bool.not_true,
    List.all_eq_true, List.mem_range] at h
  obtain ⟨⟨⟨⟨⟨⟨⟨h1, h2⟩, h3⟩, h4⟩, h5⟩, h6⟩, h7⟩, h8⟩ := h
  exact ⟨plain_of_plainNow h1, h2, fun hp => h3.resolve_left (fun hn => hn hp), fun hp => h4.resolve_left (fun hn => hn hp), h5, h6, h7,
    fun i hi => fetchOk_of_fetchNow (h8 i hi)⟩

/-- Every permission for page 0 of plot 0, and none for the other pages. -/
def paged : State := up.setReg (Reg.PLT_PT 0 0) 0xF80000

/-- As `paged`, with core 15 changed by `f`. -/
def core (f : ProcSt → ProcSt) : State := paged.updProc 15 f

/-- As `up`, with the Steward changed by `f`; it runs from segment 0. -/
def stew (f : ProcSt → ProcSt) : State := up.updProc 16 (fun x => f { x with cseg := 0 })

theorem core_ready : (core id).Ready 15 2 ∧ (core id).Ready 15 1 ∧ (stew id).Ready 16 2 ∧ (stew id).Ready 16 1 := by
  refine ⟨?_, ?_, ?_, ?_⟩ <;> exact ready_of_readyNow (by decide +kernel)

theorem user_ready : (core (fun x => { x with status := 0 })).Ready 15 2 ∧ (core (fun x => { x with status := 0 })).Ready 15 1 := by
  refine ⟨?_, ?_⟩ <;> exact ready_of_readyNow (by decide +kernel)

theorem witness_KyobelArithmeticLogicAndTheirFlags :
    (core (fun x => { x with status := 0x200080 })).Ready 15 1 ∧
    bit ((core (fun x => { x with status := 0x200080 })).proc 15).status 21 = true ∧
    (∃ r : Word, r.toInt = max (-8388608) (min 8388607 ((0x7FFFFF : Word).toInt + (1 : Word).toInt))) ∧
    (∃ r : Word, r.toInt = max (-8388608) (min 8388607 ((0x800000 : Word).toInt - (1 : Word).toInt))) ∧
    ((24 ≤ 24 ∧ ∀ i, i < 24 → bit (0 : Word) (23 - i) = false) ∧
      (0 ≤ 24 ∧ bit (0x800000 : Word) (23 - 0) = true)) :=
  ⟨ready_of_readyNow (by decide +kernel), by decide +kernel, ⟨0x7FFFFF, by decide +kernel⟩, ⟨0x800000, by decide +kernel⟩,
    by decide +kernel⟩

theorem witness_KyobelShiftsImmediatesComparesAndConstants :
    (stew id).Ready 16 1 ∧ (stew id).Ready 16 2 ∧ (0xFFFFC0 : Word).toNat % 64 = 0 ∧ (0xFFFFFF : Word).toNat % 64 = 63 ∧
    (0x18 : Word).toNat % 64 % 24 = 0 :=
  ⟨core_ready.2.2.2, core_ready.2.2.1, by decide, by decide, by decide⟩

theorem witness_KyobelMultiplyUnitAndDivision :
    (core id).Ready 15 1 ∧ ((core id).proc 15).accHist = [0, 0, 0] ∧
    ((0x7FFFFF7FFFFF : BitVec 48).toInt + 2 ^ 23 < 2 ^ 47 ∧ 2 ^ 47 ≤ (0x7FFFFF800000 : BitVec 48).toInt + 2 ^ 23) ∧
    (∃ q : Word, q.toInt = min 8388607 (Int.tdiv (0x800000 : Word).toInt (0xFFFFFF : Word).toInt)) ∧
    (∃ q : Word, q.toNat = (0xFFFFFF : Word).toNat / (1 : Word).toNat) ∧
    ((core (fun x => { x with longs := [⟨some (15, 3), some 6⟩] })).proc 15).longs = [⟨some (15, 3), some 6⟩] :=
  ⟨core_ready.2.1, by decide +kernel, by decide, ⟨0x7FFFFF, by decide +kernel⟩, ⟨0xFFFFFF, by decide +kernel⟩, by decide +kernel⟩

/-- The last word of page 0, and the first word of page 1. -/
theorem witness_KyobelLoadsStoresAndTheBuffer :
    (core id).Ready 15 1 ∧
    ((core id).translate 15 0xFFFF needR = .ok (0xFFFF, false) ∧ (core id).translate 15 0xFFFF needW = .ok (0xFFFF, false) ∧
      (core id).translate 15 0x10000 needR = .error 4 ∧ (core id).translate 15 0x10000 needW = .error 4 ∧
      (core id).storeForward 15 0xFFFF = none ∧ ((core id).cached 15 (lineNo 0xFFFF)).isSome = false ∧
      (core id).refuses ((core id).plotOf 15) = false ∧ ((core id).proc 15).stores.length < 8 ∧ (core id).storing 15 = false) ∧
    (core (fun x => { x with stores := [⟨0xFFFF, 0xFFFF, 9⟩] })).storeForward 15 0xFFFF = some 9 ∧
    (∀ s, s = core (fun x => { x with dcache := [⟨0, .modified, List.replicate 12 5⟩] }) → s.storeForward 15 11 = none ∧
      (s.cached 15 (lineNo 11)).isSome = true ∧ s.cohWord 11 = 5) ∧
    (∀ s, s = core (fun x => { x with status := 0xA0 }) → s.translate 15 0 needW = .ok (0, true) ∧ s.storing 15 = false) ∧
    (∀ s, s = core (fun x => { x with wait := some (.load 0xFFFF 0xFFFF 3 none 0 false) }) → s.Plain 15 ∧
      (s.proc 15).wait = some (.load 0xFFFF 0xFFFF 3 none 0 false) ∧ s.locked 0xFFFF = false ∧
      s.gateIn 15 0xFFFF false = none ∧ (s.cached 15 (lineNo 0xFFFF)).isSome = false ∧ s.fab.snoops = [] ∧ s.fab.inflight = []) ∧
    (∀ s, s = core (fun x => { x with wait := some (.load 0xFFFF 0xFFFF 3 none 0 true) }) →
      (s.proc 15).wait = some (.load 0xFFFF 0xFFFF 3 none 0 true) ∧ ((s.setWait 15 none).procRead 15 0xFFFF true).2.2 = true) ∧
    (∀ s, s = core (fun x => { x with stores := [⟨0, 0, 9⟩], drains := [⟨1, 1, 8⟩] }) →
      (s.proc 15).stores = [⟨0, 0, 9⟩] ∧ (s.proc 15).drains.isEmpty = false ∧ s.refuses (s.plotOf 15) = false ∧
      (s.drawTag 15 (procClass 15)).isSome = true ∧ ((s.setBit Reg.FAB_FENCE 0).refuses (s.plotOf 15)) = true ∧
      ((s.setReg (Reg.FAB_CRD 15) 0).drawTag 15 (procClass 15)).isSome = false) ∧
    (∀ s, s = core (fun x => { x with stores := [⟨0, 0, 9⟩], dcache := [⟨0, .exclusive, List.replicate 12 5⟩] }) →
      (s.proc 15).drains = [] ∧ s.ownsLine 15 (lineNo 0) = true ∧ s.gateIn 15 0 true = none ∧ s.det 15 = false ∧
      s.cached 15 (lineNo 0) = some ⟨0, .exclusive, List.replicate 12 5⟩) ∧
    (∀ s, s = core (fun x => { x with drains := [⟨1, 1, 8⟩], status := 0xA0 }) → (s.proc 15).drains = [⟨1, 1, 8⟩] ∧
      (s.proc 15).wait = none ∧ s.locked 1 = false ∧ s.gateIn 15 1 true = none ∧ s.det 15 = true) ∧
    (∀ s, s = core (fun x => { x with wait := some (.store 0 0 9 none 0) }) → s.Plain 15 ∧
      (s.proc 15).wait = some (.store 0 0 9 none 0) ∧ s.locked 0 = false ∧
      ((s.setWait 15 none).procWrite 15 0 0 true 9).2 = true) := by
  simp only [forall_eq]
  refine ⟨core_ready.2.1, ?_, ?_, ?_, ?_, ⟨plain_of_plainNow (by decide +kernel), ?_⟩, ?_, ?_, ?_, ?_,
    ⟨plain_of_plainNow (by decide +kernel), ?_⟩⟩ <;> (and_intros <;> first | decide +kernel | rfl)

theorem witness_KyobelBranchesLoopsTrapsAndReturns :
    ((core id).Ready 15 1 ∧ (core id).Ready 15 2 ∧ ((core id).proc 15).sup = true ∧ (core id).session = false ∧
      (core id).storing 15 = false ∧ (core id).getW 15 0 = 0) ∧
    ((core (fun x => { x with status := 0 })).Ready 15 1 ∧ ((core (fun x => { x with status := 0 })).proc 15).sup = false) ∧
    (∀ s, s = (core (fun x => { x with estatus := 0xC0 })).setReg (Reg.IRQ_SRC 0) 0xB00F0F →
      s.Ready 15 1 ∧ bit (s.proc 15).estatus 6 = true ∧ s.irqRequest 15 = true) ∧
    (∀ s, s = (core id).setBit Reg.DBG_CTRL 23 → s.Ready 15 1 ∧ s.session = true) := by
  simp only [forall_eq]
  refine ⟨⟨core_ready.2.1, core_ready.1, ?_⟩, ⟨user_ready.2, ?_⟩, ⟨ready_of_readyNow (by decide +kernel), ?_⟩, ready_of_readyNow (by decide +kernel), ?_⟩ <;>
    (and_intros <;> first | decide +kernel | rfl)

/-- A frame of RA and mask 0 at the stack pointer 0xFFFE, the highest that holds one in page 0. -/
def stacked : State := (core (fun x => x.setW 15 0xFFFE)).setMem 0xFFFE 0x123

theorem witness_KyobelCallsSwapsAndCacheOperations :
    (∀ s, s = core (fun x => x.setW 15 2) → s.Ready 15 2 ∧
      (match (s.updProc 15 (fun z => { z with waiting := false, missed := false })).fetchIns 15 2 with
        | .ok _ => true
        | .error _ => false) = true ∧
      frameWords (s.proc 15) 0 ((s.proc 15).pc + 2) = [0, 2] ∧
      ((List.range 2).map (fun i => s.getW 15 15 - wd (i + 1)) = [1, 0]) ∧ s.fab.inflight = [] ∧
      (s.translate 15 1 needW = .ok (1, false) ∧ s.translate 15 0 needW = .ok (0, false))) ∧
    (stacked.Ready 15 1 ∧
      (match (stacked.updProc 15 (fun z => { z with waiting := false, missed := false })).fetchIns 15 1 with
        | .ok u => u.getW 15 15 == 0xFFFE && (u.loadAll 15 [0xFFFE, 0xFFFF]).2 == ([0x123, 0], none) &&
            ((u.loadAll 15 [0xFFFE, 0xFFFF]).1.loadAll 15 []).2 == ([], none)
        | .error _ => false) = true) ∧
    ((core id).Ready 15 1 ∧ (core id).storing 15 = false ∧ (core id).translate 15 0 (needR ||| needW) = .ok (0, false) ∧
      regionOf 0 = .field 0 ∧ (core id).gate 15 ((core id).plotOf 15) 0 true = none ∧ (core id).locked 0 = false ∧
      (core id).fab.snoops = [] ∧ (core id).fab.inflight = [] ∧ (core id).translate 15 0 0 = .ok (0, false) ∧ ((core id).proc 15).sup = true) ∧
    ((core (fun x => { x with status := 0 })).Ready 15 1 ∧
      (core (fun x => { x with status := 0 })).translate 15 0 0 = .ok (0, false) ∧
      ((core (fun x => { x with status := 0 })).proc 15).sup = false) ∧
    (∀ s, s = (core (fun x => { x with status := 0xC0 })).setReg (Reg.IRQ_SRC 0) 0xB00F0F → s.Plain 15 ∧ s.canRun 15 = true ∧
      (s.proc 15).imprecise = [] ∧ bit (s.proc 15).status 6 = true ∧ s.irqRequest 15 = true) := by
  simp only [forall_eq]
  refine ⟨⟨ready_of_readyNow (by decide +kernel), ?_⟩, ⟨ready_of_readyNow (by decide +kernel), ?_⟩, ⟨core_ready.2.1, ?_⟩,
    ⟨user_ready.2, ?_⟩, plain_of_plainNow (by decide +kernel), ?_⟩ <;> (and_intros <;> first | decide +kernel | rfl)

theorem witness_SpecialRegistersModesAndThePrivatePort :
    ((core id).Ready 15 1 ∧ ((core id).proc 15).sup = true ∧ ((core id).proc 15).pc = ((core id).proc 15).lea ∧
      (0 : BitVec 8).toNat ≤ 11 ∧ (11 : BitVec 8).toNat ≤ 11 ∧ 12 ≤ (12 : BitVec 8).toNat ∧ 14 ≤ (255 : BitVec 8).toNat) ∧
    ((core (fun x => { x with lea := 9 })).Ready 15 1 ∧
      ((core (fun x => { x with lea := 9 })).proc 15).pc ≠ ((core (fun x => { x with lea := 9 })).proc 15).lea) ∧
    ((stew id).Ready 16 1 ∧ ((stew id).proc 16).sup = true ∧ (13 : BitVec 8).toNat ≤ 13) ∧
    ((core (fun x => { x with status := 0 })).Ready 15 1 ∧ ((core (fun x => { x with status := 0 })).proc 15).sup = false ∧
      (BitVec.zeroExtend 24 (0x80 : BitVec 8) &&& ~~~ ((core (fun x => { x with status := 0 })).proc 15).status &&& 0xE0 ≠ 0) ∧
      (BitVec.zeroExtend 24 (0x10 : BitVec 8) &&& ~~~ ((core (fun x => { x with status := 0 })).proc 15).status &&& 0xE0 = 0) ∧
      ((0xF00010 : Word) ^^^ ((core (fun x => { x with status := 0 })).proc 15).status) &&& 0xE0 = 0) ∧
    (∀ s, s = ((core (fun x => (x.setW 3 1))).setReg (Reg.GPO_PIN_CFG 24) 0x7C000) →
      s.Ready 15 1 ∧ (1 : BitVec 4).toNat < 2 ∧ 2 ≤ (2 : BitVec 4).toNat ∧ s.dom 19 = true ∧
      (∀ i, i < 24 → bit (1 : Word) i = s.coreOwnsPin 15 (24 * 1 + i)) ∧ s.getW 15 3 &&& 1 = s.getW 15 3 ∧
      (0xFFFFFF : Word) &&& 1 ≠ 0xFFFFFF ∧ (s.setReg Reg.PWR_DOMSTAT 0x7FFFF).dom 19 = false) := by
  simp only [forall_eq]
  refine ⟨⟨core_ready.2.1, ?_⟩, ⟨ready_of_readyNow (by decide +kernel), ?_⟩, ⟨core_ready.2.2.2, ?_⟩, ⟨user_ready.2, ?_⟩,
    ready_of_readyNow (by decide +kernel), ?_⟩ <;> (and_intros <;> decide +kernel)

theorem witness_StewardManagementAndCustomInstructions :
    ((stew id).Ready 16 1 ∧ (stew id).refuses ((stew id).plotOf 16) = false ∧ ((stew id).drawTag 16 .steward).isSome = true ∧
      (stew id).storeForward 16 (longAddr 0 0) = none ∧ (stew id).storing 16 = false ∧
      (stew id).ucReady = false ∧ (stew id).isStub ((stew id).customEntry 255) = true) ∧
    (∀ s, s = stew (fun x => { x with stores := [⟨0, 0, 9⟩] }) → s.Ready 16 1 ∧ s.storeForward 16 (longAddr 0 0) = some 9) ∧
    (∀ s, s = (stew id).setReg Reg.STW_UCSTAT 0x200000 → s.Ready 16 1 ∧ s.ucReady = true) ∧
    (∀ s, s = (stew id).updUc (fun u => { u with store := Tab.put none u.store ((stew id).customEntry 255) (some 0) }) →
      s.Ready 16 1 ∧ s.isStub (s.customEntry 255) = false) := by
  simp only [forall_eq]
  refine ⟨⟨core_ready.2.2.2, ?_⟩, ⟨ready_of_readyNow (by decide +kernel), ?_⟩, ⟨ready_of_readyNow (by decide +kernel), ?_⟩,
    ready_of_readyNow (by decide +kernel), ?_⟩ <;> (and_intros <;> decide +kernel)

/-- The sequencer runs custom function 255 at its last allowed step. -/
def custom : State := (stew id).updUc (fun u => { u with upc := 0x1800, custom := some (255, 0, 4095, 63), ustack := [0x1801] })

/-- The sequencer is at the microword `w`, of a custom instruction or of the base microcode. -/
def atMicro (c : Bool) (w : Word) : State :=
  let s := if c then custom else stew id
  s.updUc (fun u => { u with store := Tab.put none u.store u.upc (some w) })

/-- Words of R299's encodings. -/
theorem test_microwords_are_read_by_class_and_fields :
    (atMicro true 0x00C843).microword = .alu 0 25 1 1 true ∧ (atMicro false 0x14003F).microword = .alui 4 0 0 0x3F ∧
    (atMicro false 0x0CF842).microword = .alu 12 31 1 1 false ∧ (atMicro true 0x2CC842).microword = .mem true true false 25 1 1 ∧
    (atMicro false 0x22C842).microword = .mem false false true 25 1 1 ∧ (atMicro true 0x3F3FFF).microword = .br 15 0x3FFF ∧
    (atMicro true 0x40043F).microword = .call 0x43F ∧ (atMicro true 0x500000).microword = .ret ∧ (atMicro false 0x510000).microword = .fin ∧
    (atMicro false 0x520000).microword = .fetch2 ∧ (atMicro false 0x5300FF).microword = .raise 0xFF ∧
    (atMicro false 0x540000).microword = .waiti ∧ (atMicro true 0x606840).microword = .spec false 13 1 ∧
    (atMicro true 0x680840).microword = .spec true 1 1 ∧ (atMicro false 0x700040).microword = .ucswap 1 ∧
    (atMicro false 0x710000).microword = .wdkick ∧ (atMicro false 0x720040).microword = .ldseg 1 ∧
    decodeMicro 0x800000 = .reserved ∧ decodeMicro 0xF00000 = .reserved ∧ decodeMicro 0x0F0000 = .reserved := by decide +kernel

theorem stew_micro : (stew id).MicroReady :=
  ⟨by decide +kernel, by decide +kernel, by decide +kernel, fun c a n m h => by
    have hu : (stew id).uc.custom = none := by decide +kernel
    rw [hu] at h; cases h⟩

theorem custom_micro : custom.MicroReady :=
  ⟨by decide +kernel, by decide +kernel, by decide +kernel, fun c a n m h => by
    have hu : custom.uc.custom = some (255, 0, 4095, 63) := by decide +kernel
    rw [hu] at h; cases h; right; decide⟩

theorem witness_MicrowordsOfTheSequencer :
    ((stew id).MicroReady ∧ custom.MicroReady) ∧
    (regionOf 0 = .field 0 ∧ (stew id).fab.snoops = [] ∧ (stew id).fab.inflight = [] ∧
      ∀ k, k < 8 → (stew id).bitAt (Reg.DBG_CMP_CFG 16 k) 23 = false) ∧
    ((stew id).badDest 25 = false ∧ custom.badDest 25 = false ∧ (25 : BitVec 5).toNat < 26) ∧
    (microOp 0 1 2).isSome = true ∧ (microOp 3 (0xFFFFFF) ((0x3F : BitVec 6).signExtend 24)).isSome = true ∧
    (regionOf (longAddr 1 0x7FFFFF) = .field 0x17FFFFF ∧ (stew id).gate 16 0 0x17FFFFF false = none ∧
      (stew id).gate 16 0 0x17FFFFF true = none) ∧
    (custom.badTarget 0x1FFF false = false ∧ custom.badTarget 0x43F true = false ∧ (stew id).badTarget 0x3FFF false = false ∧
      (stew id).uc.ustack.length < 8) ∧
    (custom.uc.ustack = [0x1801] ∧ custom.uc.custom.isSome = true ∧ custom.Plain 16) ∧
    ((stew id).uc.custom = none ∧ (stew id).ucFetch.isSome = true ∧ (stew id).Plain 16) ∧
    (∃ v, (stew id).special 16 13 = some v) ∧ (stew id).inRegion = false ∧
    ((stew id).setReg Reg.STW_UCSTAT 0x200000).ucReady = true :=
  ⟨⟨stew_micro, custom_micro⟩, by and_intros <;> decide +kernel, by decide +kernel, by decide +kernel, by decide +kernel, by and_intros <;> decide +kernel,
    by decide +kernel, ⟨by decide +kernel, by decide +kernel, plain_of_plainNow (by decide +kernel)⟩,
    ⟨by decide +kernel, by decide +kernel, plain_of_plainNow (by decide +kernel)⟩, ⟨_, rfl⟩, by decide +kernel, by decide +kernel⟩

/-- An operator root whose key makes the check of `imageOne` short, and an image of one Steward program that verifies with it. -/
def rootOne : List Word :=
  [0x306730, 0x58A003, 0x020102, 0x020101, 0x300030, 0x003000, 0x300030, 0x463000, 0x034200, 0x04DE2D, 0x3FCD7D, 0xFE4C8F,
   0xA01699, 0x311769, 0x6F140A, 0x34C455, 0x1B60E6, 0x7A1F8E, 0xB1E9E9, 0x59C7AE, 0x477F54, 0xCA4904, 0x0C54CE, 0xB79524,
   0x2F8C9B, 0xBEE261, 0x0275F8, 0xC658FF, 0xE55BB8, 0x11B110, 0x1A9030, 0x000309, 0x003006, 0x020101, 0x020101]
def imageOne : List Word := [0x010001, 3, 0, 64, 3, 16, 4] ++ List.replicate 34 0 ++ [1] ++
  [0xA58749, 0x003D24, 0x9456F8, 0x5837BC, 0x17CDCE, 0x04528B, 0x2BAF64, 0x55742C, 0x1E03FF, 0x8491F5, 0x54D6A5, 0x874900,
   0x3D2494, 0x56F858, 0x37BC17, 0xCDCE04, 0x528B2B, 0xAF6455, 0x742C1E, 0x03FF84, 0x91F554, 0xD60000]

/-- A device whose slot 1 holds that image and whose Steward has not started. -/
def bootable : State :=
  let s := ((up.setReg Reg.GRN_IMGSEL 1).setBit Reg.SEC_CTRL 0).setBit Reg.SEC_STAT 21
  { s.updProc 16 (fun x => { x with parked := true }) with
    sec := { s.sec with root := rootOne }, gran := (imageOne.zipIdx.filter (fun x => x.1 != 0)).map (fun x => (0x100000 + x.2, x.1)) }

theorem witness_ControlStoreBanksChecksAndMailboxes :
    (bootable.dom 2 = true ∧ (bootable.proc 16).parked = true ∧ bootable.bitAt Reg.DBG_CTRL 2 = false ∧
      bootable.fld Reg.GRN_IMGSEL Fd.GRN_IMGSEL_ACT = 1 ∧ bootable.imgOk 1 = true ∧
      (bootable.imgSecs 1).find? (fun y => y.1 == 3) = some (3, 16, 4)) ∧
    (up.Opens 25 Reg.STW_UCDATA ∧ up.ucLegacy = false ∧ up.gate 25 (up.reqPlot 25) Reg.STW_UCDATA false = none ∧
      up.Opens 25 Reg.STW_UCCTRL ∧ up.bitAt Reg.STW_UCSTAT 19 = false) ∧
    ((up.setBit Reg.STW_UCSTAT 19).bitAt Reg.STW_UCSTAT 19 = true ∧ (up.setBit Reg.STW_UCSTAT 20).bitAt Reg.STW_UCSTAT 20 = true) ∧
    (∀ s, s = up.updUc (fun u => { u with bad := [0x3FFF, 0] }) → s.uc.stopped = false ∧
      s.uc.bad.contains (0x3FFF : BitVec 14).toNat = true ∧ s.uc.bad.contains (0 : BitVec 14).toNat = true ∧
      s.ucActiveAt 0 = true ∧ s.ucActiveAt 0x3FFF = false) ∧
    (up.halted 16 = false ∧ up.dom 2 = true) ∧
    (∀ s, s = up.updProc 16 (fun x => { x with parked := true }) → s.dom 2 = true ∧ (s.proc 16).parked = true ∧
      s.bitAt Reg.DBG_CTRL 2 = false ∧ s.imgOk 0 = false ∧ s.imgOk 1 = false) ∧
    (up.wdogDue < 2 ^ 64 ∧ up.uc.bad.contains (0x3FFF : BitVec 14).toNat = false) ∧
    (up.Opens 25 Reg.STW_WDOG ∧ up.bitAt Reg.STW_WDOG 23 = false) ∧
    (∀ s, s = up.setReg (Reg.STW_MB_CFG 15) 0x870000 → s.Opens 16 (Reg.STW_MB_TAIL 15) ∧
      ringCount (s.reg (Reg.STW_MB_HEAD 15)).toNat 16 ≤ s.mbSize 15 ∧ s.mbSize 15 < ringCount (s.reg (Reg.STW_MB_HEAD 15)).toNat 17 ∧
      s.Opens 16 (Reg.STW_MB_HEAD 15) ∧ ringCount (s.reg (Reg.STW_MB_HEAD 15)).toNat 0 ≤ s.mbCount 15) := by
  unfold State.Opens; simp only [forall_eq]; and_intros <;> decide +kernel

/-! ### Requests of the local host -/

/-- `State.Local` as a check. -/
def localNow (s : State) (code len plot : Nat) (f : List Word) : Bool :=
  s.stewUp && !s.recovery && !s.joined && decide (f.length = 4 + len) && tykLen f == len &&
  decide (0x30 ≤ getF (f.getD 0 0) ⟨23, 16⟩ ∧ getF (f.getD 0 0) ⟨23, 16⟩ ≤ 0x32) && tykCode f == code && tykKind f == 0 &&
  tykPlot f == plot && tykSrcKind f == 2 && getF (f.getD 2 0) ⟨21, 11⟩ == 0 && (s.pairOf f).isNone && !s.plotFenced plot

theorem local_of_localNow {s : State} {code len plot : Nat} {f : List Word} (h : localNow s code len plot f = true) :
    s.Local code len plot f := by
  simp only [localNow, Bool.and_eq_true, Bool.not_eq_eq_eq_not, Bool.not_true, decide_eq_true_eq, beq_iff_eq,
    Option.isNone_iff_eq_none] at h
  obtain ⟨⟨⟨⟨⟨⟨⟨⟨⟨⟨⟨⟨h1, h2⟩, h3⟩, h4⟩, h5⟩, h6⟩, h7⟩, h8⟩, h9⟩, h10⟩, h11⟩, h12⟩, h13⟩ := h
  exact ⟨h1, h2, h3, h4, h5, h6, h7, h8, h9, h10, h11, h12, h13⟩

/-- A request frame of the local host. -/
def ask (code plot : Nat) (payload : List Word) : List Word := mkFrame code 0 plot 0 2 0 5 payload

theorem witness_RequestsThatOnlyRead :
    up.Local 0x01 0 0 (ask 0x01 0 []) ∧ up.Local 0x70 0 0 (ask 0x70 0 []) ∧ up.Local 0x33 0 0 (ask 0x33 0 []) ∧
    (∀ f, f = ask 0x03 0 [0xFFC002] → up.Local 0x03 1 0 f ∧ payF f 0 23 13 = 2046 ∧ payF f 0 12 7 = 0 ∧ payF f 0 6 0 = 2 ∧
      2046 + 2 ≤ 2048 ∧ up.isManager = false ∧
      ∀ s, s = up.setFld Reg.LNK_CTRL Fd.LNK_CTRL_ROLE 3 → s.Local 0x03 1 0 f ∧ s.isManager = true) ∧
    (∀ f, f = ask 0x41 0 [0] → up.Local 0x41 1 up.supPlot f ∧ payF f 0 23 16 = 0 ∧
      getF (up.fetchZ 0 (0xC000000 + 256 * up.logPageOf (payF f 0 15 0))) ⟨15, 0⟩ = payF f 0 15 0) ∧
    (∀ f, f = ask 0x60 0 [0x800FFF, 1000] → up.Local 0x60 2 0 f ∧ payF f 0 22 12 = 0 ∧ payF f 1 23 10 = 0 ∧ 1 ≤ payF f 1 9 0 ∧
      payF f 1 9 0 ≤ 1000) ∧
    (∀ f, f = ask 0x12 7 [1, 0x7FFFFF, 1] → ∀ s, s = up.setReg (Reg.PLT_PGOWN 383) 7 → s.Local 0x12 3 7 f ∧ s.coresOf 7 = [] ∧
      (pay f 0).toNat ≤ 1 ∧ memAddr f < 0x1800000 ∧ (pay f 2).toNat = 1 ∧ s.badPage 7 (memAddr f) 1 22 = none ∧ s.memReady = true) := by
  simp only [forall_eq]
  refine ⟨?_, ?_, ?_, ?_, ?_, ?_, ?_⟩ <;> and_intros <;> first | exact local_of_localNow (by decide +kernel) | decide +kernel

/-- Beam 1 belongs to plot 3, which has no core; so do page 0 and Sheaf slot 3. -/
def three : State := ((up.setReg (Reg.PLT_OWN 1 1) 3).setReg (Reg.PLT_PGOWN 0) 3)

theorem witness_RequestsThatWriteDisplayMemoryAndPages :
    (∀ f, f = ask 0x10 3 [0x400000, 1, 0x40, 7] → ∀ n, n = 1 → three.Local 0x10 (2 + 2 * n) 3 f ∧ three.coresOf 3 = [] ∧ payF f 1 7 0 = n ∧
      payF f 0 22 22 = 1 ∧ 1 ≤ n ∧ payF f 0 21 16 = 0 ∧ payF f 1 23 8 = 0 ∧
      (∀ i, i < n → payF f (2 + 2 * i) 23 16 = 0 ∧ payF f (2 + 2 * i) 15 0 ≤ 0x3FFF ∧ payF f (2 + 2 * i) 15 0 ≠ 0x83) ∧
      three.sceneOwner f = none ∧ three.dom (domOfBeam 1) = true) ∧
    (∀ f, f = ask 0x11 3 [0, 0xFFFF, 5] → three.Local 0x11 3 3 f ∧ (pay f 0).toNat ≤ 1 ∧ memAddr f < 0x1800000 ∧
      three.badPage 3 (memAddr f) (3 - 2) 21 = none ∧ three.memReady = true) ∧
    (∀ f, f = ask 0x13 3 [10000] → ∀ s, s = (up.setReg (Reg.PLT_OWN 0 15) 3).setReg (Reg.STW_MB_CFG 3) 0x800000 →
      three.Local 0x13 1 3 f ∧ s.Local 0x13 1 3 f ∧ payF f 0 23 14 = 0 ∧ payF f 0 13 0 = 10000 ∧ s.coresOf 3 ≠ [] ∧
      (s.mbPut 3 f).isSome = true) ∧
    (∀ f, f = ask 0x20 3 [0, 1, 0, 1, 0x800200, 0] → three.Local 0x20 6 3 f ∧ (pay f 1).toNat ≤ 1 ∧
      three.badPage 3 (16 * (pay f 0).toNat) (6 - 3) 21 = none ∧ three.dom 15 = true ∧ three.shfState 3 = 0) ∧
    three.Local 0x21 0 3 (ask 0x21 3 []) ∧
    (∀ s, s = up.setFld Reg.SUP_STGSTAT Fd.SUP_STGSTAT_PLAYING 15 → s.stagingBusy = false ∧ s.dom 3 = true ∧ s.grnPortBusy = false ∧
      (∀ f, f = ask 0x30 0 (0x3FFD :: 1 :: List.replicate 256 5) → ∀ n, n = 1 → s.Local 0x30 (2 + 256 * n) 0 f ∧ payF f 0 23 14 = 0 ∧
        payF f 0 13 0 = 16381 ∧ payF f 1 23 2 = 0 ∧ payF f 1 1 0 = n ∧
        ∀ i, i < n → s.logOrImage (16381 + i) = false ∧ s.descPage (16381 + i) = false) ∧
      (∀ f, f = ask 0x31 0 [63, 5] → ∀ u, u = s.setFld Reg.SUP_STGBASE Fd.SUP_STGBASE_PAGE 0x3000 → u.Local 0x31 2 0 f ∧ payF f 0 23 6 = 0 ∧
        payF f 1 22 16 = 0 ∧ payF f 2 19 8 = 0 ∧ payF f 2 7 0 = 0 ∧
        u.stagingBusy = false ∧ u.logOrImage (u.fld Reg.SUP_STGBASE Fd.SUP_STGBASE_PAGE + payF f 0 5 0) = false)) ∧
    (∀ f, f = ask 0x32 0 [63] → up.Local 0x32 1 up.supPlot f ∧ payF f 0 22 6 = 0 ∧ up.dom 16 = true) := by
  simp only [forall_eq]
  refine ⟨?_, ?_, ?_, ?_, ?_, ?_, ?_⟩ <;> and_intros <;> first | exact local_of_localNow (by decide +kernel) | decide +kernel

theorem witness_RequestsOnSupervisionPlotsFirmwareAndRouting :
    (∀ f, f = ask 0x40 0 [0x800000] → up.Local 0x40 1 up.supPlot f ∧ payF f 0 23 22 = 2 ∧ payF f 0 21 0 = 0 ∧ up.nrState = 0) ∧
    (∀ f, f = ask 0x42 0 [0xFF] → up.Local 0x42 1 up.supPlot f ∧ payF f 0 23 8 = 0 ∧ pay f 0 ≠ 0 ∧ up.dom 16 = true ∧
      ∀ n, n < 8 → bit (pay f 0) n = true → up.ovA n = up.ovB n) ∧
    (∀ f, f = ask 0x50 0 [0x070F01] → up.Local 0x50 1 0 f ∧ payF f 0 23 19 = 0 ∧ payF f 0 15 8 = 15 ∧ payF f 0 7 0 = 1 ∧
      payF f 0 18 16 = 7 ∧ 15 + 1 ≤ classSize.getD 0 0 ∧ up.ownerRes 0 15 = 0) ∧
    (∀ f, f = ask 0x51 0 [0x200007] → up.Local 0x51 1 0 f ∧ payF f 0 20 3 = 0 ∧ payF f 0 2 0 = 7 ∧ payF f 0 23 21 = 1 ∧
      up.plotState 7 = 0) ∧
    (∀ f, f = ask 0x51 0 [0x400007] → ∀ s, s = up.setPlotState 7 2 → s.Local 0x51 1 0 f ∧ payF f 0 20 3 = 0 ∧
      payF f 0 2 0 = 7 ∧ payF f 0 23 21 = 2 ∧ s.plotState 7 = 2) ∧
    (∀ f, f = ask 0x52 7 [0xC007FF] → up.Local 0x52 1 7 f ∧ payF f 0 21 11 = 0 ∧ payF f 0 23 22 = 3) ∧
    (∀ f, f = ask 0x52 7 [0] → ∀ s, s = up.setReg (Reg.PLT_OWN 0 15) 7 → s.Local 0x52 1 7 f ∧ payF f 0 23 22 = 0 ∧ s.coresOf 7 ≠ []) ∧
    (∀ f, f = ask 0x53 0 [0xFF00, 0x070210] → up.Local 0x53 2 0 f ∧ payF f 0 23 16 = 0 ∧ payF f 0 7 0 = 0 ∧ payF f 1 23 19 = 0 ∧
      payF f 1 15 10 = 0 ∧ payF f 1 9 5 = 16 ∧ payF f 1 4 0 = 16 ∧ payF f 1 18 16 = 7 ∧
      up.bresSum 7 Fd.PLT_BRES_RESA 0x210 ≤ 16 ∧ up.bresSum 7 Fd.PLT_BRES_RESB 0x210 ≤ 16) ∧
    (∀ f, f = ask 0x61 0 [0xFFF, 1] → up.Local 0x61 2 0 f ∧ payF f 0 22 12 = 0 ∧ payF f 0 23 23 = 0) ∧
    (∀ f, f = ask 0x61 0 [0x800000, 1] → up.Local 0x61 2 0 f ∧ payF f 0 22 12 = 0 ∧ payF f 0 23 23 = 1 ∧ payF f 0 11 0 = 0) ∧
    (∀ f, f = ask 0x62 0 (4095 :: 1 :: List.replicate 256 5) → ∀ n, n = 1 → up.Local 0x62 (2 + 256 * n) 0 f ∧ payF f 0 23 14 = 0 ∧
      payF f 1 23 2 = 0 ∧ payF f 1 1 0 = n ∧ payF f 0 13 0 + n ≤ 4096 ∧ up.grnProtected (up.inactiveSlot * 0x1000) = false ∧
      up.dom 3 = true ∧ up.grnPortBusy = false) ∧
    (∀ f, f = ask 0x63 0 [0] → up.Local 0x63 1 0 f ∧ payF f 0 22 0 = 0 ∧ payF f 0 23 23 = 0 ∧ up.dom 3 = true ∧
      up.imgOk up.inactiveSlot = false) ∧
    (∀ f, f = ask 0x63 0 [0x800000] → ∀ s, s = (bootable.setReg Reg.GRN_IMGSEL 0).updProc 16 (fun x => { x with parked := false }) → s.Local 0x63 1 0 f ∧ payF f 0 22 0 = 0 ∧
      payF f 0 23 23 = 1 ∧ s.dom 3 = true ∧ s.ucLegacy = false ∧ s.imgOk s.inactiveSlot = true) ∧
    (∀ f, f = ask 0x71 0 [1, 0xC00FFF, 0xFF] → ∀ n, n = 1 → up.Local 0x71 (1 + 2 * n) 0 f ∧ (pay f 0).toNat = n ∧
      (∀ i, i < n → payF f (1 + 2 * i) 21 12 = 0 ∧ payF f (2 + 2 * i) 23 8 = 0) ∧ (up.stageRoutes f).isSome = true) := by
  simp only [forall_eq]
  refine ⟨?_, ?_, ?_, ?_, ?_, ?_, ?_, ?_, ?_, ?_, ?_, ?_, ?_, ?_⟩ <;> and_intros <;>
    first | exact local_of_localNow (by decide +kernel) | decide +kernel

/-- A request to plot 7's agent that waits for its reply. -/
def waitingAgent : State :=
  (((up.setReg (Reg.STW_MB_CFG 15) 0x800000).setReg (Reg.STW_MB_TAIL 15) 1).setReg (Reg.STW_MB_HEAD 15) 0).updTyk
    (fun k => { k with waits := [⟨.spi, ask 0x13 7 [], .agent 500 65535⟩] })

theorem witness_AgentsRelaysReportsAndAcknowledgements :
    up.Local 0x02 1 7 (ask 0x02 7 [0xFFFFFF]) ∧
    (∀ f, f = mkFrame 0x13 1 7 0 2 0 5 [] →
      ∀ s, s = (((waitingAgent.setMem 0 (f.getD 0 0)).setMem 1 (f.getD 1 0)).setMem 2 (f.getD 2 0)).setMem 3 (f.getD 3 0) →
      s.stewUp = true ∧ s.mbCount 15 ≠ 0 ∧ s.mbFrame 15 = f ∧ tykKind f = 1 ∧
      ∃ w ∈ s.tyk.waits, w.ofAgent 7 = true ∧ answers f w.head = true) ∧
    (waitingAgent.stewUp = true ∧ waitingAgent.mbCount 15 ≠ 0 ∧ tykKind (waitingAgent.mbFrame 15) ≠ 1) ∧
    (waitingAgent.firstDue 7 = some ⟨.spi, ask 0x13 7 [], .agent 500 65535⟩) ∧
    (∀ s, s = up.updTyk (fun k => { k with relays := [(ask 0x01 0 [], 500)] }) → s.stewUp = true ∧
      s.tyk.relays.reverse.find? (fun q => q.1.getD 3 0 == 5) = some (ask 0x01 0 [], 500)) ∧
    (up.stewUp = true ∧ up.joined = false) := by
  simp only [forall_eq]
  refine ⟨local_of_localNow (by decide +kernel), ?_, ?_, ?_, ?_, ?_⟩ <;> and_intros <;>
    first | decide +kernel | exact ⟨⟨.spi, ask 0x13 7 [], .agent 500 65535⟩, by decide +kernel⟩

theorem witness_PlotCommandsMoveAPlotThroughItsStates :
    (up.Opens 25 Reg.PLT_PCMD ∧ up.plotState 7 = 0 ∧ up.plotState 7 ≠ 2) ∧
    (∀ s, s = (up.setPlotState 7 2).setBit Reg.FAB_FENCE 15 → s.Opens 25 Reg.PLT_PCMD ∧ s.plotState 7 = 2 ∧ s.plotState 7 ≠ 0 ∧
      s.bitAt Reg.FAB_FENCE 15 = true) ∧
    (∀ s, s = (up.setPlotState 7 1).setBit Reg.FAB_FENCE 15 → s.plotState 7 = 1 ∧ s.bitAt Reg.FAB_FENCE 15 = true ∧
      ∀ j ∈ s.grn, j.sup = false ∨ s.supPlot ≠ 7) ∧
    (up.plotState 7 ≠ 1 ∧ up.plotState 7 ≠ 3 ∧ (up.setPlotState 7 3).plotState 7 = 3) := by
  unfold State.Opens; simp only [forall_eq]; and_intros <;> decide +kernel

theorem witness_PageTablesReservationsAndSecurityUnits :
    (up.Opens 16 (Reg.PLT_PT 7 255) ∧ bit (0 : Word) 23 = false ∧ 0x180 ≤ getF (0x800180 : Word) ⟨11, 0⟩ ∧
      (up.setReg (Reg.PLT_PGOWN 383) 7).fld (Reg.PLT_PGOWN 383) Fd.PLT_PGOWN_OWNER = 7 ∧
      bit (0x80017F : Word) 23 = true ∧ getF (0x80017F : Word) ⟨11, 0⟩ < 0x180 ∧
      up.fld (Reg.PLT_PGOWN 383) Fd.PLT_PGOWN_OWNER ≠ 7 ∧ up.bitAt (Reg.PLT_PGOWN 383) 4 = false) ∧
    (up.Opens 16 (Reg.PLT_BRES 7) ∧ up.bresSum 7 Fd.PLT_BRES_RESA 0x210 ≤ 16 ∧ up.bresSum 7 Fd.PLT_BRES_RESB 0x210 ≤ 16 ∧
      (16 < up.bresSum 7 Fd.PLT_BRES_RESA 0x231 ∨ 16 < up.bresSum 7 Fd.PLT_BRES_RESB 0x231)) ∧
    (∀ n ∈ [1, 29, 49152, 49180, 49181], ∀ s, s = up.setReg (Reg.SEC_OP_LEN 7) (wd n) → s.Opens 25 (Reg.SEC_OP_CTRL 7) ∧
      s.fld (Reg.SEC_OP_LEN 7) Fd.SEC_OP_LEN_LEN = n ∧ s.bitAt (Reg.SEC_OP_CTRL 7) 22 = false) ∧
    ((up.setReg (Reg.SEC_OP_CTRL 7) (putF 0x400000 Fd.SEC_OP_CTRL_OP 2)).bitAt (Reg.SEC_OP_CTRL 7) 22 = true ∧
      ∃ u bs ok, (up.setReg (Reg.SEC_OP_CTRL 7) (putF 0x400000 Fd.SEC_OP_CTRL_OP 2)).secInput 7 29 = (u, bs, ok)) ∧
    (∀ k ∈ [0, 0xFFFE, 0xFFFF], ∀ s, s = up.setFld (Reg.SEC_PKGEN 7) Fd.SEC_PKGEN_GEN k → s.Opens 25 (Reg.SEC_PKGEN 7) ∧
      s.fld (Reg.SEC_PKGEN 7) Fd.SEC_PKGEN_GEN = k) ∧
    (up.Opens 25 Reg.SEC_CTRL ∧ up.Opens 25 (Reg.GRN_BUF 255) ∧ up.Opens 25 Reg.GRN_CMD ∧ up.grnPortBusy = false ∧
      up.grnProtected 0x3FFF = false) ∧
    (∀ s, s = { up with grn := [⟨false, 0x3FFF, List.replicate 256 7⟩] } → s.grnPortBusy = true ∧ s.tyk.waits = [] ∧
      s.grn = [⟨false, 0x3FFF, List.replicate 256 7⟩]) := by
  unfold State.Opens; simp only [forall_eq]; and_intros <;> first | exact ⟨_, _, _, rfl⟩ | decide +kernel

/-! ### The link -/

/-- Lane `n` with this LNK_Ln_STAT, in the worker ring whose lanes are 6 to the east and 7 to the west. -/
def lane (n : Nat) (stat : Word) : State := (up.setReg Reg.LNK_RINGCFG 0xDE0000).setReg (Reg.LNK_L_STAT n) stat

theorem witness_LanesTrainAgreeAndComeUp :
    (up.Opens 25 (Reg.LNK_L_CFG 7) ∧ up.dom (domOfLane 7) = true ∧ up.bitAt (Reg.LNK_L_CFG 7) 23 = false) ∧
    (∀ s, s = (lane 7 0x004000).setReg (Reg.LNK_L_CFG 7) 0x800000 → s.Opens 25 (Reg.LNK_L_CFG 7) ∧
      s.bitAt (Reg.LNK_L_CFG 7) 23 = true ∧ s.nState 7 = 4 ∧ s.nState 7 ≠ 0) ∧
    (∀ k ∈ [0, 1, 2, 3, 4, 5], (lane 7 (wd (4096 * k))).nState 7 = k) ∧
    (∀ ws, ws = [0x082000, 0, 0, 0, 0] → ∀ s, s = (lane 7 0x001000).setReg (Reg.LNK_L_CFG 7) 0x880000 →
      s.computeSet 7 ws = some 17 ∧ getF (ws.getD 0 0) ⟨23, 22⟩ = 0 ∧ s.cfgMode 7 = 0 ∧ bit (ws.getD 0 0) 13 = true ∧
      topRate (s.laneRates 7 &&& getF (ws.getD 0 0) ⟨21, 19⟩) = 1 ∧ s.computeSet 7 [0, 0, 0, 0, 0] = none) ∧
    (∀ s, s = (lane 7 0x002000).updLane 7 (fun l => { l with setw := some (16 * 3 + 8 * 1 + 4 * 1 + 2) }) →
      s.nState 7 = 2 ∧ (s.lane 7).setw = some (16 * 3 + 8 * 1 + 4 * 1 + 2) ∧ 1 ≤ (16 * 3 + 8 * 1 + 4 * 1 + 2) / 16) ∧
    (((lane 7 0x802000).nState 7 = 2 ∧ (lane 7 0x802000).laneMode 7 = 2) ∧
      (lane 7 0xC02000).nState 7 = 2 ∧ (lane 7 0xC02000).laneMode 7 = 3) ∧
    (∀ s, s = (lane 7 0x001000).setReg (Reg.LNK_L_CFG 7) 0x808000 → s.nState 7 = 1 ∧ s.cfgMode 7 = 0 ∧
      s.bitAt (Reg.LNK_L_CFG 7) 15 = true ∧ (s.lane 7).block = []) ∧
    ((lane 7 0x005000).nState 7 = 5 ∧ (lane 7 0x005000).cfgMode 7 ≠ 1 ∧ (lane 7 0x014000).bitAt (Reg.LNK_L_STAT 7) 16 = true) := by
  unfold State.Opens; simp only [forall_eq]; and_intros <;> decide +kernel

/-- A clear frame from device 5 with its check. -/
def frame (ty : Nat) (dest : BitVec 11) (payload : List Word) : LinkFrame :=
  sealFrame {} ty { dir := true, hops := 255, src := 5, dest := dest, sid := 9, seq := 1, payload := payload }

/-- A clear frame that its sender sealed passes. -/
theorem frame_opens (k : HopKey) (e ty : Nat) (dest : BitVec 11) (ws : List Word) : openFrame k e ty (frame ty dest ws) = some ws := by
  simp [openFrame, frame, sealFrame, headerWords]

theorem no_keys_without_a_signature (s : State) : s.authKeys {} = none := by
  have h (key digest : List (BitVec 8)) : Crypto.ecdsaVerify key digest [] = false := by
    simp [Crypto.ecdsaVerify, show Crypto.ofBytes [] = 0 from rfl]
  unfold State.authKeys
  split
  · split <;> simp [h]
  · rfl

theorem witness_LanesTrainAgreeAndComeUp_frames_and_keys :
    (lane 7 0x001000).nState 7 = 1 ∧ ((lane 7 0x001000).laneCounts 7 (frame 0 0 [])).frameOpen 7 0 { frame 0 0 [] with cut := true } = none ∧
    ((lane 7 0x001000).laneCounts 7 (frame 0 0 [0x082000, 0, 0, 0, 0])).frameOpen 7 0 (frame 0 0 [0x082000, 0, 0, 0, 0]) =
      some [0x082000, 0, 0, 0, 0] ∧ bit (0x082000 : Word) 12 = false ∧ bit (0x083000 : Word) 12 = true ∧
    getF (([0x083000, 0, 0, 0, 0x440000] : List Word).getD 4 0) ⟨23, 18⟩ = 17 ∧ ((lane 7 0x001000).lane 7).keyid = 0 ∧
    (lane 7 0x081000).bitAt (Reg.LNK_L_STAT 7) 19 = true ∧ (lane 7 0x803000).nState 7 = 3 ∧
    (lane 7 0x803000).authKeys ((lane 7 0x803000).lane 7).auth = none ∧
    (lane 7 0x814000).bitAt (Reg.LNK_L_STAT 7) 16 = true ∧ (lane 7 0x814000).recovery = false ∧
    ((lane 7 0x814000).setBit Reg.SEC_STAT 20).recovery = true := by
  refine ⟨?_, ?_, frame_opens .., ?_, ?_, ?_, ?_, ?_, ?_, no_keys_without_a_signature _, ?_, ?_, ?_⟩ <;> decide +kernel

/-- Both lanes of the worker ring are up, and frames go on. -/
def ringUp : State :=
  (((lane 7 0x814000).setReg (Reg.LNK_L_STAT 6) 0x814000).setBit Reg.LNK_CTRL 17).updLane 6 (fun l => { l with opened := true })

theorem witness_FramesActOnceAreForwardedOrDropped_dropped :
    (∀ k ∈ [3, 4], (lane 7 (wd (4096 * k))).nState 7 = k) ∧ up.frameOpen 7 1 { frame 1 0 [] with cut := true } = none ∧
    up.frameOpen 7 6 { frame 6 0 [0x400000] with check := [0, 0] } = none := by decide +kernel

theorem witness_FramesActOnceAreForwardedOrDropped_going_on :
    ringUp.nState 7 = 4 ∧ ringUp.anyAuth = true ∧ ringUp.bitAt Reg.LNK_CTRL 17 = true ∧ ringUp.devAddr ≠ 5 ∧
    ringUp.ringOf 7 = some (0, true, 6) ∧ ringUp.ringLaneUp 6 = true ∧ ringUp.partnerIn 6 = true := by decide +kernel

/-- A control frame under the hop keys of lane 0, and the state that receives it. -/
def ctrlIn : LinkFrame := frame 4 0 [0x32]
def ctrlAt : State := (lane 0 0x014000).updLnk (fun k => { k with keys := [(5, [(4, 1)])] })

theorem witness_FramesActOnceAreForwardedOrDropped_copy :
    ctrlAt.nState 0 = 4 ∧ (ctrlAt.laneCounts 0 ctrlIn).frameOpen 0 4 ctrlIn = some [0x32] ∧
    (ctrlAt.laneCounts 0 ctrlIn).clearOk 0 4 ctrlIn = true ∧ (ctrlAt.laneCounts 0 ctrlIn).isCopy 4 ctrlIn = true := by decide +kernel

/-- A partner whose keys stand, and a request that it sealed, with nothing in it. -/
def hopKey : HopKey := ⟨List.replicate 32 7, List.replicate 6 9⟩
def peer5 : E2eSt := { me := 0, peer := 5, keyed := true, tx := hopKey, rx := hopKey }
def reqIn : LinkFrame := frame 4 0 (peer5.sealed [])
def reqAt : State := ((lane 0 0x014000).setBit Reg.LNK_ADDR 22).updLnk (fun k => { k with e2e := [peer5] })

theorem sealed_nil : peer5.sealed [] = 0 :: 0 :: packWords (Crypto.gcmTag hopKey.key (hopKey.iv 0) [] []) := by
  have h : Crypto.gcmCrypt hopKey.key (hopKey.iv 0) [] = [] := by decide +kernel
  change [wd (0 / 2 ^ 24), wd 0] ++ packWords (Crypto.gcmCrypt hopKey.key (hopKey.iv 0) []) ++
    packWords (Crypto.gcmTag hopKey.key (hopKey.iv 0) [] (Crypto.gcmCrypt hopKey.key (hopKey.iv 0) [])) = _
  rw [h]; rfl

theorem unsealed_sealed_nil : peer5.unsealed (peer5.sealed []) = some [] := by
  have l : (packWords (Crypto.gcmTag hopKey.key (hopKey.iv 0) [] [])).length = 6 := by decide +kernel
  have h : Crypto.gcmCrypt hopKey.key (hopKey.iv 0) [] = [] := by decide +kernel
  rw [sealed_nil]
  generalize hg : packWords (Crypto.gcmTag hopKey.key (hopKey.iv 0) [] []) = g at *
  simp [E2eSt.unsealed, l, peer5]
  exact ⟨hg.symm, (congrArg packWords h).trans (by decide)⟩

theorem witness_FramesActOnceAreForwardedOrDropped_request :
    reqAt.nState 0 = 4 ∧ (reqAt.laneCounts 0 reqIn).frameOpen 0 4 reqIn = some (peer5.sealed []) ∧
    (reqAt.laneCounts 0 reqIn).clearOk 0 4 reqIn = true ∧ (reqAt.laneCounts 0 reqIn).isCopy 4 reqIn = false ∧
    (reqAt.laneCounts 0 reqIn).frameMine reqIn = true ∧
    (reqAt.laneCounts 0 reqIn).e2eOf reqIn.dest.toNat reqIn.src.toNat = some peer5 ∧ peer5.keyed = true ∧
    peer5.unsealed (peer5.sealed []) = some [] ∧ tykKind [] = 0 ∧ ctrlAt.e2eOf 0 5 = none := by
  refine ⟨by decide +kernel, frame_opens .., ?_, ?_, ?_, ?_, rfl, unsealed_sealed_nil, ?_, ?_⟩ <;> decide +kernel

/-- A RING frame of a cut. -/
def cutIn : LinkFrame := frame 6 0 [0x400000]

def cutAt : State := (lane 7 0x014000).setReg (Reg.LNK_L_STAT 6) 0x014000

theorem witness_FramesActOnceAreForwardedOrDropped_cut :
    (cutAt.laneCounts 7 cutIn).frameOpen 7 6 cutIn = some [0x400000] ∧ (cutAt.laneCounts 7 cutIn).clearOk 7 6 cutIn = true ∧
    (cutAt.laneCounts 7 cutIn).isCopy 6 cutIn = false ∧ (cutAt.laneCounts 7 cutIn).ringOf 7 = some (0, true, 6) ∧
    (cutAt.laneCounts 7 cutIn).ringHead 0 = false ∧ (cutAt.laneCounts 7 cutIn).isManager = false ∧ cutAt.nState 7 = 4 ∧
    getF (0x400000 : Word) ⟨23, 22⟩ = 1 ∧ cutIn.src.toNat ≠ cutAt.devAddr ∧ cutIn.src ≠ 0 ∧ cutIn.hops ≠ 0 := by decide +kernel

/-- The ring with a partner to the west that has joined, and its beat. -/
def beatAt : State := ringUp.updLane 7 (fun l => { l with opened := true })
def beatIn (w : Word) : LinkFrame := frame 1 0 [w]

theorem witness_FramesActOnceAreForwardedOrDropped_beats (w : Word) :
    (beatAt.laneCounts 7 (beatIn w)).frameOpen 7 1 (beatIn w) = some [w] ∧ (beatAt.laneCounts 7 (beatIn w)).clearOk 7 1 (beatIn w) = true :=
  ⟨frame_opens .., by simp [State.clearOk]⟩

theorem witness_FramesActOnceAreForwardedOrDropped_neighbour :
    ((beatAt.laneCounts 7 (beatIn 0x60FF00)).lane 7).lost = false ∧ (beatAt.laneCounts 7 (beatIn 0x60FF00)).partnerIn 7 = true ∧
    (beatAt.laneCounts 7 (beatIn 0x60FF00)).ringOf 7 = some (0, true, 6) ∧
    (beatAt.laneCounts 7 (beatIn 0x60FF00)).ringHead 0 = false := by decide +kernel

theorem witness_FramesActOnceAreForwardedOrDropped_epochs :
    beatAt.nState 7 = 4 ∧ getF (0x60FF00 : Word) ⟨23, 21⟩ = 3 ∧ getF (0x800000 : Word) ⟨23, 21⟩ = 4 ∧
    beatAt.fld Reg.LNK_STAT Fd.LNK_STAT_EPOCH < getF (0x60FF00 : Word) ⟨15, 8⟩ ∧
    (beatAt.setFld Reg.LNK_CTRL Fd.LNK_CTRL_ROLE 3).fld Reg.LNK_CTRL Fd.LNK_CTRL_ROLE = 3 ∧
    getF (0x800000 : Word) ⟨15, 8⟩ ≤ beatAt.fld Reg.LNK_STAT Fd.LNK_STAT_EPOCH ∧
    ringUp.ringLaneUp 7 = true ∧ ringUp.ringLanes 0 = some (6, 7) ∧ ringUp.ringLanes 1 = none ∧
    ringUp.laneIsUp 6 = true ∧ ringUp.laneIsUp 7 = true ∧ ringUp.laneMode 7 = 2 := by decide +kernel

theorem witness_FramesActOnceAreForwardedOrDropped_hops : ∃ f : LinkFrame, f.hops.toNat = (Config.ringHops 0).toNat :=
  ⟨{ hops := Config.ringHops 0 }, rfl⟩

/-- A sample of a stream. -/
def sampleIn : LinkFrame := frame 3 0 [7]
def sampleAt : State := (lane 0 0x014000).setFld Reg.AUD_STAT Fd.AUD_STAT_STATE 2

theorem witness_FramesActOnceAreForwardedOrDropped_samples :
    sampleAt.nState 0 = 4 ∧ (sampleAt.laneCounts 0 sampleIn).frameOpen 0 3 sampleIn = some [7] ∧
    (sampleAt.laneCounts 0 sampleIn).clearOk 0 3 sampleIn = true ∧ sampleAt.audState ≠ 0 ∧
    idxSeen (Tab.get [] sampleAt.lnk.seen sampleIn.sid.toNat) sampleIn.seq.toNat = false ∧
    idxSeen [(1, 1)] 1 = true ∧ idxSeen [(1, 1)] 2 = false ∧ idxSeen [(5, 1), (0, 2)] 3 = false := by decide +kernel

/-- A TIME frame, on a lane that closes no ring. -/
def timeIn : LinkFrame := frame 2 0 (List.replicate 10 0)
def timeAt : State :=
  ((lane 1 0x014000).setReg Reg.LNK_RINGCFG 0).updLane 1 (fun l => { l with sent := some (0, some (0, 0)) })

theorem witness_FramesActOnceAreForwardedOrDropped_time :
    timeAt.nState 1 = 4 ∧ (timeAt.laneCounts 1 timeIn).frameOpen 1 2 timeIn = some (List.replicate 10 0) ∧
    (timeAt.laneCounts 1 timeIn).clearOk 1 2 timeIn = true ∧ timeAt.upstream ≠ some 1 ∧ timeAt.ringLanes 0 = none ∧
    timeAt.ringLanes 1 = none ∧ (timeAt.lane 1).sent = some (0, some (0, 0)) ∧ timeOf (List.replicate 10 0) 6 = 0 ∧
    (timeAt.lane 1).delays = [] := by decide +kernel

/-- A pixel lane whose beam runs. -/
def pixelUp : State := ((lane 1 0xC04000).setFld (Reg.BM_TCTRL 1) Fd.BM_TCTRL_STATE 4).setReg (Reg.LNK_L_CFG 1) 0x804000

theorem witness_FramesActOnceAreForwardedOrDropped_relock :
    pixelUp.laneIsUp 1 = true ∧ pixelUp.laneMode 1 = 3 ∧ pixelUp.laneBeam 1 = 1 ∧ pixelUp.genState 1 = 4 := by decide +kernel

/-! What the payload of a JOIN frame means is a free value; all other conditions are met here. -/

def joinIn : LinkFrame := frame 5 0 [1]
def authAt : State := (ringUp.updLane 7 (fun l => { l with auth := { mine := [1] } })).setBit Reg.LNK_ADDR 22

theorem witness_DevicesJoinAndPartnersAuthenticate_at_the_manager :
    authAt.nState 7 = 4 ∧ authAt.recovery = false ∧ (authAt.laneCounts 7 joinIn).frameOpen 7 5 joinIn = some [1] ∧
    (authAt.laneCounts 7 joinIn).clearOk 7 5 joinIn = true ∧ ((authAt.laneCounts 7 joinIn).lane 7).auth.mine ≠ [] ∧
    (authAt.laneCounts 7 joinIn).frameMine joinIn = true := by decide +kernel

/-- A device that joins, as the manager knows it, and its last message. -/
def joining : E2eSt := { me := 0, peer := 0, lane := some 7, auth := { mine := [1] } }
def proofIn : LinkFrame := sealFrame {} 5 { hops := 255, sid := 9, seq := 1, payload := [1] }
def proofAt : State := (ringUp.setBit Reg.LNK_ADDR 22).updLnk (fun k => { k with e2e := [joining], joinOf := some (7, 1, 2, 3) })

theorem witness_DevicesJoinAndPartnersAuthenticate_address :
    (proofAt.laneCounts 7 proofIn).frameOpen 7 5 proofIn = some [1] ∧ (proofAt.laneCounts 7 proofIn).clearOk 7 5 proofIn = true ∧
    proofIn.src = 0 ∧ proofIn.dest = 0 ∧ proofIn.bc = false ∧ (proofAt.laneCounts 7 proofIn).bitAt Reg.LNK_ADDR 22 = true ∧
    (proofAt.laneCounts 7 proofIn).e2eOf 0 0 = some joining ∧ joining.lane.isSome = true ∧ joining.auth.mine ≠ [] ∧ joining.wait = [] ∧
    (proofAt.laneCounts 7 proofIn).lnk.joinOf = some (7, 1, 2, 3) ∧ proofAt.lnk.dir = [] ∧ proofAt.addrFree 1 = true := by decide +kernel

/-- The device that asked, with and without its keys. -/
def asking (keyed : Bool) : State :=
  ringUp.updLnk (fun k => { k with e2e := [{ me := 0, peer := 0, keyed := keyed }], joinAsk := true })

theorem witness_DevicesJoinAndPartnersAuthenticate_at_the_device :
    (∀ b, ((asking b).laneCounts 7 joinIn).lnk.joinAsk = true ∧ ((asking b).laneCounts 7 joinIn).joined = false ∧
      ((asking b).laneCounts 7 joinIn).e2eOf 0 0 = some { me := 0, peer := 0, keyed := b } ∧ (asking b).lnk.joinAsk = true ∧
      (List.range 8).find? (fun n => ((asking b).ringOf n).isSome && (asking b).ringLaneUp n && (asking b).laneMode n == 2) = some 6) ∧
    ringUp.lnk.joinAsk = false ∧ ringUp.frameMine joinIn = false ∧ ringUp.recovery = false ∧
    (List.range 8).find? (fun n => (up.ringOf n).isSome && up.ringLaneUp n && up.laneMode n == 2) = none := by decide +kernel

theorem witness_ReferencesManagersAndAmplifiers :
    ((up.updRef (fun r => { r with since := [(2, some 5)] })).refSince 2 = some 5 ∧ up.refSince 3 = none ∧
      up.fld Reg.LNK_REFSTAT Fd.LNK_REFSTAT_TARGET = 3) ∧
    (∀ s, s = ((up.setFld Reg.LNK_CTRL Fd.LNK_CTRL_ROLE 3).setFld Reg.LNK_REFCFG Fd.LNK_REFCFG_PRI0 2).setBit Reg.LNK_REFSTAT 17 →
      s.fld Reg.LNK_CTRL Fd.LNK_CTRL_ROLE = 3 ∧ s.fld Reg.LNK_REFCFG Fd.LNK_REFCFG_PRI0 = 2 ∧
      s.bitAt Reg.LNK_REFSTAT (15 + 2) = true) ∧
    (up.fld Reg.LNK_CTRL Fd.LNK_CTRL_ROLE ≠ 3 ∧ up.bitAt Reg.LNK_ADDR 22 = false) ∧
    (∀ s, s = (((lane 7 0x404000).setBit Reg.LNK_PTPCFG 12).setFld Reg.LNK_PTPCFG Fd.LNK_PTPCFG_LANE 7).setFld Reg.LNK_REFSTAT
        Fd.LNK_REFSTAT_TARGET 1 →
      s.bitAt Reg.LNK_PTPCFG 12 = true ∧ s.laneIsUp (s.fld Reg.LNK_PTPCFG Fd.LNK_PTPCFG_LANE) = true ∧
      s.laneMode (s.fld Reg.LNK_PTPCFG Fd.LNK_PTPCFG_LANE) = 1 ∧ s.fld Reg.LNK_REFSTAT Fd.LNK_REFSTAT_TARGET = 1 ∧
      s.refSince 1 = none ∧ (s.setBit Reg.LNK_REFCFG 6).bitAt Reg.LNK_REFCFG 6 = true) ∧
    (up.setBit Reg.LNK_REFSTAT 19).bitAt Reg.LNK_REFSTAT 19 = true ∧
    (∀ s, s = (up.setFld Reg.LNK_CTRL Fd.LNK_CTRL_ROLE 3).setFld Reg.LNK_MGRCFG Fd.LNK_MGRCFG_STBYADDR 2047 →
      s.fld Reg.LNK_CTRL Fd.LNK_CTRL_ROLE = 3 ∧ s.fld Reg.LNK_MGRCFG Fd.LNK_MGRCFG_STBYADDR ≠ 0) ∧
    ((up.setBit Reg.LNK_MGRCFG 23).bitAt Reg.LNK_MGRCFG 23 = true ∧ (up.setBit Reg.LNK_MGRCFG 23).bitAt Reg.LNK_ADDR 22 = false) ∧
    (∀ s, s = up.setReg (Reg.AUD_TDM_CFG 3) 0x800010 → s.ampOn 3 = true ∧ s.bitAt (Reg.LNK_TDMCAP 3) 23 = false ∧
      1 ≤ (8 : BitVec 8).toNat ∧ (8 : BitVec 8).toNat ≤ 8) ∧
    (up.Opens 25 Reg.LNK_RTCMT ∧ up.audState ≠ 2 ∧ (audio 2).Opens 25 Reg.LNK_RTCMT ∧ (audio 2).audState = 2) := by
  unfold State.Opens; simp only [forall_eq]; and_intros <;> decide +kernel

/-! ### Interrupts, tines, timers, the Drill, pins -/

theorem witness_InterruptLinesRoutesAndCompletion :
    ((249 : BitVec 8).toNat < 250 ∧ irqReg 248 7 = Reg.IRQ_MBX 7) ∧
    (up.Opens 16 (Reg.IRQ_SRC 247) ∧ getF (16 : Word) Fd.IRQ_SRC_TARGET = 16 ∧ (247 : BitVec 8).toNat < 248 ∧
      up.Opens 15 (Reg.IRQ_SRC 247) ∧ up.corePlot 0 = up.corePlot 15) ∧
    (getF (17 : Word) Fd.IRQ_SRC_TARGET = 17 ∧ 248 ≤ (255 : BitVec 8).toNat ∧ up.Opens 16 (Reg.IRQ_SRC 255)) ∧
    (up.setReg (Reg.PLT_OWN 0 14) 7).corePlot 14 ≠ (up.setReg (Reg.PLT_OWN 0 14) 7).corePlot 15 ∧
    (∀ s, s = up.setReg (Reg.IRQ_SRC 247) 0xA00F10 → s.Opens 16 (Reg.IRQ_DONE 16) ∧ s.pendsOn 16 (247, 0) = true) ∧
    (∀ l ∈ irqLines, l.1 = 255 → up.pendsOn 16 l = false) ∧
    (∀ s, s = up.setReg (Reg.IRQ_RUN 16) 0x8002 → s.Opens 16 (Reg.IRQ_DONE 16) ∧ s.reg (Reg.IRQ_RUN 16) &&& 0xFFFE ≠ 0) ∧
    ((up.setReg (Reg.IRQ_GRP 15) 0xFFFFFF).fld (Reg.IRQ_GRP 15) Fd.IRQ_GRP_HOLD ≠ 0 ∧ up.fld (Reg.IRQ_GRP 15) Fd.IRQ_GRP_HOLD = 0) ∧
    ({ up with irqHeld := 0x8000 }.irqHeld.getLsbD 15 = true ∧ up.irqHeld.getLsbD 15 = false) ∧
    up.reg (Reg.IRQ_RUN 16) &&& 0xFFFE = 0 ∧ up.Opens 25 (Reg.IRQ_BELL 15) := by
  unfold State.Opens; simp only [forall_eq]; and_intros <;> decide +kernel

/-- Tine 63 with these events waiting or on their way. -/
def tines (w t : List TineEvent) : State := { up with tin := { up.tin with waiting := w, transit := t } }

theorem witness_TineEventsAreAcceptedAndDelivered :
    (up.Opens 25 (Reg.TIN_PUB 7) ∧ (up.setReg (Reg.TIN_ACL 63) 0x80).bitAt (Reg.TIN_ACL 63) 7 = true ∧
      (up.setReg (Reg.TIN_ACL 63) 0x7F).bitAt (Reg.TIN_ACL 63) 7 = false ∧ (up.setReg (Reg.TIN_ACL 63) 0x7F).Opens 25 (Reg.TIN_PUB 7) ∧
      (up.setReg (Reg.TIN_ACL 63) 0x80).Opens 25 (Reg.TIN_PUB 7)) ∧
    (up.tin.waiting.filter (fun e => e.tine == 63) = [] ∧
      (tines [⟨63, false⟩] []).tin.waiting.filter (fun e => e.tine == 63) = [⟨63, false⟩] ∧
      (tines [⟨63, true⟩, ⟨0, false⟩, ⟨63, false⟩] []).tin.waiting.filter (fun e => e.tine == 63) = [⟨63, true⟩, ⟨63, false⟩]) ∧
    ((∀ e ∈ (tines [] [⟨0, false⟩]).tin.transit, e.tine ≠ 63) ∧
      (tines [] [⟨0, false⟩, ⟨63, false⟩]).tin.transit.find? (fun e => e.tine == 63) = some ⟨63, false⟩) ∧
    (∀ s, s = up.setReg (Reg.TIN_GU 15) (putF (putF 0x800000 Fd.TIN_GU_IN 63) Fd.TIN_GU_SIG 63) →
      s.bitAt (Reg.TIN_GU 15) 23 = true ∧ s.fld (Reg.TIN_GU 15) Fd.TIN_GU_IN = 63 ∧
      s.gateSignal 15 (s.fld (Reg.TIN_GU 15) Fd.TIN_GU_SIG) = !s.bitAt (Reg.TIN_GU 15) 22) ∧
    (∀ s, s = up.setReg (Reg.TMR_T_CFG 15) (putF 0x800000 Fd.TMR_T_CFG_STINE 63) → s.frozen 0 = false ∧ s.tmrTine 15 = false ∧
      s.bitAt (Reg.TMR_T_CFG 15) 23 = true ∧ s.fld (Reg.TMR_T_CFG 15) Fd.TMR_T_CFG_STINE = 63 ∧ s.tmrRun 15 = false) ∧
    (∀ s, s = { (up.setReg (Reg.TMR_T_CTRL 15) (putF 0x8000 Fd.TMR_T_CTRL_CTINE 63)) with tmr := { up.tmr with busy := 0x8000 } } →
      s.frozen 0 = false ∧ s.tmrTine 15 = true ∧ s.fld (Reg.TMR_T_CTRL 15) Fd.TMR_T_CTRL_CTINE = 63 ∧
      s.bitAt (Reg.TMR_T_CFG 15) 23 = false ∧ s.tmr.busy.getLsbD 15 = true) ∧
    (∀ s, s = (up.setReg (Reg.DRL_CH_CTRL 31) 0x800000).setReg (Reg.DRL_CH_CFG 31) (putF 0x800000 Fd.DRL_CH_CFG_TTINE 63) →
      s.bitAt (Reg.DRL_CH_CTRL 31) 23 = true ∧ s.bitAt (Reg.DRL_CH_CFG 31) 23 = true ∧
      s.fld (Reg.DRL_CH_CFG 31) Fd.DRL_CH_CFG_TTINE = 63) := by
  unfold State.Opens; simp only [forall_eq]; and_intros <;> decide +kernel

/-- Timer 15 with this TMR_T15_CTRL and this count. -/
def timer (ctrl : Word) (c : BitVec 48) : State := (up.setReg (Reg.TMR_T_CTRL 15) ctrl).setTmr 15 c

theorem witness_TimersStartCountMatchAndCapture :
    (up.Opens 25 (Reg.TMR_TBCMD 7) ∧ up.Opens 25 (Reg.TMR_T_CTRL 15) ∧ up.tmrTine 15 = false) ∧
    ((timer 0x8000 0).Opens 25 (Reg.TMR_T_CTRL 15) ∧ (timer 0x8000 0).tmrTine 15 = true) ∧
    (∀ s, s = up.setReg (Reg.PLT_OWN 6 15) 7 → s.Opens 25 (Reg.TMR_GSTART 7) ∧
      ∀ k, k < 16 → (0x8000 : BitVec 16).getLsbD k = true → s.ownerRes 6 k = 7 ∧ s.tmrTine k = false ∧
        s.fld (Reg.TMR_T_CTRL k) Fd.TMR_T_CTRL_DIV = 0) ∧
    (up.Opens 25 (Reg.TMR_GSTART 7) ∧ (0x8000 : BitVec 16).getLsbD 15 = true ∧ up.ownerRes 6 15 ≠ 7) ∧
    (∀ n ∈ [0, 0xFFFFFFFFFFFE, 0xFFFFFFFFFFFF], ∀ s, s = timer 0x080000 (BitVec.ofNat 48 n) → s.tmrRun 15 = true ∧
      s.tmrTine 15 = false ∧ s.frozen 0 = false ∧ (s.tmrCnt 15).toNat = n) := by
  unfold State.Opens; simp only [forall_eq]; and_intros <;> decide +kernel

/-- Field memory at rest, from what is read in one state. -/
theorem quiet_of {s : State}
    (h : s.memReady = true ∧ s.reg (Reg.FAB_BANKSLP 0) = 0 ∧ s.reg (Reg.FAB_BANKSLP 1) = 0 ∧ s.fab.wbs = [] ∧ s.fab.snoops = [] ∧
      s.fab.inflight = [])
    (d : ∀ ln, s.dirtyLine ln = none) : s.Quiet := by
  refine ⟨h.1, fun k => ?_, d, h.2.2.2.1, h.2.2.2.2.1, h.2.2.2.2.2⟩
  unfold State.sleeps slpReg State.bitAt
  split <;> simp [h.2.1, h.2.2.1, bit]

/-- Drill channel 31 runs with both addresses advancing, one word left. -/
def drill : State :=
  ((((up.setReg (Reg.DRL_CH_CTRL 31) 0xA00000).setReg (Reg.DRL_CH_CFG 31) 0x60).setReg (Reg.DRL_CH_ACNT 31) 1).setReg
    (Reg.DRL_CH_ASRC 31) 1).setReg (Reg.DRL_CH_ADST 31) 0

theorem witness_DrillBlocksAndBursts :
    (up.Opens 25 (Reg.DRL_CH_CTRL 31) ∧ up.reg (Reg.DRL_CH_COUNT 31) = 0) ∧
    (∀ s, s = (up.setReg (Reg.DRL_CH_COUNT 31) 1).setBit (Reg.DRL_CH_CTRL 31) 20 → s.Opens 25 (Reg.DRL_CH_CTRL 31) ∧
      s.reg (Reg.DRL_CH_COUNT 31) ≠ 0 ∧ s.bitAt (Reg.DRL_CH_CTRL 31) 20 = true) ∧
    (∀ s, s = (up.setReg (Reg.DRL_CH_COUNT 31) 1) → s.Opens 25 (Reg.DRL_CH_CTRL 31) ∧
      s.reg (Reg.DRL_CH_COUNT 31) ≠ 0 ∧ s.bitAt (Reg.DRL_CH_CTRL 31) 20 = false) ∧
    (up.drlPick = none ∧ (∀ u, u = drill.setFifos [] → u.drlPick = some 31)) ∧
    (drill.frozen 1 = false ∧ (drill.drawTag 20 .normal).isSome = true ∧ drill.Quiet ∧ drill.drlSize 31 = 1 ∧ drill.bitAt (Reg.DRL_CH_CFG 31) 6 = true ∧
      drill.bitAt (Reg.DRL_CH_CFG 31) 5 = true ∧
      drill.drlSrc 31 = 1 ∧ drill.drlDst 31 = 0 ∧ 1 + 1 ≤ fieldWords ∧ drill.refuses (drill.ownerRes 5 31) = false) ∧
    (∀ s, s = drill.setReg (Reg.DRL_CH_ACNT 31) 0 → s.bitAt (Reg.DRL_CH_CTRL 31) 21 = true ∧ s.reg (Reg.DRL_CH_ACNT 31) = 0) := by
  unfold State.Opens; simp only [forall_eq]
  and_intros <;> first | exact quiet_of (by decide +kernel) (fun _ => rfl) | decide +kernel

theorem witness_HostPortAndPinsAct :
    (up.dom 19 = true ∧ up.inRdy = true ∧ up.outRdy = false ∧
      (List.replicate 12 (0 : BitVec 8)).length = 3 * (4 + tykLen (bytesToWords (List.replicate 12 0))) ∧
      (List.replicate 11 (0 : BitVec 8)).length < 12 ∧
      (List.replicate 15 (0 : BitVec 8)).length ≠ 3 * (4 + tykLen (bytesToWords (List.replicate 15 0)))) ∧
    (∀ s, s = up.updTyk (fun k => { k with inq := [⟨.spi, [], []⟩] }) → s.dom 19 = true ∧ s.inRdy = false) ∧
    (∀ s, s = up.updTyk (fun k => { k with out := [(.host, []), (.spi, [1, 2, 3, 4])] }) → s.dom 19 = true ∧
      s.tyk.out.find? (fun x => x.1 == .spi) = some (.spi, [1, 2, 3, 4])) ∧
    (up.Opens 25 (Reg.GPO_OUTSET 1) ∧ up.Opens 25 (Reg.GPO_OUTCLR 1) ∧ up.pinMay 25 47 true = true ∧
      (up.setReg (Reg.GPO_SECMASK 1) 0x800000).pinMay 25 47 true = false) ∧
    (up.padOn 39 = true ∧ up.pads.filt.getLsbD 39 ≠ true ∧ up.secPin 39 = false ∧ up.pads.filt.getLsbD 47 = false) := by
  unfold State.Opens; simp only [forall_eq]; and_intros <;> decide +kernel

/-! ### Power, resets, debug, Glean -/

/-- A VREQ frame of code 35 is under way, after `r` retries. -/
def vreq (r : Nat) : State := up.updPwr (fun x => { x with inFrame := some 35, retries := r })

theorem witness_VoltageLoopRequestsAndThermalLimit :
    (up.dom 2 = true ∧ (up.clrBit Reg.PWR_VLOOP 23).bitAt Reg.PWR_VLOOP 23 = false ∧ up.declareAll.pwr.winMin = 0xFFFF ∧ up.pwr.inFrame = none) ∧
    (∀ m ∈ [0, 0xFFFF], (up.updPwr (fun x => { x with winMin := m })).declareAll.pwr.winMin = m) ∧
    (((up.setBit Reg.PWR_VLOOP 23).setBit Reg.PWR_VLOOP 22).bitAt Reg.PWR_VLOOP 23 = true ∧
      ((up.setBit Reg.PWR_VLOOP 23).setBit Reg.PWR_VLOOP 22).bitAt Reg.PWR_VLOOP 22 = true) ∧
    ((vreq 2).pwr.inFrame = some 35 ∧ (vreq 2).pwr.retries < 3 ∧ (vreq 3).pwr.inFrame = some 35 ∧ 3 ≤ (vreq 3).pwr.retries) ∧
    ((∀ n ∈ [233, 234, 239, 240], (up.setReg Reg.PWR_TEMP (wd n)).junction = n) ∧ up.pwr.pd0Runs = true) ∧
    ((0x104 : BitVec 10).toInt = 260 ∧ (0x103 : BitVec 10).toInt < 260 ∧ (0xDB : BitVec 10).toInt < 220 ∧ up.pwr.hot = false) := by
  and_intros <;> decide +kernel

theorem witness_DomainsPowerStatesAndWakeSources :
    (up.Opens 25 Reg.PWR_DOMCTRL ∧ ∀ d, d < 20 → switched d = true → up.dom d = true → bit (0 : Word) d = false → up.mayOff d = true) ∧
    (∀ s, s = up.setBit (Reg.BM_TCTRL 1) 0 → s.Opens 25 Reg.PWR_DOMCTRL ∧
      (List.range 20).find? (fun d => switched d && s.dom d && !bit (0 : Word) d && !s.mayOff d) = some 13) ∧
    (∀ s, s = up.updPwr (fun x => { x with rising := 0x80000 }) → s.pwr.rising.getLsbD 19 = true ∧ s.pwr.rising.getLsbD 0 = false) ∧
    (up.Opens 25 Reg.PWR_STATECMD ∧ up.bitAt Reg.PWR_STAT 21 = false ∧ up.fld Reg.PWR_STAT Fd.PWR_STAT_STATE ≠ 1 ∧
      up.anyWake = false ∧ (0x7 : BitVec 4).getLsbD (15 / 4) = false ∧ up.plotState (up.corePlot 15) = 0) ∧
    (∀ s, s = up.setBit Reg.PWR_STAT 21 → s.Opens 25 Reg.PWR_STATECMD ∧ s.bitAt Reg.PWR_STAT 21 = true) ∧
    (∀ s, s = up.setFld Reg.PWR_STAT Fd.PWR_STAT_STATE 1 → s.fld Reg.PWR_STAT Fd.PWR_STAT_STATE = 1 ∧
      ∀ c, c < 16 → (0xF : BitVec 4).getLsbD (c / 4) = false → s.plotState (s.corePlot c) ≠ 0) ∧
    (∀ s, s = up.setReg Reg.PWR_WAKECFG 0x200001 → s.anyWake = true ∧ s.bitAt Reg.PWR_EVT 0 = false ∧
      (s.setBit Reg.PWR_EVT 0).bitAt Reg.PWR_EVT 0 = true ∧ s.wakeOn .timer = true ∧ s.wakeOn (.pin 0) = true ∧
      s.pwr.pd0Runs = true ∧ s.pwr.dormant = false ∧ s.pwr.target = none ∧ s.bitAt Reg.PWR_WAKECFG 21 = true ∧
      (∀ n ∈ [0, 1, 2, 0xFFFFFF], ((s.setReg Reg.PWR_WAKETMR (wd n)).reg Reg.PWR_WAKETMR).toNat = n)) ∧
    (∀ t ∈ [(0, 0), (1, 15), (2, 0)], ∀ s, s = up.updPwr (fun x => { x with target := some t }) → s.pwr.target = some t ∧
      s.dom 12 = true ∧ s.dom 13 = true ∧ s.dom 14 = true ∧ s.bitAt (Reg.BM_TCTRL 0) 0 = false ∧ s.bitAt (Reg.BM_TCTRL 1) 0 = false ∧
      s.pwr.wakeHeld = none ∧ s.grn = []) ∧
    (up.updPwr (fun x => { x with dormant := true })).pwr.dormant = true := by
  unfold State.Opens; simp only [forall_eq]; and_intros <;> decide +kernel

theorem witness_ResetsStartUpAndDebugSessions :
    (up.grn = [] ∧ up.pwr.pd0Runs = true ∧ up.Opens 25 Reg.PWR_RSTCMD ∧ up.Opens 25 Reg.DBG_SYSRST ∧ up.lock = 0 ∧ up.dom 1 = true ∧
      up.session = false) ∧
    (∀ s, s = up.updPwr (fun x => { x with started := false }) → s.pwr.pd0Runs = true ∧ s.pwr.started = false ∧
      s.pwr.tripped = false ∧ s.pwr.dormant = false ∧ s.pwr.inFrame = none) ∧
    (up.setBit Reg.DBG_CTRL 23).session = true := by
  unfold State.Opens; simp only [forall_eq]; and_intros <;> decide +kernel

/-- A debug session is open; an access waits. -/
def session (w : Option (Nat × Option Word)) : State :=
  (up.setBit Reg.DBG_CTRL 23).updDbg (fun d => { d with wait := w, result := some (1, 7), addr := 0xFFFFFFF })

theorem witness_DebugPortAnswersAndAccesses :
    ((session none).session = true ∧ (session none).dbg.wait = none ∧ (session none).refuses 0 = false ∧ (session none).lock = 0 ∧
      (∀ a ∈ [0, fieldWords - 1, 0x7FFFFFF, 2 ^ 28], ((session none).updDbg (fun d => { d with addr := a - 1 })).dbg.addr = a - 1) ∧
      (0x17FFFFF : Addr).toNat < fieldWords ∧ (session none).Quiet ∧ 0x7FFFFFF < 2 ^ 28 ∧
      regionOf (0x7FFFFFF : Addr).toNat = .unmapped ∧ (session none).dbg.result = some (1, 7)) ∧
    (∀ k ∈ [1, 2, 3], ((session none).setFld Reg.DBG_CTRL Fd.DBG_CTRL_LOCK k).lock = k ∧
      ((session none).setFld Reg.DBG_CTRL Fd.DBG_CTRL_LOCK k).session = true) ∧
    ((session (some (0, none))).dbg.wait.isSome = true ∧ (session (some (0, none))).session = true ∧
      (session (some (0, none))).dbg.wait = some (0, none) ∧ (session (some (0x17FFFFF, some 5))).dbg.wait = some (0x17FFFFF, some 5) ∧
      0x17FFFFF < fieldWords ∧ (session (some (0, none))).Quiet ∧ (session (some (0x17FFFFF, some 5))).Quiet) := by
  and_intros <;> first | exact quiet_of (by decide +kernel) (fun _ => rfl) | decide +kernel

/-- Core 15 is halted, RSEL names `n`. -/
def halted (n : Nat) : State := (up.setBit Reg.DBG_HALTED 15).setReg (Reg.DBG_PR_RSEL 15) (wd n)

theorem witness_HaltedProcessorsAndGleanRecords :
    (up.dom 1 = true ∧ up.lock = 0 ∧ up.Opens 25 Reg.DBG_HALT ∧ up.Opens 25 Reg.DBG_RESUME ∧ up.uc.stopped = false ∧
      up.halted 15 = false ∧ up.gate 25 (up.reqPlot 25) (Reg.DBG_PR_RDATA 15) false = none) ∧
    (∀ n ∈ [0, 15, 16, 17], (halted n).Opens 25 (Reg.DBG_PR_CTRL 15) ∧ (halted n).halted 15 = true ∧
      (halted n).Opens 25 (Reg.DBG_PR_RDATA 15) ∧ (halted n).fld (Reg.DBG_PR_RSEL 15) Fd.DBG_PR_RSEL_SEL = n) ∧
    (∀ s, s = up.setBit Reg.DBG_HALT 16 → s.bitAt Reg.DBG_HALT 16 = true ∧ (s.proc 16).slot = none ∧ (s.proc 16).exit = none ∧
      (s.proc 16).wait = none ∧ s.uc.custom = none ∧ s.impDue 16 = false ∧ s.irqDue 16 = false) ∧
    (up.Opens 25 Reg.GLN_CAPCMD ∧ up.Opens 15 Reg.GLN_CAPCMD ∧ (23 : BitVec 5).toNat < 24 ∧ up.gleanPlot 23 = up.corePlot 15 ∧
      (up.setFld (Reg.PLT_OWN 0 15) Fd.PLT_OWN_OWNER 7).gleanPlot 23 ≠
        (up.setFld (Reg.PLT_OWN 0 15) Fd.PLT_OWN_OWNER 7).corePlot 15) ∧
    (∀ s, s = up.setBit Reg.GLN_CTRL 23 → s.bitAt Reg.GLN_CTRL 23 = true ∧ s.frozen 7 = false ∧ s.dom 2 = true ∧ s.gln = none ∧
      { s with gln := some (0, []) }.gln.isSome = true) ∧
    (∀ s, s = { up with gln := some (fieldWords - 1, [5]) } → s.gln = some (fieldWords - 1, [5]) ∧ fieldWords - 1 + 1 ≤ fieldWords ∧
      s.refuses 0 = false) ∧
    { up with gln := some (fieldWords - 1, [5]) }.Quiet ∧
    (∀ k ∈ [1, 2], ∀ s, s = up.updProc 15 (fun x => { x with samples := [[1, 2, 3]], smpWord := k }) →
      s.gate 25 (s.reqPlot 25) (Reg.GLN_SMP_DATA 15) false = none ∧ (s.proc 15).samples = [[1, 2, 3]] ∧ (s.proc 15).smpWord = k) ∧
    ((up.proc 15).samples = [] ∧ (up.proc 15).sup = true) := by
  unfold State.Opens; simp only [forall_eq]
  and_intros <;> first | exact quiet_of (by decide +kernel) (fun _ => rfl) | decide +kernel

theorem witness_UserModeChangesOfTheModeBits :
    (∀ s, s = core (fun x => { x with status := 0x60 }) → s.Ready 15 1 ∧ (s.proc 15).sup = false ∧
      (0x80 : BitVec 8).zeroExtend 24 &&& 0xE0 &&& ~~~ (s.proc 15).status ≠ 0 ∧
      (0x70 : BitVec 8).zeroExtend 24 &&& 0xE0 &&& ~~~ (s.proc 15).status = 0 ∧
      (0x20 : BitVec 8).zeroExtend 24 &&& 0xE0 &&& (s.proc 15).status ≠ 0 ∧
      (0x9F : BitVec 8).zeroExtend 24 &&& 0xE0 &&& (s.proc 15).status = 0 ∧
      (0x40 ^^^ (s.proc 15).status) &&& 0xE0 ≠ 0 ∧ (0xF00070 ^^^ (s.proc 15).status) &&& 0xE0 = 0) := by
  simp only [forall_eq]
  refine ⟨ready_of_readyNow (by decide +kernel), ?_⟩ <;> (and_intros <;> decide +kernel)

/-! ## Worked examples -/

/-- The example after R36: address 0x041_2000 in both interleaving modes. -/
theorem test_the_example_address_lies_in_its_quadrant_bank_and_row :
    lineNo 0x0412000 = 355669 ∧ 0x0412000 % 12 = 4 ∧ quadrantOf false 355669 = 1 ∧ bankOf false 355669 = 5 ∧
    bankRow false 0x0412000 = 44457 ∧ quadrantOf true 355669 = 0 ∧ bankOf true 355669 = 5 ∧ bankRow true 0x0412000 = 177833 := by
  decide +kernel

/-- The check value after R137: the pixels 0x31_3233, 0x34_3536 and 0x37_3839. -/
theorem test_the_example_region_has_its_check_value :
    ~~~ ([0x313233, 0x343536, 0x373839].foldl crcPixel 0xFFFFFFFF) = (0xCBF43926 : BitVec 32) := by decide +kernel

/-- The example after R264: the eighth MACF of 0.5 by 0.125, three NOPs later, and MFR. -/
theorem test_the_dot_product_example_reads_one_half :
    after (.macf 15 5 6) (core (fun x => { (x.setW 5 0x400000).setW 6 0x100000 with acc := BitVec.ofNat 48 (7 * 2 ^ 43) }))
      (fun t => (t.proc 15).acc == BitVec.ofNat 48 (2 ^ 46)) = true ∧
    after (.mfr 15 0) (core (fun x => { x with accHist := [0, 0, BitVec.ofNat 48 (2 ^ 46)] }))
      (fun t => t.getW 15 0 == 0x400000 && !bit (t.proc 15).status 20) = true ∧
    after (.mfr 15 0) (core (fun x => { x with accHist := [0, 0, BitVec.ofNat 48 (7 * 2 ^ 43)] }))
      (fun t => t.getW 15 0 == 0x380000) = true := by decide +kernel

/-- The CALL and the RET of that example: mask W4 to W6, return address 0x00_1002. -/
theorem test_the_call_of_the_dot_product_example_stores_its_frame :
    after (.call 15 0x70 0x2000)
      (core (fun x => ((((x.setW 15 0x8000).setW 4 4).setW 5 5).setW 6 6) |> fun x => { x with pc := 0x1000 }))
      (fun t => (t.proc 15).pc == 0x2000 && t.getW 15 15 == 0x7FFB && t.cohWord 0x7FFF == 6 && t.cohWord 0x7FFE == 5 &&
        t.cohWord 0x7FFD == 4 && t.cohWord 0x7FFC == 0x70 && t.cohWord 0x7FFB == 0x1002) = true ∧
    after (.ret 15)
      (((((core (fun x => { (x.setW 15 0x7FFB) with pc := 0x200B })).setMem 0x7FFB 0x1002).setMem 0x7FFC 0x70).setMem 0x7FFD 4).setMem
        0x7FFF 6)
      (fun t => (t.proc 15).pc == 0x1002 && t.getW 15 15 == 0x8000 && t.getW 15 4 == 4 && t.getW 15 5 == 0 && t.getW 15 6 == 6) =
      true := by decide +kernel

/-- The example after R295: the load in the delay slot of the taken BNE faults; EPC is the branch and DS is set. -/
theorem test_a_fault_in_a_delay_slot_saves_the_branch :
    after (.bcc 15 1 0x20) (core (fun x => { x with status := 0x200040, pc := 0x3001 }))
      (fun t => (t.proc 15).pc == 0x3002 && (t.proc 15).slot == some (0x3001, some 0x3021)) = true ∧
    after (.ld 15 3 4 0) (core (fun x => { (x.setW 4 0x120040) with
        status := 0x40, pc := 0x3002, slot := some (0x3001, some 0x3021), evec := 0x8000 }))
      (fun t => (t.proc 15).epc == 0x3001 && (t.proc 15).estatus == 0x140 && (t.proc 15).ecause == 4 &&
        (t.proc 15).eaddr == 0x120040 && (t.proc 15).pc == 0x8020) = true := by decide +kernel

/-- The example after R313: UCSW exchanges banks and versions; function 0x12 dispatches to offset 0x1890. -/
theorem test_ucsw_activates_the_sealed_bank :
    after (.ucsw 4) ((((stew (fun x => x.setW 4 0x123)).setReg Reg.STW_UCVER 0x320012).setReg Reg.STW_UCVERI 0x320013).setReg
        Reg.STW_UCSTAT 0x200000)
      (fun t => t.ucBank == 1 && t.reg Reg.STW_UCVER == 0x320013 && t.reg Reg.STW_UCVERI == 0x320012 &&
        (t.proc 16).pc == 0x123 && t.customEntry 0x12 == 0x3890) = true := by decide +kernel

/-- The example after R334: the frame, and its resending, which is answered from the pair table. -/
theorem test_a_resent_scene_request_is_answered_again_and_not_carried_out_again :
    mkFrame 0x10 0 2 417 1 3 0x1A2B [0x801234, 1, 0x125, 0x40] =
      [0x320004, 0x1011A1, 0x400003, 0x1A2B, 0x801234, 1, 0x125, 0x40] ∧
    after (.memWrite .spi (ask 0x11 3 [0, 0xFFFF, 5])) three (fun t => t.memAt 0xFFFF == 5 &&
      after (.memWrite .spi (ask 0x11 3 [0, 0xFFFF, 5])) (t.setMem 0xFFFF 6)
        (fun u => u.memAt 0xFFFF == 6 && u.tyk.out.length == 2 && u.tyk.out.getLast? == t.tyk.out.getLast?)) = true := by
  decide +kernel

/-- The example after R393, step 2: lines 97 and 51 are presented to core 5 with their levels. -/
theorem test_the_highest_level_is_presented :
    ((up.setReg (Reg.IRQ_SRC 97) 0xA00405).presLevel 5 = 4) ∧
    (((up.setReg (Reg.IRQ_SRC 97) 0xA00405).setReg (Reg.IRQ_SRC 51) 0xA00905).presLevel 5 = 9) := by decide +kernel

/-- The example after R411: in MODE 1 a timer goes from MATCH to 0. -/
theorem test_a_periodic_timer_goes_from_match_to_zero :
    after (.timerAdvance 15) ((timer 0x090000 2499998).setEff (Reg.TMR_T_MATCHLO 15) 0x26259F |>.setEff (Reg.TMR_T_MATCHHI 15) 0)
      (fun t => t.tmrCnt 15 == 2499999 && t.bitAt (Reg.TMR_T_EVT 15) 0) = true ∧
    after (.timerAdvance 15) ((timer 0x090000 2499999).setEff (Reg.TMR_T_MATCHLO 15) 0x26259F |>.setEff (Reg.TMR_T_MATCHHI 15) 0)
      (fun t => t.tmrCnt 15 == 0 && !t.bitAt (Reg.TMR_T_EVT 15) 0) = true := by decide +kernel

/-- The example after R448, step 1: a Dormant entry after a wake source has fired is aborted. -/
theorem test_a_fired_wake_source_aborts_the_dormant_entry :
    after (.stateDormant 16) ((up.setReg Reg.PWR_WAKECFG 0xA00000).setBit Reg.PWR_EVT 0)
      (fun t => t.bitAt Reg.PWR_STAT 20 && t.bitAt Reg.PWR_EVT 4 && t.pwr.target == none) = true := by decide +kernel

/-- SHA-256 of "abc" (FIPS 180-4). -/
theorem test_sha_256_of_abc :
    Crypto.sha256 [0x61, 0x62, 0x63] = Crypto.toBytes 32 0xba7816bf8f01cfea414140de5dae2223b00361a396177a9cb410ff61f20015ad := by
  decide +kernel
end Sys2Proof.Tests
end

section
/-! PROOF. Reads of a semaphore view (R52): what `State.semAcquire` gives in each of its four cases, and O3 from them. -/
namespace Sys2Proof.Machine

/-- A holder reads as set; the other semaphores keep theirs. -/
theorem State.semHolder_setHolder (s : State) (n m : Nat) (h : Option (Nat × Nat)) :
    (s.setHolder n h).semHolder m = if m = n then h else s.semHolder m := Tab.get_put _ _ _ _ _

@[simp] theorem State.semHolder_answer (s : State) (r n : Nat) (v : Resp) : (s.answer r v).semHolder n = s.semHolder n := rfl

/-- The number of BROKEN or GRANTED as a word. -/
theorem wd_brk (b : Bool) : wd (if b then 2 else 0) = if b then 2 else 0 := by cases b <;> rfl

section
variable {s : State} {r p n : Nat}

/-- Through the view of a plot absent from PLOTS. -/
theorem State.semAcquire_absent (hr : r ≠ 25) (hm : s.semMay p n = false) :
    s.semAcquire r p n = (s, ⟨0, [], .error⟩) := by
  simp [State.semAcquire, hr, hm]

/-- A held semaphore, whoever reads. -/
theorem State.semAcquire_held {hp hr : Nat} (hm : r = 25 ∨ s.semMay p n = true) (hh : s.semHolder n = some (hp, hr)) :
    s.semAcquire r p n = (s, ⟨wd (hr * 65536 + hp * 256 + 1), [], .ok⟩) := by
  rcases hm with hm | hm <;> simp [State.semAcquire, hm, hh]

/-- A free semaphore, through the view of a plot that may use it. -/
theorem State.semAcquire_free (hr : r ≠ 25) (hm : s.semMay p n = true) (hh : s.semHolder n = none) :
    s.semAcquire r p n =
      (s.setHolder n (some (p, r)), ⟨if s.bitAt (Reg.FAB_SEMACL n) 15 then 2 else 0, [], .ok⟩) := by
  simp [State.semAcquire, hr, hm, hh, wd_brk]

/-- The debug requester sees a free semaphore as it stands. -/
theorem State.semAcquire_debug_free (hh : s.semHolder n = none) :
    s.semAcquire 25 p n = (s, ⟨if s.bitAt (Reg.FAB_SEMACL n) 15 then 2 else 0, [], .ok⟩) := by
  simp [State.semAcquire, hh, wd_brk]
end

/-- The way open, the read does and answers what `State.semAcquire` says. -/
theorem exec_semaphoreAcquire_open {req : Req} {p : Fin 8} {n : BitVec 8} {s t : State} {x : Resp}
    (hg : s.gate req.val (s.reqPlot req.val) (Reg.FAB_SEMV p.val n.toNat) false = none)
    (hx : s.semAcquire req.val p.val n.toNat = (t, x)) :
    exec (.semaphoreAcquire req p n) s = .next (t.answer req.val x) := by
  change execSemaphoreAcquire req p n s = _
  simp [execSemaphoreAcquire, hg, hx]

/-- A read that leaves the state to the answer alone changes no register. -/
theorem exec_semaphoreAcquire_unchanged {req : Req} {p : Fin 8} {n : BitVec 8} {s : State} {x : Resp}
    (hg : s.gate req.val (s.reqPlot req.val) (Reg.FAB_SEMV p.val n.toNat) false = none)
    (hx : s.semAcquire req.val p.val n.toNat = (s, x)) :
    ∃ t, exec (.semaphoreAcquire req p n) s = .next t ∧ t.respOf req.val = x ∧ s.OnlyRegs (fun _ => False) t :=
  ⟨_, exec_semaphoreAcquire_open hg hx, State.respOf_answer_same .., State.onlyRegs_answer _ (.refl _ s)⟩

/-- Settles O3: one case of `State.semAcquire` per clause (R52). -/
theorem semaphoreReadsAcquireForThePlotOfTheView : Obligations.SemaphoreReadsAcquireForThePlotOfTheView := by
  intro req p n s hg
  refine ⟨fun hr hm hh => ?free, fun hp hr hm hh => ?held, fun hr hh => ?debug, fun hr hm => ?absent⟩
  case free =>
    refine ⟨_, exec_semaphoreAcquire_open hg (State.semAcquire_free hr hm hh), ?_, State.respOf_answer_same .., ?_, rfl, rfl⟩
    · simp [State.semHolder_setHolder]
    · intro m hmn
      simp [State.semHolder_setHolder, hmn]
  case held => exact exec_semaphoreAcquire_unchanged hg (State.semAcquire_held hm hh)
  case debug => exact exec_semaphoreAcquire_unchanged hg (hr ▸ State.semAcquire_debug_free hh)
  case absent => exact exec_semaphoreAcquire_unchanged hg (State.semAcquire_absent hr hm)

end Sys2Proof.Machine
end

section
/-! PROOF. The release of a fenced plot (R57): what an error of the FAB block counts (R59), what `State.fenceLift` clears, and O6
from them. -/
namespace Sys2Proof.Machine

/-! ## Errors of the FAB block -/

/-- An event flag in another register than the counter leaves the count. -/
theorem State.fld_setBit_ne (s : State) {a b : Nat} (n : Nat) (f : Fld) (h : b ≠ a) : (s.setBit a n).fld b f = s.fld b f :=
  congrArg (getF · f) (s.reg_setBit_ne n h)

/-- Every error of the block counts once, up to 0xFFFF (R59). -/
theorem State.fabErr_count (s : State) :
    s.fabErr.fld Reg.FAB_ERRCNT ⟨15, 0⟩ = min 65535 (s.fld Reg.FAB_ERRCNT ⟨15, 0⟩ + 1) := by
  have hne : Reg.FAB_ERRCNT ≠ Reg.FAB_EVT := by decide
  change (State.countAt s (errPlace 18) 0).fld _ _ = _
  simp only [State.countAt, errPlace, State.flag]
  split
  · rw [State.fld_setBit_ne _ _ _ hne, State.bump_count]
  · exact State.bump_count s _

/-- An error of the block changes its counter and its event register only (R59). -/
theorem State.onlyRegs_fabErr (s : State) : s.OnlyRegs (fun a => a = Reg.FAB_ERRCNT ∨ a = Reg.FAB_EVT) s.fabErr := by
  refine State.onlyRegs_err 18 0 (.refl _ s) (fun a ha => ?_)
  simpa [ErrPlace.touches, errPlace] using ha

/-! ## The lift -/

/-- FENCING lies in FAB_STAT: the bits of the other registers stay. -/
theorem State.bitAt_settleFencing_ne (s : State) {a : Nat} (n : Nat) (h : a ≠ Reg.FAB_STAT) :
    s.settleFencing.bitAt a n = s.bitAt a n :=
  congrArg (bit · n) (s.reg_putBit_ne 2 _ h)

/-- REL without DONE is an error of the block (R57). -/
theorem State.fenceLift_not_done {s : State} {p : Nat} (h : s.bitAt Reg.FAB_FENCE (8 + p) = false) :
    s.fenceLift p = s.fabErr := by
  simp [State.fenceLift, h]

/-- REL with DONE clears REQ and DONE bit `p`, and settles FENCING (R57). -/
theorem State.fenceLift_done {s : State} {p : Nat} (h : s.bitAt Reg.FAB_FENCE (8 + p) = true) :
    s.fenceLift p = ((s.clrBit Reg.FAB_FENCE p).clrBit Reg.FAB_FENCE (8 + p)).settleFencing := by
  simp [State.fenceLift, h]

/-- What FAB_FENCE holds after a lift: REQ and DONE bit `p` at 0, the other bits as before. -/
theorem State.bitAt_fenceLift_done {s : State} {p : Nat} (hp : p < 8) (h : s.bitAt Reg.FAB_FENCE (8 + p) = true) (m : Nat) :
    (s.fenceLift p).bitAt Reg.FAB_FENCE m = if m = p ∨ m = 8 + p then false else s.bitAt Reg.FAB_FENCE m := by
  have hne : Reg.FAB_FENCE ≠ Reg.FAB_STAT := by decide
  rw [State.fenceLift_done h, State.bitAt_settleFencing_ne _ _ hne, State.bitAt_clrBit _ (by omega),
    State.bitAt_clrBit _ (by omega)]
  by_cases hq : m = p <;> simp [hq]

/-- A lift changes FAB_FENCE and FAB_STAT only. -/
theorem State.onlyRegs_fenceLift_done {s : State} {p : Nat} (h : s.bitAt Reg.FAB_FENCE (8 + p) = true) :
    s.OnlyRegs (fun a => a = Reg.FAB_FENCE ∨ a = Reg.FAB_STAT) (s.fenceLift p) := by
  rw [State.fenceLift_done h]
  exact State.onlyRegs_putBit _ _ (State.onlyRegs_clrBit _ (State.onlyRegs_clrBit _ (.refl _ s) (.inl rfl)) (.inl rfl)) (.inr rfl)

/-- The way open, FENCE_REL does what `State.fenceLift` says. -/
theorem exec_fenceRel_open {req : Req} (p : Fin 8) {s : State} (ho : s.Opens req.val Reg.FAB_FENCE) :
    exec (.fenceRel req p) s = .next ((s.fenceLift p.val).answer req.val ⟨0, [], .ok⟩) :=
  congrArg Host.Outcome.next (State.regCmd_open (fun s => s.fenceLift p.val) ho)

/-- Settles O6: DONE decides between the lift and the error of the block (R57). -/
theorem fenceReleaseNeedsDone : Obligations.FenceReleaseNeedsDone := by
  intro req p s ho
  refine ⟨fun hd => ⟨_, exec_fenceRel_open p ho, ?_⟩, fun hd => ⟨_, exec_fenceRel_open p ho, ?_⟩⟩
  · have hbit := State.bitAt_fenceLift_done p.isLt hd
    have hreq : (s.fenceLift p.val).bitAt Reg.FAB_FENCE p.val = false := by simp [hbit]
    have hdone : (s.fenceLift p.val).bitAt Reg.FAB_FENCE (8 + p.val) = false := by simp [hbit]
    exact ⟨hreq, hreq, hdone, State.onlyRegs_answer _ (State.onlyRegs_fenceLift_done hd)⟩
  · rw [State.fenceLift_not_done hd]
    exact ⟨s.fabErr_count, State.onlyRegs_answer _ s.onlyRegs_fabErr⟩

end Sys2Proof.Machine
end

section
/-! PROOF. What an instruction of one word does at a processor that is ready for it (R258, R284, R285, R462, R467): `State.Became`
says what a processor has become since an earlier state and that the rest stayed; fetch, retirement and exception keep it. -/
namespace Sys2Proof.Machine

/-! ## From one state to another -/

/-- The registers that counting an event may change (R464, R465). -/
def perfReg (a : Nat) : Prop :=
  a = Reg.GLN_EVT ∨ ∃ u k, u < 24 ∧ k < 4 ∧ (a = Reg.GLN_CNT u k ∨ a = Reg.GLN_CCFG u k)

/-- From `s` to `t` processor `p` has become `x`; nothing else changes but performance counters and the next free value. -/
structure State.Became (p : Nat) (x : ProcSt) (s t : State) : Prop where
  proc : t.proc p = x
  others : ∀ q, q ≠ p → t.proc q = s.proc q
  reg : ∀ a, ¬ perfReg a → t.reg a = s.reg a
  rest : { t with regs := s.regs, procs := s.procs, freeCtr := s.freeCtr } = s

theorem inGlean_of_perfReg {a : Nat} (h : perfReg a) : inGlean a := by
  rcases h with rfl | ⟨u, k, hu, hk, rfl | rfl⟩ <;> simp only [inGlean, Reg.GLN_EVT, Reg.GLN_CNT, Reg.GLN_CCFG] <;> omega

theorem not_perfReg_smpCfg (p : Nat) : ¬ perfReg (Reg.GLN_SMP_CFG p) := by
  rintro (h | ⟨u, k, hu, hk, h | h⟩) <;> simp only [Reg.GLN_SMP_CFG, Reg.GLN_EVT, Reg.GLN_CNT, Reg.GLN_CCFG] at h <;> omega

section
variable {p : Nat} {x : ProcSt} {s t : State}

theorem State.Became.refl (p : Nat) (s : State) : State.Became p (s.proc p) s s := ⟨rfl, fun _ _ => rfl, fun _ _ => rfl, rfl⟩

theorem State.Became.congr {z : ProcSt} (h : State.Became p z s t) (hz : z = x) : State.Became p x s t := hz ▸ h

theorem State.Became.onlyProc (h : State.Became p x s t) : State.OnlyProc p s t :=
  ⟨fun a ha _ => h.reg a (fun hp => ha (inGlean_of_perfReg hp)), h.others, h.rest⟩

theorem State.Became.bitAt_smpCfg (h : State.Became p x s t) :
    t.bitAt (Reg.GLN_SMP_CFG p) 23 = s.bitAt (Reg.GLN_SMP_CFG p) 23 :=
  congrArg (bit · 23) (h.reg _ (not_perfReg_smpCfg p))

theorem State.Became.updProc (f : ProcSt → ProcSt) (h : State.Became p x s t) : State.Became p (f x) s (t.updProc p f) := by
  refine ⟨?_, fun q hq => ?_, h.reg, h.rest⟩
  · rw [State.updProc, State.proc_setProc_same, h.proc]
  · rw [State.updProc, State.proc_setProc, if_neg hq, h.others q hq]

theorem State.Became.setReg {a : Nat} (v : Word) (ha : perfReg a) (h : State.Became p x s t) :
    State.Became p x s (t.setReg a v) :=
  ⟨h.proc, h.others, fun b hb => (State.reg_setReg_ne t v (fun e : b = a => hb (e ▸ ha))).trans (h.reg b hb), h.rest⟩

theorem State.Became.useFree (h : State.Became p x s t) : State.Became p x s t.useFree := ⟨h.proc, h.others, h.reg, h.rest⟩

theorem State.Became.glnAdd {u k : Nat} (fuel n : Nat) (hu : u < 24) (hk : k < 4) (h : State.Became p x s t) :
    State.Became p x s (t.glnAdd u fuel k n) := by
  have hcnt : perfReg (Reg.GLN_CNT u k) := .inr ⟨u, k, hu, hk, .inl rfl⟩
  have hcfg : perfReg (Reg.GLN_CCFG u k) := .inr ⟨u, k, hu, hk, .inr rfl⟩
  induction fuel generalizing t k n with
  | zero => exact h
  | succ fuel ih =>
    unfold State.glnAdd
    dsimp only
    split
    case isTrue => exact h
    split
    case isTrue => exact h.setReg _ hcnt
    split
    case isTrue hb =>
      have hk' : k + 1 < 4 := by have := of_decide_eq_true (Bool.and_eq_true_iff.mp hb).2; omega
      exact ih _ hk' (h.setReg _ hcnt) (.inr ⟨u, k + 1, hu, hk', .inl rfl⟩) (.inr ⟨u, k + 1, hu, hk', .inr rfl⟩)
    case isFalse => exact ((h.setReg _ hcnt).setReg _ hcfg).setReg _ (.inl rfl)

theorem State.Became.perf {u : Nat} (c n : Nat) (hu : u < 24) (h : State.Became p x s t) : State.Became p x s (t.perf u c n) := by
  unfold State.perf
  split
  case isTrue => exact h
  refine List.foldlRecOn (motive := State.Became p x s) _ _ h (fun v hv k hk => ?_)
  dsimp only
  split
  · exact hv.glnAdd 4 n hu (List.mem_range.mp hk)
  · exact hv

theorem State.Became.corePerf {q : Nat} (c : Nat) (hq : q < 17) (h : State.Became p x s t) :
    State.Became p x s (t.corePerf q c) := by
  unfold State.corePerf
  split
  · exact h
  · exact h.perf c 1 (by omega)

theorem State.Became.cycleCounts {q : Nat} (hq : q < 17) (h : State.Became p x s t) :
    State.Became p x s (t.cycleCounts q) := by
  have hu : q < 24 := by omega
  unfold State.cycleCounts
  split
  · exact ((h.useFree.perf _ _ hu).perf _ _ hu).perf _ _ hu
  · exact h

end

/-! ## Fetch -/

/-- `x` with the caches of `y`, and with what it knows of their misses. -/
def ProcSt.withCaches (x y : ProcSt) : ProcSt := { x with icache := y.icache, tlb := y.tlb, missed := y.missed }

/-- No comparator is on: none sees an access (R462). -/
theorem State.cmpHit_off {s : State} {p : Nat} (h : ∀ k, k < 8 → s.bitAt (Reg.DBG_CMP_CFG p k) 23 = false)
    (kind a : Nat) (sup : Bool) : s.cmpHit p kind a sup = (s, none) := by
  unfold State.cmpHit
  split
  case isTrue => rfl
  refine List.foldlRecOn (motive := (· = (s, none))) _ _ rfl (fun x hx k hk => ?_)
  have hk8 : k < 8 := by
    have hlt := List.mem_range.mp hk
    unfold cmpsOf at hlt
    split at hlt <;> omega
  have hoff : bit (s.reg (Reg.DBG_CMP_CFG p k)) 23 = false := h k hk8
  have hm : s.cmpMatch p k kind a sup = false := by simp [State.cmpMatch, hoff]
  simp [hx, hm]

theorem State.fetchMatches_plain {s : State} {p : Nat} (h : s.Plain p) (branch : Bool) : s.fetchMatches p branch = (s, none) := by
  unfold State.fetchMatches
  cases branch <;> simp [State.cmpHit_off h.cmps]

/-- Translation looks at a processor's STATUS and DSEG only. -/
theorem State.translate_updProc {s : State} {p : Nat} {f : ProcSt → ProcSt} (hst : (f (s.proc p)).status = (s.proc p).status)
    (hds : (f (s.proc p)).dseg = (s.proc p).dseg) (v need : Word) : (s.updProc p f).translate p v need = s.translate p v need := by
  have hproc : (s.updProc p f).proc p = f (s.proc p) := State.proc_setProc_same ..
  have hpte : (s.updProc p f).pte p v = s.pte p v := rfl
  unfold State.translate
  by_cases hp : p = 16
  · subst hp
    simp [hproc, hds]
  · simp [hp, hpte, hproc, State.det, ProcSt.sup, hst]

theorem State.Became.caches {p : Nat} {x z : ProcSt} {s t : State} (h : State.Became p z s t) (hz : z = x.withCaches z) :
    ∃ y, State.Became p (x.withCaches y) s t := ⟨z, by rw [← hz]; exact h⟩

/-- No check of the way to a word looks at the processors. -/
theorem State.gate_updProc (s : State) (p r q a : Nat) (w : Bool) (f : ProcSt → ProcSt) :
    (s.updProc p f).gate r q a w = s.gate r q a w := rfl

/-- The translation cache has no part in the way to a word, nor in whose page table translates (R282). -/
theorem State.gate_touchTlb (s : State) (p r a : Nat) (v : Word) (w : Bool) :
    (s.touchTlb p v).gate r ((s.touchTlb p v).plotOf p) a w = s.gate r (s.plotOf p) a w := by
  unfold State.touchTlb
  split <;> rfl

theorem State.Became.touchTlb {p : Nat} {x : ProcSt} {s t : State} (v : Word) (h : State.Became p x s t) :
    ∃ y, State.Became p (x.withCaches y) s (t.touchTlb p v) := by
  unfold State.touchTlb
  split
  · exact h.caches rfl
  · exact (h.updProc _).caches rfl

/-- A word that can be fetched is fetched, through the caches. -/
theorem State.fetchWord_ok {s t : State} {p : Nat} {x : ProcSt} {v : Word} (hp : p < 17) (hf : t.FetchOk p v)
    (h : State.Became p x s t) : ∃ u, t.fetchWord p v = .ok u ∧ ∃ y, State.Became p (x.withCaches y) s u := by
  unfold State.FetchOk at hf
  unfold State.fetchWord
  by_cases hp16 : p = 16
  · subst hp16
    simp only [if_true] at hf ⊢
    exact ⟨t, by rw [hf], x, h⟩
  simp only [hp16, if_false] at hf ⊢
  obtain ⟨a, dev, htr, hg⟩ := hf
  obtain ⟨y, htlb⟩ := h.touchTlb v
  rw [← State.gate_touchTlb t p p a v] at hg
  simp only [htr, hg]
  split
  case isTrue => exact ⟨_, rfl, (htlb.updProc _).caches rfl⟩
  cases dev
  · exact ⟨_, rfl, ((htlb.updProc _).corePerf 3 hp).caches rfl⟩
  · exact ⟨_, rfl, htlb.caches rfl⟩

/-- Whether a word can be fetched does not hang on what else than STATUS, DSEG and CSEG the processor holds. -/
theorem State.FetchOk.updProc {s : State} {p : Nat} {v : Word} {f : ProcSt → ProcSt} (h : s.FetchOk p v)
    (hst : (f (s.proc p)).status = (s.proc p).status) (hds : (f (s.proc p)).dseg = (s.proc p).dseg)
    (hcs : (f (s.proc p)).cseg = (s.proc p).cseg) : (s.updProc p f).FetchOk p v := by
  unfold State.FetchOk at h ⊢
  by_cases hp : p = 16
  · subst hp
    have hproc : (s.updProc 16 f).proc 16 = f (s.proc 16) := State.proc_setProc_same ..
    rw [if_pos rfl] at h ⊢
    rwa [hproc, hcs, State.gate_updProc]
  · rw [if_neg hp] at h ⊢
    obtain ⟨a, dev, htr, hg⟩ := h
    exact ⟨a, dev, (State.translate_updProc hst hds v needX).trans htr, (State.gate_updProc ..).trans hg⟩

/-! ## Issue -/

/-- At a ready processor the instruction at PC is fetched; nothing else has happened then. -/
theorem State.fetchIns_ready {s : State} {p : Nat} (hp : p < 17) (h : s.Ready p 1) :
    ∃ t, (s.updProc p (fun x => { x with waiting := false, missed := false })).fetchIns p 1 = .ok t ∧
      ∃ y, State.Became p ((s.proc p).withCaches y) s t := by
  have hstart := (State.Became.refl p s).updProc (fun x => { x with waiting := false, missed := false })
  have hpc := congrArg ProcSt.pc hstart.proc
  have hf : s.FetchOk p (s.proc p).pc := by simpa using h.fetch 0 Nat.one_pos
  obtain ⟨t, ht, y, hb⟩ := State.fetchWord_ok hp (hf.updProc rfl rfl rfl) hstart
  refine ⟨t, by simp [State.fetchIns, hpc, ht], hb.caches ?_⟩
  simp [ProcSt.withCaches, h.waiting]

/-- Outside loops, delay slots and the shadow of an RTE an instruction does what it says. -/
theorem State.decode_plain {s : State} {p : Nat} (hlc : (s.proc p).lc = 0) (hslot : (s.proc p).slot = none)
    (hexit : (s.proc p).exit = none) (i : Ins) (body : State → Run) : s.decode p i body = body s := by
  simp [State.decode, hlc, hslot, hexit]

/-- An instruction of one word at a ready processor: what it does decides, on a state where it is fetched. -/
theorem State.issue_ready {s : State} {p : Nat} (hp : p < 17) (h : s.Ready p 1) {i : Ins} (hi : i.len = 1) (body : State → Run) :
    ∃ t y, State.Became p ((s.proc p).withCaches y) s t ∧ s.issue p i body = s.finish p i (s.proc p).acc (body t) := by
  obtain ⟨t, ht, y, hb⟩ := State.fetchIns_ready hp h
  refine ⟨t, y, hb, ?_⟩
  have hmicro : (p == 16 && s.inMicro) = false := by
    by_cases hp16 : p = 16 <;> simp [hp16, h.micro]
  have himp : s.impDue p = false := by simp [State.impDue, h.imprecise]
  have hbad : (if p = 16 then s.badOnPath (4 * i.op) else none) = none := by
    split
    case isTrue h16 => simp [State.badOnPath, h.parity h16]
    case isFalse => rfl
  have hdec : t.decode p i body = body t :=
    State.decode_plain (hb.proc ▸ h.plain.loop) (hb.proc ▸ h.plain.slot) (hb.proc ▸ h.plain.exit) i body
  simp [State.issue, h.run, hmicro, himp, h.waiting, h.plain.stepping, h.longs, State.fetchMatches_plain h.plain, hi, ht, hbad, hdec]

/-! ## Completion and exception -/

section
variable {p : Nat} {x : ProcSt} {s t : State}

/-- With no halt due and no step, nothing follows an instruction (R460, R462). -/
theorem State.settle_plain (hdue : (s.proc p).haltDue = none) (hstep : (s.proc p).stepping = false) : s.settle p = s := by
  simp [State.settle, hdue, hstep]

/-- A shadow that has counted one instruction more (R248). -/
def Shadow.counted (h : Shadow) : Shadow := { h with left := h.left - 1 }

/-- Where no shadow ends, the shadows count and no mode bit changes (R248). -/
theorem State.Became.stepShadows (h : State.Became p x s t) (hs : ∀ c ∈ x.shadows, 2 ≤ c.left) :
    State.Became p { x with shadows := x.shadows.map Shadow.counted } s (t.stepShadows p) := by
  have hleft : ∀ c ∈ x.shadows.map Shadow.counted, c.left ≠ 0 := by
    simp only [List.mem_map]
    rintro _ ⟨c, hc, rfl⟩
    have := hs c hc
    simp only [Shadow.counted]; omega
  have hend : (x.shadows.map Shadow.counted).filter (fun c => c.left == 0) = [] := by
    simpa [List.filter_eq_nil_iff] using hleft
  have hgo : (x.shadows.map Shadow.counted).filter (fun c => c.left != 0) = x.shadows.map Shadow.counted := by
    simpa [List.filter_eq_self] using hleft
  unfold State.stepShadows
  rw [h.proc]
  change State.Became p _ s (((x.shadows.map Shadow.counted).filter (fun c => c.left == 0)).foldl _
    (t.updProc p (fun z => { z with shadows := (x.shadows.map Shadow.counted).filter (fun c => c.left != 0) })))
  rw [hend, hgo, List.foldl_nil]
  exact (h.updProc _).congr rfl

/-- What an instruction that completes leaves of a processor outside loops and delay slots: execution goes on at `next`, and the
accumulator before it, `acc`, is remembered (R255). -/
def ProcSt.retired (x : ProcSt) (acc : BitVec 48) (next : Word) : ProcSt :=
  { x with pc := next, slot := none, cmpDone := false, accHist := (acc :: x.accHist).take 3, shadows := x.shadows.map Shadow.counted }

/-- No sample is taken where sampling is off (R467). -/
theorem State.sample_off (h : s.bitAt (Reg.GLN_SMP_CFG p) 23 = false) (word : Word) : s.sample p word x = s := by
  simp [State.sample, h]

theorem State.stepExit_none (h : (s.proc p).exit = none) : s.stepExit p = s := by simp [State.stepExit, h]

theorem State.Became.retire (hp : p < 17) (hsmp : s.bitAt (Reg.GLN_SMP_CFG p) 23 = false) (h : State.Became p x s t)
    (hslot : x.slot = none) (hexit : x.exit = none) (hlc : x.lc = 0) (hs : ∀ c ∈ x.shadows, 2 ≤ c.left)
    (word : Word) (acc : BitVec 48) (next : Word) :
    State.Became p (x.retired acc next) s (t.retire p word acc next none) := by
  have hc := (h.perf 1 1 (by omega : p < 24)).cycleCounts hp
  have hst := (hc.updProc (fun y =>
    { y with pc := next, lc := 0, slot := none, cmpDone := false, accHist := (acc :: y.accHist).take 3 })).stepShadows hs
  have hex := congrArg ProcSt.exit hst.proc
  unfold State.retire
  simp only [h.proc, State.sample_off (hc.bitAt_smpCfg.trans hsmp), hslot, hlc, ne_eq, not_true_eq_false, decide_false,
    Bool.false_and, Bool.false_eq_true, if_false]
  rw [State.stepExit_none (hex.trans hexit)]
  exact hst.congr (by simp [ProcSt.retired, hlc])

/-- What an exception leaves of a processor outside delay slots and shadows (R285, R287). -/
def ProcSt.raised (x : ProcSt) (p cause detail : Nat) (ea : Option Word) : ProcSt :=
  { x with
    epc := x.pc, estatus := x.status, eaddr := ea.getD x.eaddr, ecause := wd (cause + 256 * detail)
    status := statusOf p ((x.status ||| 0x80) &&& ~~~ 0x40), pc := vector x (8 * cause), slot := none, exit := none, accHist := []
    waiting := false, cmpDone := false, impDepth := if x.impDepth = 0 then 0 else x.impDepth + 1 }

theorem State.Became.take (hp : p < 17) (h : State.Became p x s t) (hslot : x.slot = none) (hexit : x.exit = none)
    (hsh : x.shadows = []) (c d : Nat) (ea : Option Word) :
    State.Became p (x.raised p c d ea) s (t.take p c d ea) := by
  have hcommit : t.commitAll p = t.updProc p (fun z => { z with shadows := [] }) := by simp [State.commitAll, h.proc, hsh]
  unfold State.take State.takeAt State.deeper State.enterAt
  rw [h.proc, if_neg (by simp [hexit]), hcommit]
  refine (((((h.updProc _).updProc _).updProc _).updProc _).corePerf 8 hp).congr ?_
  simp [ProcSt.raised, vector, hslot, hsh]

end

section
variable {p : Nat} {s : State} {i : Ins} {body : State → Run}

/-- At a ready processor an instruction of one word that does nothing but raise an exception has it taken (R285). -/
theorem State.took_issue {c d : Nat} {ea : Option Word} (hp : p < 17) (hr : s.Ready p 1) (hi : i.len = 1)
    (hbody : ∀ t y, State.Became p ((s.proc p).withCaches y) s t → body t = .raise t c d ea) :
    s.Took p c d ea (s.proc p).pc (s.issue p i body) ∧ ((s.issue p i body).proc p).shadows = [] := by
  obtain ⟨t, y, hb, hiss⟩ := State.issue_ready hp hr hi body
  have ht := hb.take hp hr.plain.slot hr.plain.exit hr.plain.shadows c d ea
  have hfin : s.finish p i (s.proc p).acc (.raise t c d ea) = t.take p c d ea :=
    State.settle_plain (ht.proc ▸ hr.plain.haltDue) (ht.proc ▸ hr.plain.stepping)
  rw [hiss, hbody t y hb, hfin]
  unfold State.Took
  rw [ht.proc]
  exact ⟨⟨ht.onlyProc, rfl, rfl, rfl, rfl, rfl, rfl, rfl⟩, hr.plain.shadows⟩

/-- At a ready processor an instruction of one word that writes STATUS and opens the shadows `l`, and does nothing else, completes;
the shadows have then counted that instruction (R248). -/
theorem State.ran_issue {st : Word} {l : List Shadow} (hp : p < 17) (hr : s.Ready p 1) (hi : i.len = 1) (hl : ∀ c ∈ l, 2 ≤ c.left)
    (hbody : ∀ t y, State.Became p ((s.proc p).withCaches y) s t →
      ∃ u, body t = .done u ∧ State.Became p ({ s.proc p with status := st, shadows := l }.withCaches y) s u) :
    s.Ran p ((s.proc p).pc + 1) (fun z => { z with status := st, shadows := l.map Shadow.counted }) (s.issue p i body) := by
  obtain ⟨t, y, hb, hiss⟩ := State.issue_ready hp hr hi body
  obtain ⟨u, hdone, hu⟩ := hbody t y hb
  have hpc : (u.proc p).pc + wd i.len = (s.proc p).pc + 1 := by rw [hu.proc, hi]; rfl
  have ht := hu.retire hp hr.plain.samples hr.plain.slot hr.plain.exit hr.plain.loop hl i.word (s.proc p).acc ((s.proc p).pc + 1)
  have hfin : s.finish p i (s.proc p).acc (.done u) = u.retire p i.word (s.proc p).acc ((s.proc p).pc + 1) none := by
    simp only [State.finish, hpc]
    exact State.settle_plain (ht.proc ▸ hr.plain.haltDue) (ht.proc ▸ hr.plain.stepping)
  rw [hiss, hdone, hfin]
  refine ⟨ht.onlyProc, ?_⟩
  rw [ht.proc]
  simp [ProcSt.retired, ProcSt.withCaches, hr.plain.slot]

end

end Sys2Proof.Machine
end

section
/-! PROOF. Changes of mode bits in user mode (R249): what `State.changeMode` does in each of its two cases, and O57 from them. -/
namespace Sys2Proof.Machine

section
variable {p op : Nat} {s : State} {v m : Word} {i : Ins}

/-- In user mode a change of SUP, IE or DET is refused (R249). -/
theorem State.changeMode_refused (hu : (s.proc p).sup = false) (h : (v ^^^ (s.proc p).status) &&& m &&& 0xE0 ≠ 0) :
    s.changeMode p op v m = .raise s 2 op none := by
  unfold State.changeMode
  exact if_pos ⟨by simp [State.user, hu], h⟩

/-- In user mode the change of OVT alone opens its shadow (R248, R249). -/
theorem State.changeMode_ovt (hu : (s.proc p).sup = false) (h : (v ^^^ (s.proc p).status) &&& m &&& 0xE0 = 0) :
    s.changeMode p op v m = .done (s.updProc p (fun x =>
      { x with shadows := x.shadows ++ [⟨4, v &&& (m &&& 0x10), ~~~ v &&& (m &&& 0x10)⟩] })) := by
  unfold State.changeMode
  rw [if_neg (fun hc => hc.2 h), if_pos (by simp [State.user, hu])]

theorem State.took_issue_changeMode (hp : p < 17) (hr : s.Ready p 1) (hu : (s.proc p).sup = false) (hi : i.len = 1)
    (h : (v ^^^ (s.proc p).status) &&& m &&& 0xE0 ≠ 0) :
    s.Took p 2 op none (s.proc p).pc (s.issue p i (fun s => s.changeMode p op v m)) ∧
      ((s.issue p i (fun s => s.changeMode p op v m)).proc p).shadows = [] :=
  State.took_issue hp hr hi (fun _ _ hb => State.changeMode_refused (hb.proc ▸ hu) (hb.proc ▸ h))

theorem State.ran_issue_changeMode {a b : Word} (hp : p < 17) (hr : s.Ready p 1) (hu : (s.proc p).sup = false) (hi : i.len = 1)
    (h : (v ^^^ (s.proc p).status) &&& m &&& 0xE0 = 0) (ha : v &&& (m &&& 0x10) = a) (hb : ~~~ v &&& (m &&& 0x10) = b) :
    s.Ran p ((s.proc p).pc + 1) (fun z => { z with shadows := [⟨3, a, b⟩] })
      (s.issue p i (fun s => s.changeMode p op v m)) := by
  subst ha hb
  refine State.ran_issue (l := [⟨4, v &&& (m &&& 0x10), ~~~ v &&& (m &&& 0x10)⟩]) hp hr hi (by simp) (fun t y hb => ?_)
  refine ⟨_, State.changeMode_ovt (hb.proc ▸ hu) (hb.proc ▸ h), (hb.updProc _).congr ?_⟩
  simp [ProcSt.withCaches, hr.plain.shadows]

end

theorem exec_setm (p : Proc) (imm : BitVec 8) (s : State) :
    exec (.setm p imm) s = .next (s.issue p.val { word := fmtI 0x4E 0 0 imm } (fun s => s.changeMode p.val 0x4E (zx8 imm) (zx8 imm))) := rfl

theorem exec_clrm (p : Proc) (imm : BitVec 8) (s : State) :
    exec (.clrm p imm) s = .next (s.issue p.val { word := fmtI 0x4F 0 0 imm } (fun s => s.changeMode p.val 0x4F 0 (zx8 imm))) := rfl

/-- What SETM of `m` changes: the bits that are 0. -/
theorem changed_by_set (m st k : Word) : (m ^^^ st) &&& m &&& k = m &&& k &&& ~~~ st := by
  ext j hj
  simp only [BitVec.getElem_and, BitVec.getElem_xor, BitVec.getElem_not]
  cases m[j] <;> cases st[j] <;> simp

/-- What CLRM of `m` changes: the bits that are 1. -/
theorem changed_by_clear (m st k : Word) : (0 ^^^ st) &&& m &&& k = m &&& k &&& st := by
  change (0#24 ^^^ st) &&& m &&& k = _
  rw [BitVec.zero_xor, BitVec.and_assoc, BitVec.and_comm]

/-- MTS of `v` to STATUS, where it is allowed (R247, R248). -/
def State.writeStatus (s : State) (p : Nat) (v : Word) : Run :=
  match s.changeMode p 0x4D v 0xF0 with
  | .done s => .done (s.updProc p (fun x => { x with status := (x.status &&& 0x0FFFFF) ||| (v &&& 0xF00000) }))
  | r => r

theorem State.writeStatus_refused {s : State} {p : Nat} {v : Word} (hu : (s.proc p).sup = false)
    (h : (v ^^^ (s.proc p).status) &&& 0xE0 ≠ 0) : s.writeStatus p v = .raise s 2 0x4D none := by
  have hm := State.changeMode_refused (op := 0x4D) (m := 0xF0) hu (by rwa [BitVec.and_assoc])
  rw [State.writeStatus, hm]

theorem State.writeStatus_ovt {s : State} {p : Nat} {v : Word} (hu : (s.proc p).sup = false)
    (h : (v ^^^ (s.proc p).status) &&& 0xE0 = 0) :
    s.writeStatus p v = .done ((s.updProc p (fun x => { x with shadows := x.shadows ++ [⟨4, v &&& 0x10, ~~~ v &&& 0x10⟩] })).updProc p
      (fun x => { x with status := (x.status &&& 0x0FFFFF) ||| (v &&& 0xF00000) })) := by
  have hm := State.changeMode_ovt (op := 0x4D) (m := 0xF0) hu (by rwa [BitVec.and_assoc])
  rw [State.writeStatus, hm]
  rfl

/-- STATUS may be written in either mode (R246). -/
theorem State.specialErr_status (s : State) (p : Nat) : s.specialErr p 0 true = none := by simp [State.specialErr]

theorem exec_mts_status (p : Proc) (a : RegNo) (s : State) :
    exec (.mts p a 0) s =
      .next (s.issue p.val { word := fmtI 0x4D 0 a 0, regs := [a] } (fun s => s.writeStatus p.val (s.getW p.val a))) := by
  change execMts p a 0 s = _
  unfold execMts
  congr 2
  funext t
  have h : t.specialErr p.val (0 : BitVec 8).toNat true = none := t.specialErr_status p.val
  simp only [h]
  rfl

/-- Settles O57: SETM, CLRM and MTS come to `State.changeMode`, which user mode lets change OVT alone (R249). -/
theorem userModeChangesOfTheModeBits : Obligations.UserModeChangesOfTheModeBits := by
  intro p s hr hu
  have hp : p.val < 17 := p.isLt
  have hw : ∀ {t y} (a : RegNo), State.Became p.val ((s.proc p.val).withCaches y) s t → t.getW p.val a = s.getW p.val a :=
    fun a hb => congrArg (·.reg a.toNat) hb.proc
  refine ⟨fun imm => ⟨fun h => ⟨_, exec_setm p imm s, ?setmRefused⟩, fun h => ⟨_, exec_setm p imm s, ?setm⟩,
    fun h => ⟨_, exec_clrm p imm s, ?clrmRefused⟩, fun h => ⟨_, exec_clrm p imm s, ?clrm⟩⟩,
    fun a v hv => ⟨fun h => ⟨_, exec_mts_status p a s, ?mtsRefused⟩, fun h => ⟨_, exec_mts_status p a s, ?mts⟩⟩⟩
  case setmRefused => exact State.took_issue_changeMode hp hr hu rfl (fun e => h ((changed_by_set ..).symm.trans e))
  case setm =>
    refine State.ran_issue_changeMode hp hr hu rfl ((changed_by_set ..).trans h) ?_ ?_
    · rw [← BitVec.and_assoc, BitVec.and_self]; rfl
    · rw [← BitVec.and_assoc, BitVec.and_comm (~~~ _), BitVec.and_not_self]; rfl
  case clrmRefused => exact State.took_issue_changeMode hp hr hu rfl (fun e => h ((changed_by_clear ..).symm.trans e))
  case clrm =>
    refine State.ran_issue_changeMode hp hr hu rfl ((changed_by_clear ..).trans h) ?_ ?_
    · exact BitVec.zero_and
    · exact BitVec.allOnes_and
  case mtsRefused =>
    exact State.took_issue hp hr rfl (fun t y hb => State.writeStatus_refused (hb.proc ▸ hu) (by rw [hw a hb, hb.proc, hv]; exact h))
  case mts =>
    refine State.ran_issue (l := [⟨4, v &&& 0x10, ~~~ v &&& 0x10⟩]) hp hr rfl (by simp) (fun t y hb => ?_)
    rw [hw a hb, hv]
    refine ⟨_, State.writeStatus_ovt (hb.proc ▸ hu) (hb.proc ▸ h), ((hb.updProc _).updProc _).congr ?_⟩
    simp [ProcSt.withCaches, hr.plain.shadows]

end Sys2Proof.Machine
end

section
/-! PROOF. Lines of the timers and the Harrow (R158, R174, R387, R411): what a change of a line does to its source's register, which
event bits drive the lines of those units, and O58 from them. -/
namespace Sys2Proof.Machine

/-! ## A change of a line -/

theorem State.onlyRegs_settlePend {touched : Nat → Prop} {s t : State} {a : Nat} (h : State.OnlyRegs touched s t) (ha : touched a) :
    State.OnlyRegs touched s (t.settlePend a) := by
  unfold State.settlePend
  split
  · exact State.onlyRegs_clrBit 21 h ha
  · split
    · exact State.onlyRegs_setBit 21 h ha
    · exact h

/-- A change of a line changes the register of its source only. -/
theorem State.onlyRegs_irqLine (s : State) (n p : Nat) : s.OnlyRegs (· = irqReg n p) (s.irqLine n p) := by
  have hput := State.onlyRegs_putBit (a := irqReg n p) 20 (s.rawLine n p) (.refl (· = irqReg n p) s) rfl
  unfold State.irqLine
  dsimp only
  split
  · exact .refl _ s
  · split
    · exact State.onlyRegs_settlePend (State.onlyRegs_setBit 21 hput rfl) rfl
    · exact State.onlyRegs_settlePend hput rfl

/-- PEND apart, settling PEND leaves the bits of the register. -/
theorem State.bitAt_settlePend_ne (s : State) (a b : Nat) {m : Nat} (hm : m ≠ 21) : (s.settlePend a).bitAt b m = s.bitAt b m := by
  unfold State.settlePend
  split
  · simp [State.bitAt_clrBit, hm]
  · split
    · simp [State.bitAt_setBit, hm]
    · rfl

/-- After a change RAW of a source is what its unit drives (R387). -/
theorem State.bitAt_irqLine_raw (s : State) {n : Nat} (p : Nat) (hn : n < 250) :
    (s.irqLine n p).bitAt (irqReg n p) 20 = s.rawLine n p := by
  have hput : (s.putBit (irqReg n p) 20 (s.rawLine n p)).bitAt (irqReg n p) 20 = s.rawLine n p := by simp [State.bitAt_putBit]
  unfold State.irqLine
  rw [if_neg (Nat.not_le.mpr hn)]
  dsimp only
  rw [State.bitAt_settlePend_ne _ _ _ (by decide)]
  split
  · simpa [State.bitAt_setBit] using hput
  · exact hput

/-- What a change of line leaves in IRQ_SRC_n where the unit of source `n` drives `b` (R387). -/
theorem exec_irqLineChange_of_rawLine {s : State} {n : Nat} {p : Fin 8} {b : Bool} (hn : n < 248) (hb : s.rawLine n p.val = b) :
    ∃ t, exec (.irqLineChange (BitVec.ofNat 8 n) p) s = .next t ∧ t.bitAt (Reg.IRQ_SRC n) 20 = b ∧
      s.OnlyRegs (· = Reg.IRQ_SRC n) t := by
  have hexec : exec (.irqLineChange (BitVec.ofNat 8 n) p) s = .next (s.irqLine (BitVec.ofNat 8 n).toNat p.val) := rfl
  have hnum : (BitVec.ofNat 8 n).toNat = n := by rw [BitVec.toNat_ofNat]; omega
  have hreg : irqReg n p.val = Reg.IRQ_SRC n := if_neg (by omega)
  rw [hnum] at hexec
  refine ⟨_, hexec, ?_, hreg ▸ s.onlyRegs_irqLine n p.val⟩
  rw [← hreg, s.bitAt_irqLine_raw p.val (by omega), hb]

/-! ## The lines of the timers and the Harrow -/

/-- Under a mask of the `k` low bits, any bit is any of those bits. -/
theorem State.anyBit_low (s : State) (a : Nat) {k : Nat} (hk : k ≤ 24) :
    s.anyBit a (2 ^ k - 1) = (List.range k).any (fun i => s.bitAt a i) := by
  have hbit : ∀ i, (s.reg a &&& wd (2 ^ k - 1)).getLsbD i = (decide (i < k) && s.bitAt a i) := by
    intro i
    rw [BitVec.getLsbD_and, BitVec.getLsbD_ofNat, Nat.testBit_two_pow_sub_one, State.bitAt, bit]
    by_cases hi : i < k
    · simp [hi, Nat.lt_of_lt_of_le hi hk]
    · simp [hi]
  have hzero : s.reg a &&& wd (2 ^ k - 1) = 0 ↔ ∀ i, i < k → s.bitAt a i = false := by
    constructor
    · intro h i hi
      simpa [h, hi] using (hbit i).symm
    · intro h
      refine BitVec.eq_of_getLsbD_eq (fun i _ => (hbit i).trans ?_)
      by_cases hi : i < k
      · simp [h i hi]
      · simp [hi]
  rw [Bool.eq_iff_iff, State.anyBit, decide_eq_true_iff, Ne, hzero]
  simp

/-- Source 136 + k: MATCH, OVF and OVR of timer `k` (R411). -/
theorem State.rawLine_timer (s : State) {k : Nat} (p : Nat) (hk : k < 16) :
    s.rawLine (136 + k) p = (s.bitAt (Reg.TMR_T_EVT k) 0 || s.bitAt (Reg.TMR_T_EVT k) 1 || s.bitAt (Reg.TMR_T_EVT k) 2) := by
  have hline : s.rawLine (136 + k) p = s.anyBit (Reg.TMR_T_EVT k) 0x7 := by
    unfold State.rawLine
    simp (disch := omega) only [if_neg, if_pos, Nat.add_sub_cancel_left]
  have hany := s.anyBit_low (Reg.TMR_T_EVT k) (k := 3) (by decide)
  refine hline.trans (hany.trans ?_)
  simp [List.range_succ, Bool.or_assoc]

/-- Source 96 + q: DONE of queue `q` (R174). -/
theorem State.rawLine_harrowQueue (s : State) {q : Nat} (p : Nat) (hq : q < 4) :
    s.rawLine (96 + q) p = s.bitAt (Reg.HRW_Q_STAT q) 23 := by
  unfold State.rawLine
  simp (disch := omega) only [if_neg, if_pos, Nat.add_sub_cancel_left]

/-- Source 100: ERR, ABORT, QFULL and DCWRAP of HRW_EVT (R174). -/
theorem State.rawLine_harrowEvent (s : State) (p : Nat) :
    s.rawLine 100 p = (s.bitAt Reg.HRW_EVT 0 || s.bitAt Reg.HRW_EVT 1 || s.bitAt Reg.HRW_EVT 2 || s.bitAt Reg.HRW_EVT 3) := by
  have hline : s.rawLine 100 p = s.anyBit Reg.HRW_EVT 0xF := rfl
  have hany := s.anyBit_low Reg.HRW_EVT (k := 4) (by decide)
  refine hline.trans (hany.trans ?_)
  simp [List.range_succ, Bool.or_assoc]

/-- Source 101: ERRSAT of HRW_EVT (R174). -/
theorem State.rawLine_harrowErrsat (s : State) (p : Nat) : s.rawLine 101 p = s.bitAt Reg.HRW_EVT 4 := rfl

/-- Source 102 + b: the five event bits of the Furrow engine of beam `b` (R158). -/
theorem State.rawLine_furrow (s : State) {b : Nat} (p : Nat) (hb : b < 2) :
    s.rawLine (102 + b) p = (List.range 5).any (fun i => s.bitAt (Reg.HRW_FW_EVT b) i) := by
  have hline : s.rawLine (102 + b) p = s.anyBit (Reg.HRW_FW_EVT b) 0x1F := by
    unfold State.rawLine
    simp (disch := omega) only [if_neg, if_pos, Nat.add_sub_cancel_left]
  have hany := s.anyBit_low (Reg.HRW_FW_EVT b) (k := 5) (by decide)
  exact hline.trans hany

/-! ## TMR_EVT drives no line -/

section
variable {a b : Nat} (s : State) (v : Word)

theorem State.bitAt_setReg_ne (m : Nat) (h : b ≠ a) : (s.setReg a v).bitAt b m = s.bitAt b m :=
  congrArg (bit · m) (s.reg_setReg_ne v h)

theorem State.anyBit_setReg_ne (m : Nat) (h : b ≠ a) : (s.setReg a v).anyBit b m = s.anyBit b m := by
  simp only [State.anyBit, s.reg_setReg_ne v h]

/-- TAIL and HEAD of the mailboxes lie at other addresses than TMR_EVT. -/
theorem State.mbCount_setReg_tmrEvt (m : Nat) : (s.setReg Reg.TMR_EVT v).mbCount m = s.mbCount m := by
  have htail : Reg.STW_MB_TAIL m ≠ Reg.TMR_EVT := by unfold Reg.STW_MB_TAIL Reg.TMR_EVT; omega
  have hhead : Reg.STW_MB_HEAD m ≠ Reg.TMR_EVT := by unfold Reg.STW_MB_HEAD Reg.TMR_EVT; omega
  simp only [State.mbCount, s.reg_setReg_ne v htail, s.reg_setReg_ne v hhead]

end

/-- The line of no source looks at TMR_EVT, whatever it holds: software polls it (R411). Both sides branch on the source alike, and
no branch reads a register at the address of TMR_EVT; the bells lie below it because their sources end at 47. -/
theorem State.rawLine_setReg_tmrEvt (s : State) (n p : Nat) (v : Word) : (s.setReg Reg.TMR_EVT v).rawLine n p = s.rawLine n p := by
  unfold State.rawLine
  dsimp only
  repeat' refine ite_congr rfl (fun _ => ?_) (fun _ => ?_)
  all_goals
    simp (disch := (simp only [Reg.TMR_EVT, Reg.FAB_EVT, Reg.PWR_EVT, Reg.IRQ_BELL, Reg.BM_TEVT, Reg.BM_WRSTAT, Reg.BM_CEVT,
      Reg.HRW_Q_STAT, Reg.HRW_EVT, Reg.HRW_FW_EVT, Reg.DRL_CH_EVT, Reg.TMR_T_EVT, Reg.AUD_EVT, Reg.SUP_EVT, Reg.LNK_L_EVT,
      Reg.LNK_EVT, Reg.SEC_EVT, Reg.GRN_EVT, Reg.GPO_EVT, Reg.ACW_EVT, Reg.DBG_EVT, Reg.GLN_EVT]; omega)) only
      [State.bitAt_setReg_ne, State.anyBit_setReg_ne, State.mbCount_setReg_tmrEvt, State.proc, State.setReg_procs]

/-- Settles O58: a change of a line takes over what the unit drives, which `State.rawLine` gives from the unit's event bits. -/
theorem timerAndHarrowEventsDriveTheirSources : Obligations.TimerAndHarrowEventsDriveTheirSources := by
  refine ⟨fun p s => ⟨fun k hk => ?timer, fun q hq => ?queue, ?harrowEvent, ?errsat, fun b hb => ?furrow⟩,
    fun n p v s => s.rawLine_setReg_tmrEvt n p v⟩
  case timer => exact exec_irqLineChange_of_rawLine (by omega) (s.rawLine_timer p.val hk)
  case queue => exact exec_irqLineChange_of_rawLine (by omega) (s.rawLine_harrowQueue p.val hq)
  case harrowEvent => exact exec_irqLineChange_of_rawLine (by decide) (s.rawLine_harrowEvent p.val)
  case errsat => exact exec_irqLineChange_of_rawLine (by decide) (s.rawLine_harrowErrsat p.val)
  case furrow => exact exec_irqLineChange_of_rawLine (by omega) (s.rawLine_furrow p.val hb)

end Sys2Proof.Machine
end
